-- ==== Sys2Proof/Word.lean ====
section
/-! DEFINITION. The word and byte types of the package and their plainest views (spec/00_scope.md, R5 to R7). -/

namespace Sys2Proof

/-- A register word: registers are 64 bits wide (spec/00_scope.md). -/
abbrev Word := BitVec 64

/-- One byte of device memory, of host memory or of a frame. -/
abbrev Byte := BitVec 8

/-- The byte whose value is `n` modulo 256. -/
abbrev byte (n : Nat) : Byte := BitVec.ofNat 8 n

/-- The word whose value is `n` modulo 2^64. -/
abbrev word (n : Nat) : Word := BitVec.ofNat 64 n

end Sys2Proof
end

