-- ==== Sys2Proof/Syntax.lean ====
section
/-! DEFINITION. The commands of the package, one constructor for each row of spec/opcode_table.json, with their operands: what a
session writes, a host or a partner sends, a sensor reads, or the hardware finds when the row's event happens. -/
namespace Sys2Proof.Machine
/-- Key of a directory entry. -/
structure Key where
  group : Nat
  step : Nat
  chunk : Nat
  origin : Nat
  deriving DecidableEq, Repr

/-- A received fault signal (R88). -/
inductive RxFault where
  | none | localFault | remoteFault
  deriving DecidableEq, Repr

/-- How a packet for a management port arrives: plain, protected by MACsec with a packet number (R48), or as the oldest RoCEv2 frame that
the fabric relayed to service 0x02 (R130). -/
inductive Via where
  | plain
  | secured (pn : BitVec 64)
  | relayed
  deriving DecidableEq, Repr

/-- Where a frame's treads come from (R165, R172, R192). -/
inductive Pool where
  | result | request | reply | headroom | forward | deepHead | overflow | ring
  deriving DecidableEq, Repr

/-- The answer a host gives to a request of the device (R49). -/
inductive RoceAnswer where
  /-- An acknowledgement of the `n` oldest requests. -/
  | ack (n : Nat)
  /-- A NAK that asks for the requests again from the oldest. -/
  | nakSequence
  /-- A NAK that refuses the oldest request for good. -/
  | nakError
  /-- Receiver not ready. -/
  | rnr
  deriving DecidableEq, Repr
end Sys2Proof.Machine
namespace Sys2Proof
/-- What the hardware finds while an instruction of a flight runs. A residue mismatch (R260, R305, R333) names its place, its residues and the
failing unit's two operands, low 64 bits each (R438). -/
inductive Find where
  | ok
  | corrected (addr : Nat)
  | uncorrectable (addr : Nat)
  | residue (engine lane unit expected observed a b : Nat)
  deriving DecidableEq, Repr
/-- A retry of an unacknowledged I3C transfer of an engine's module (R84): it follows a retry of the same transfer, and the transfer is the
write of MOD_OUT_EN. -/
structure I3cTransfer where
  engine : Fin 16
  again : Bool
  write : Bool
  deriving DecidableEq, Repr
/-- Errors that a receive lane counts in a 10 ms window: uncorrectable codewords (R89), and errors of the pattern checker (R95). -/
structure LaneErrors where
  uncorrected : BitVec 32
  pattern : BitVec 32
  deriving DecidableEq, Repr
/-- What a filler pass ends with (R308): its tile compares, and what the hardware finds meanwhile. -/
structure FillerEnd where
  ok : Bool
  find : Find
  deriving DecidableEq, Repr
/-- What the hardware finds while a received frame passes the pipeline: nothing, a full RX queue (R163), an uncorrectable FEC
codeword (R89), an uncorrectable tread (R433), a residue mismatch of the pipeline (R435), an uncorrectable endpoint entry
(R160), an uncorrectable route bank entry (R433), or a parity failure in the LPM memory, in one copy or in both (R153). -/
inductive RxFind where
  | ok
  | overrun
  | codeword
  | treadEcc
  | residue
  | epEcc
  /-- The route bank entry that the frame needs; `refetch`: found by an earlier read, and still being refetched. -/
  | routeEcc (refetch : Bool)
  /-- LPM entries whose parity fails, by slot; `true` where the shadow copy fails too (R153, R433). -/
  | lpmParity (bad : List (Nat × Bool))
  deriving DecidableEq, Repr
/-- What the hardware finds while it sends the frame picked: nothing, an uncorrectable tread (R177), a residue mismatch in S7's rewrite (R435). -/
inductive TxFind where
  | ok
  | treadEcc
  | residue
  deriving DecidableEq, Repr
/-- What a read of bonded DRAM or LPDDR6 finds (R355, R362, R363): nothing, a corrected error or an uncorrectable one, at a byte offset into
what is read; `symbols` of a corrected block, 0 for a link error that link ECC corrected. -/
inductive ReadFind where
  | ok
  | corrected (at_ symbols : Nat)
  | bad (at_ : Nat)
  deriving DecidableEq, Repr
/-- What a memory word or block that reads with an uncorrectable error holds (R363, R433). -/
inductive Victim where
  /-- Nothing whose loss has an effect beyond its record. -/
  | nothing
  /-- A tread of frame `id`. -/
  | frame (id : Nat)
  /-- A directory entry, or landing SRAM of its landings. -/
  | entry (k : Machine.Key)
  /-- Landing SRAM of a core that no open entry uses. -/
  | landing (core : Nat)
  /-- The staging slot of the head of an entry. -/
  | slot (k : Machine.Key)
  /-- A residual area. -/
  | area (group chunk : Nat)
  /-- A group entry or member list; `every` says no die's copy reads correctly. -/
  | group (g : Nat) (every : Bool)
  /-- The endpoint entry of an FEA. -/
  | endpoint (fea : Nat)
  /-- A flight slot of a core. -/
  | flight (core slot : Nat)
  /-- Control complex SRAM or firmware region of a control core, which was performing the waiting commands of these rings. -/
  | control (k : Nat) (rings : List Nat)
  /-- State of the queue of logical port `l`, class `c`, slot `slot`. -/
  | queue (l c slot : Nat)
  deriving DecidableEq, Repr
/-- An error that a scrub pass finds: where, and what the code makes of it. -/
structure MemFind where
  addr : Nat
  /-- Symbols corrected; 0 for an uncorrectable error. -/
  symbols : Nat
  /-- A link error that link ECC corrected (LPDDR6 alone). -/
  link : Bool
  /-- Memory code of R433 (SRAM alone). -/
  memory : Nat
  victim : Victim
  deriving DecidableEq, Repr
/-- A command: one row of the opcode table. Operands named `who` are the session that writes. -/
inductive Instr where
  /-- POWER_ON (R385): VIN48 holds the start threshold and the stage controller runs the rail power-on sequence up to PWR_OK high. -/
  | powerOn (vin : BitVec 10)
  /-- RAIL_BOUND_MISSED (R385): A rail misses its sequencing bound, so the rails are turned off and rail_fault is set. -/
  | railBoundMissed
  /-- RAIL_RETRY (R385): One second after a failed power-on, the device retries the sequence once. -/
  | railRetry
  /-- VIN48_TRIP (R386): An undervoltage, overvoltage or overcurrent trip drops PWR_OK and turns the rails off in reverse order. -/
  | vin48Trip (cause : Fin 3)
  /-- ISOLATION_LINK_SILENT (R384): The isolated link is silent for 100 µs, so setpoints are held; at 10 ms the stage powers off and
  sets isolation_link. -/
  | isolationLinkSilent (tenMs : Bool)
  /-- COLD_BOOT (R404): PWR_OK rises and the device runs the cold boot from dies out of reset to discovery. -/
  | coldBoot (pufOk : Bool) (trained : List Bool)
  /-- WARM_RST_PIN (R397): WARM_RST_N held low for at least 1 µs starts a package warm reset. -/
  | warmRstPin
  /-- WARM_RESET_REGISTER (R397): A write of CTL_DIE_RESET.warm_reset on die 0 starts a package warm reset. -/
  | warmResetRegister (who : Fin 64)
  /-- WARM_RESET_RELEASE (R406): The warm reset is released and the warm sequence runs from clock lock to forwarding. -/
  | warmResetRelease (trained : List Bool) (copyOk : Bool)
  /-- DIE_RESET (R407): A write of CTL_DIE_RESET.die_reset resets die 1, 2 or 3, or is refused on die 0 or in standby. -/
  | dieReset (who : Fin 64) (die : Fin 4)
  /-- DIE_RESET_RELEASE (R407): The die reset is released and the die reloads its tables, makes its residual areas fresh and brings up
  its ports. -/
  | dieResetRelease (die : Fin 4) (trained : List Bool)
  /-- PAGE_SOFT_RESET (R399): A write of PG_CTRL.soft_reset ends the block's work, resets its RW and W1C fields and releases its guard.
  -/
  | pageSoftReset (who : Fin 64) (page : Nat)
  /-- PAGE_CONFIG_RESTORE (R399): After a page soft reset, firmware rewrites the configured fields from the active configuration copy
  and sets ready. -/
  | pageConfigRestore (page : Nat)
  /-- PORT_RESET (R397): A page soft reset of an OPT port page resets the port and restarts it at step 5. -/
  | portReset (who : Fin 64) (port : Fin 512)
  /-- SYSCLK_LOSS (R40): Loss of SYSCLK stops forwarding and asserts FAULT_N. -/
  | sysclkLoss
  /-- SERDES_REF_LOSS (R40): Loss of SERDES_REFd takes the die's ports dark. -/
  | serdesRefLoss (die : Fin 4)
  /-- SERDES_REF_RETURN (R40): SERDES_REFd present for 10 ms restarts the die's port bring-up. -/
  | serdesRefReturn (die : Fin 4)
  /-- TIME_REF_LOSS (R377): Loss of TIME_REF moves CK_TIME to SYSCLK and applies the measured frequency correction. -/
  | timeRefLoss (diff : Int)
  /-- TIME_REF_RETURN (R377): TIME_REF returns and the frequency correction is removed without a step. -/
  | timeRefReturn
  /-- PPS_IN_EDGE (R378): A PPS_IN rising edge is stamped in T0 and T1 and feeds the servo of any domain in PPS mode. -/
  | ppsInEdge
  /-- PPS_MISS (R378): 1.1 s pass without a PPS_IN edge, so PPS_MISS is counted and pps_lost is set. -/
  | ppsMiss
  /-- MESH_LANE_GROUP_FAIL (R37): A failing mesh lane group is moved to the spare or reduces its direction, and flits in flight are
  retransmitted. -/
  | meshLaneGroupFail (die : Fin 4) (link : Fin 3) (group : Fin 8) (flits : List Nat)
  /-- MESH_CROSSING (R36): A frame waiting for mesh credit of its pool crosses to its egress die. -/
  | meshCrossing (src : Fin 4) (dst : Fin 4) (pool : Machine.Pool)
  /-- RDMA_WRITE (R52): An RDMA WRITE to page windows, ring memory or a staging window is checked and performed. -/
  | rdmaWrite (m : Fin 4) (qp : Fin 64) (rkey : BitVec 32) (addr : BitVec 64) (data : List Byte) (via : Machine.Via)
  /-- RDMA_READ (R52): An RDMA READ of registers, ring memory, staging or telemetry is checked and answered. -/
  | rdmaRead (m : Fin 4) (qp : Fin 64) (rkey : BitVec 32) (addr : BitVec 64) (len : BitVec 32) (via : Machine.Via) (find : ReadFind)
  /-- REGISTER_WRITE (R12): A write to a register field that has no behaviour of its own takes effect as its access code states. -/
  | registerWrite (who : Fin 64) (addr : Nat) (value : BitVec 64)
  /-- HOST_SEND (R49): A SEND from a host is answered with NAK Invalid Request, and its queue pair enters error. -/
  | hostSend (m : Fin 4) (qp : Fin 64) (via : Machine.Via)
  /-- LOCAL_ACK_TIMEOUT (R49): The 131 µs ACK timer of a request expires, so the request is retried or the queue pair enters error. -/
  | localAckTimeout (m : Fin 4) (qp : Fin 64)
  /-- RNR_RETRY_TIMER (R49): The RNR retry timer expires, so the request is retried or the queue pair enters error. -/
  | rnrRetryTimer (m : Fin 4) (qp : Fin 64)
  /-- CM_REQ (R427): A connection REQ with credential proof is checked and answered with REP or REJ, or dropped by the rate limit. -/
  | cmReq (m : Fin 4) (hostQpn : Nat) (priv : List Byte) (via : Machine.Via)
  /-- CM_RTU (R427): An RTU signature is verified and the queue pair is admitted to a session. -/
  | cmRtu (m : Fin 4) (qp : Fin 64) (signature : List Byte) (via : Machine.Via)
  /-- SESSION_IDLE_TIMEOUT (R50): 30 s pass with no packet on a session's queue pairs, so the session ends. -/
  | sessionIdleTimeout (session : Fin 64)
  /-- RING_OWNER_RELEASE (R69): Firmware sets the owner fields of an ended session's rings back to 0xFF. -/
  | ringOwnerRelease (session : Fin 64)
  /-- MKA_KEY_INSTALL (R48): Firmware MKA installs a secure association key on a management port and applies the cipher. -/
  | mkaKeyInstall (m : Fin 4) (an : Fin 4)
  /-- MKA_TIMEOUT (R74): Under REQUIRED, no key is installed within 10 s of link up, so mka_fail is set. -/
  | mkaTimeout (m : Fin 4)
  /-- MGT_LINK_CHANGE (R47): A management port link comes up or goes down after auto-negotiation and training. -/
  | mgtLinkChange (m : Fin 4) (up : Bool)
  /-- PG_COMMIT_WRITE (R57): A commit request is checked against the shadow sequence and accepted, refused or placed in dual pending.
  -/
  | pgCommitWrite (who : Fin 64) (page : Nat) (seq : BitVec 32)
  /-- PG_COMMIT_ABORT (R55): PG_COMMIT.abort refills the shadow bank from the active bank or cancels a pending dual item. -/
  | pgCommitAbort (who : Fin 64) (page : Nat)
  /-- BANK_SWAP (R57): At the block's next boundary, the shadow bank becomes active and the former bank is refilled. -/
  | bankSwap (page : Nat)
  /-- DUAL_TIMEOUT (R58): 60 s pass without a second submission, so dual_pending is cleared and DUAL_TIMEOUT is reported. -/
  | dualTimeout (ticket : BitVec 32)
  /-- PG_GUARD_WRITE (R59): A write of PG_GUARD.owner takes or releases the page guard, or is refused. -/
  | pgGuardWrite (who : Fin 64) (page : Nat) (owner : BitVec 8)
  /-- RING_DOORBELL (R60): A doorbell write records the producer index or stops the ring with OVERRUN. -/
  | ringDoorbell (who : Fin 64) (ring : Fin 4096) (producer : BitVec 32)
  /-- DESCRIPTOR_FETCH (R61): The ring engine fetches the next descriptor when order, fence and completion-ring space allow. -/
  | descriptorFetch (ring : Fin 4096) (find : ReadFind)
  /-- RING_ENABLE (R70): Command-ring enable going from 0 to 1 zeroes head, producer and indices and starts the ring. -/
  | ringEnable (who : Fin 64) (ring : Fin 4096)
  /-- RING_DISABLE (R70): Clearing command-ring enable stops fetching at once. -/
  | ringDisable (who : Fin 64) (ring : Fin 4096)
  /-- CQ_HEAD_WRITE (R61): The host advances the completion consumed index, which frees slots so that fetching resumes. -/
  | cqHeadWrite (who : Fin 64) (ring : Fin 4096) (consumed : BitVec 32)
  /-- EVR_ENABLE (R70): Event-ring enable going from 0 to 1 zeroes producer, consumed and dropped. -/
  | evrEnable (who : Fin 64) (evr : Fin 256)
  /-- EVR_DISABLE (R70): Clearing event-ring enable drops further entries without counting them. -/
  | evrDisable (who : Fin 64) (evr : Fin 256)
  /-- EVR_HEAD_WRITE (R67): The host advances the event consumed index, and EVENT_OVERFLOW is written if entries were dropped. -/
  | evrHeadWrite (who : Fin 64) (evr : Fin 256) (consumed : BitVec 32)
  /-- CORE_WATCHDOG_EXPIRY (R73): A control core's 100 ms watchdog expires, so its commands complete with HW_ERROR and a record is
  written. -/
  | coreWatchdogExpiry (core : Fin 4) (rings : List (Fin 4096))
  /-- CORE_RESTART (R73): Firmware on another core restarts the failed control core. -/
  | coreRestart (core : Fin 4)
  /-- NOP (R64): The command does nothing and completes. -/
  | nop (ring : Fin 4096)
  /-- BANK_COMMIT (R64): A commit of a page is ordered in the ring, with the outcomes of PG_COMMIT. -/
  | bankCommit (ring : Fin 4096)
  /-- TABLE_SEARCH (R157): A table key is looked up in the named die copy and the value is returned. -/
  | tableSearch (ring : Fin 4096)
  /-- TABLE_NEXT (R158): Table entries are walked by cursor and written to the staging window. -/
  | tableNext (ring : Fin 4096)
  /-- TABLE_INSERT (R157): An entry is inserted or updated in all four copies, or the shadow route bank is written. -/
  | tableInsert (ring : Fin 4096) (ecc : Bool)
  /-- TABLE_DELETE (R157): An entry is deleted from all copies, or a shadow route entry is invalidated. -/
  | tableDelete (ring : Fin 4096)
  /-- FLUSH_BY_PORT (R150): Dynamic endpoint entries learned on the masked ports are removed from every copy. -/
  | flushByPort (ring : Fin 4096)
  /-- ROUTE_DRAIN (R199): The shadow route bank is checked, then affected routes are held and drained before the bank swap. -/
  | routeDrain (ring : Fin 4096)
  /-- ROUTE_DRAIN_QUEUES_EMPTY (R199): The affected queues empty, so the bank swaps, held frames are released and the completion is
  written. -/
  | routeDrainQueuesEmpty (table : Nat)
  /-- ROUTE_DRAIN_EXPIRY (R199): 1 ms pass in a drain, so remaining frames are discarded under DRAIN_DISCARD and the swap proceeds. -/
  | routeDrainExpiry (table : Nat)
  /-- PORT_ACCEPT (R412): Every HELD sub-port of the port becomes ACCEPTED by command. -/
  | portAccept (ring : Fin 4096)
  /-- BYPASS_ENABLE (R102): Under dual control, the circuit is checked and its switching is queued. -/
  | bypassEnable (ring : Fin 4096)
  /-- BYPASS_RESET (R104): The circuit's cells are returned to BAR. -/
  | bypassReset (ring : Fin 4096)
  /-- BYPASS_READ (R106): A fresh readback of the engine is made and its partner map is written to staging. -/
  | bypassRead (ring : Fin 4096)
  /-- GROUP_WRITE (R265): A group entry and member list are checked and written to all dies, and its residual areas are placed. -/
  | groupWrite (ring : Fin 4096) (find : ReadFind)
  /-- GROUP_DISABLE (R266): member_count is set to 0 in all copies, and new claims stop. -/
  | groupDisable (ring : Fin 4096)
  /-- FLIGHT_LOAD (R312): A flight image is checked and loaded into a core slot and bound to the job. -/
  | flightLoad (ring : Fin 4096) (find : ReadFind)
  /-- TRIGGER_ARM (R286): A trigger's source, threshold and action are set and the trigger is ARMED. -/
  | triggerArm (ring : Fin 4096)
  /-- QUOTA_SET (R271): The job's landing-context and SRAM quotas are set. -/
  | quotaSet (ring : Fin 4096)
  /-- PLAN_LOAD (R409): A plan image is checked, made active, and drives port roles and route derivation. -/
  | planLoad (ring : Fin 4096) (find : ReadFind)
  /-- CONFIG_SAVE (R403): The active configuration is captured and written to the inactive flash image with readback. -/
  | configSave (ring : Fin 4096) (good : Bool)
  /-- CONFIG_SAVE_AUTO (R403): After a bypass switching, firmware saves the configuration without a command. -/
  | configSaveAuto (good : Bool)
  /-- POWER_CAP_SET (R64): The power cap is set between 1,500 and 3,000 W. -/
  | powerCapSet (ring : Fin 4096)
  /-- POWER_CAP_ABOVE_DEFAULT (R64): Under dual control, the power cap is set between 3,001 and 3,400 W. -/
  | powerCapAboveDefault (ring : Fin 4096)
  /-- KEY_ENROL (R425): Under dual control, an owner key slot is written or erased in the security region. -/
  | keyEnrol (ring : Fin 4096) (find : ReadFind)
  /-- PROTECT_TABLE_COMMIT (R428): Under dual control, a protected permission table's shadow becomes active. -/
  | protectTableCommit (ring : Fin 4096)
  /-- COUNTER_SNAPSHOT (R459): The central reader reads the listed pages' counters into staging. -/
  | counterSnapshot (ring : Fin 4096) (find : ReadFind)
  /-- MODULE_ASSOCIATE (R81): Laser modules on the I3C bus get dynamic addresses and are associated with engines by strap. -/
  | moduleAssociate (die : Fin 4) (straps : List (BitVec 8))
  /-- I3C_RETRY (R84): An unacknowledged I3C transfer is retried, and after three failures the module is marked absent. -/
  | i3cRetry (transfer : I3cTransfer)
  /-- MODULE_REDISCOVERY (R84): Every 1 s the device retries discovery of an absent module. -/
  | moduleRediscovery (engine : Fin 16) (answer : Option (BitVec 8))
  /-- MODULE_IBI (R82): A module's In-Band Interrupt reports a change in its fault register. -/
  | moduleIbi (engine : Fin 16) (faults : BitVec 8)
  /-- LASER_INPUT_LOW (R83): A laser input reads below threshold for 10 µs or reports a fault, so its four ports go down with
  LASER_LOW. -/
  | laserInputLow (engine : Fin 16) (input : Fin 8) (tap : BitVec 8)
  /-- LASER_INPUT_RESTORE (R83): A laser input reads at or above threshold for 10 ms, so its ports restart bring-up. -/
  | laserInputRestore (engine : Fin 16) (input : Fin 8) (tap : BitVec 8)
  /-- ENGINE_BRINGUP (R85): An engine starts bring-up from lane lock through laser enable to calibration. -/
  | engineBringup (engine : Fin 16)
  /-- LASER_INPUTS_READY (R85): Every enabled laser input reaches threshold, so calibration starts. -/
  | laserInputsReady (engine : Fin 16) (taps : List (BitVec 8))
  /-- CALIBRATION_DONE (R85): Engine calibration completes, the engine becomes READY and cal_done is set. -/
  | calibrationDone (engine : Fin 16) (taps : List (BitVec 8))
  /-- ENGINE_STEP_TIMEOUT (R85): A laser or calibration step exceeds its bound, so the engine enters cal_state FAULT. -/
  | engineStepTimeout (engine : Fin 16)
  /-- OPT_RECAL (R85): A write of OPT_ENG_CTRL.recal takes the engine's ports down and fully recalibrates it. -/
  | optRecal (who : Fin 64) (engine : Fin 16)
  /-- PORT_TX_ENABLE (R86): Port bring-up step 5 enables TX, sending remote fault. -/
  | portTxEnable (lport : Fin 2048)
  /-- PARTNER_LIGHT_LOCK (R86): Partner light arrives and signal detect and CDR lock on every lane of the sub-port. -/
  | partnerLightLock (lport : Fin 2048)
  /-- ALIGNMENT_LOCK (R86): Alignment markers lock, lanes deskew and FEC decodes. -/
  | alignmentLock (lport : Fin 2048)
  /-- LINK_HOLD_UP_EXPIRY (R86): Idle without faults for the 10 ms hold-up, so the sub-port is UP and LINK_UP is written. -/
  | linkHoldUpExpiry (lport : Fin 2048)
  /-- LINK_DOWN_DECLARE (R87): A loss condition takes the sub-port down, removes it from spray sets and writes LINK_DOWN. -/
  | linkDownDeclare (lport : Fin 2048) (cause : Nat)
  /-- RX_FAULT_ORDERED_SET (R88): A received local or remote fault changes what the sub-port transmits. -/
  | rxFaultOrderedSet (lport : Fin 2048) (fault : Machine.RxFault)
  /-- BER_WINDOW (R89): A 10 ms window ends, and corrected-symbol counts set ber_warn or trip SER_FAULT. -/
  | berWindow (port : Fin 512) (corrected : List (BitVec 32)) (errors : List LaneErrors)
  /-- PORT_SLEEP (R91): A write setting OPT_PORT_CFG.sleep sends local fault, then goes dark with the receiver off. -/
  | portSleep (who : Fin 64) (port : Fin 512)
  /-- PORT_WAKE (R387): A write clearing sleep restarts the port from step 5. -/
  | portWake (who : Fin 64) (port : Fin 512)
  /-- SUB_PORT_ENABLE_WRITE (R91): A sub_enable write disables sub-ports with local fault then dark, or enables them from step 5. -/
  | subPortEnableWrite (who : Fin 64) (port : Fin 512) (enable : BitVec 4)
  /-- SHUTTER_CLOSE (R91): After at least 100 µs of local fault, the port's TX shutter closes. -/
  | shutterClose (lport : Fin 2048)
  /-- BYPASS_DRAIN_EXPIRY (R101): The 1 ms drain wait ends, so remaining frames are discarded and local fault starts. -/
  | bypassDrainExpiry (port : Fin 512)
  /-- SWITCHING_START (R103): An engine's queued switching starts on its four cells. -/
  | switchingStart (engine : Fin 16)
  /-- SWITCHING_DONE (R103): A switching and its readback complete and the command completes with its outcome. -/
  | switchingDone (engine : Fin 16) (bad : BitVec 4)
  /-- PERIODIC_READBACK (R108): Every readback_hours, the engine's cells are read back and reconciled. -/
  | periodicReadback (engine : Fin 16)
  /-- BYP_READBACK_WRITE (R110): A write of BYP_CTRL.readback reads the cells back now and reconciles them. -/
  | bypReadbackWrite (who : Fin 64) (engine : Fin 16)
  /-- FRAME_RECEIVE (R162): A frame received whole on a fabric sub-port passes the pipeline stages to discard, termination or
  admission. -/
  | frameReceive (lport : Fin 2048) (bytes : List Byte) (find : RxFind)
  /-- PFC_XOFF_REFRESH (R169): XOFF is repeated every refresh_ns while the condition holds. -/
  | pfcXoffRefresh (lport : Fin 2048) (cls : Fin 8)
  /-- PFC_PAUSE_EXPIRY (R169): A received pause time runs out, so the class may transmit again. -/
  | pfcPauseExpiry (lport : Fin 2048) (cls : Fin 8)
  /-- HELD_FRAME_ADMIT (R173): A hold-class frame waiting for treads on the egress die is admitted once room appears. -/
  | heldFrameAdmit (src : Fin 4) (dst : Fin 4)
  /-- FRAME_TRANSMIT (R204): The sub-port's scheduler picks a frame and S7 rewrites and sends it. -/
  | frameTransmit (lport : Fin 2048) (find : TxFind)
  /-- MC_RESIDENCY_EXPIRY (R175): A hold-class multicast copy not started in residency_us is discarded. -/
  | mcResidencyExpiry (lport : Fin 2048) (cls : Fin 8)
  /-- HELLO_SEND (R135): Every 1 ms, and within 100 µs of UP, a HELLO is sent on a sub-port. -/
  | helloSend (lport : Fin 2048)
  /-- NEIGHBOUR_LIVENESS_TIMEOUT (R135): 5 ms pass without a two-way HELLO, so the two-way neighbour is lost and the sub-port leaves
  service. -/
  | neighbourLivenessTimeout (lport : Fin 2048) (silent : Bool)
  /-- LLDP_SEND (R138): Every 30 s, and within 1 s of UP, an LLDPDU is sent. -/
  | lldpSend (lport : Fin 2048)
  /-- DISCOVERY_COMPARE (R410): Firmware compares a new two-way neighbour with the plan record, giving ACCEPTED or HELD. -/
  | discoveryCompare (lport : Fin 2048)
  /-- LEARN_APPLY (R146): A queued learn action is applied on the home die and then in the other copies. -/
  | learnApply (die : Fin 4) (ecc : Bool)
  /-- AGING_SWEEP (R149): Every interval_ms, the endpoint table and foyer are swept for stale entries. -/
  | agingSweep
  /-- LPM_SCRUB (R153): Every period_ms, LPM entries are checked against their shadow copies. -/
  | lpmScrub (die : Fin 4) (bad : List (Nat × Bool))
  /-- ESCAPE_REEVALUATE (R193): Each cycle, an eligible frame at S5 takes an open member or a ring queue with room. -/
  | escapeReevaluate (die : Fin 4)
  /-- ESCAPE_TIMER (R193): A frame in a job-slot queue waits escape_us and becomes eligible for escape. -/
  | escapeTimer (lport : Fin 2048) (cls : Fin 8)
  /-- BANISTER_CONTINUE (R192): A ring frame waiting in its arrival treads continues once its ring queue has 36 treads free. -/
  | banisterContinue (lport : Fin 2048) (cls : Fin 8)
  /-- RING_WAIT_ALARM (R202): An eligible frame waits 100 µs for a ring queue, so ring_wait is set. -/
  | ringWaitAlarm (die : Fin 4)
  /-- SPRAY_DECAY (R184): Every decay_ns, the recent assignments A_i are halved. -/
  | sprayDecay (die : Fin 4)
  /-- TOKEN_BUCKET_UPDATE (R207): Every 80 ns, rate × 80 ns is added to each token bucket. -/
  | tokenBucketUpdate
  /-- GATE_ENTRY_CHANGE (R211): A gate-list entry interval or cycle ends and the next gate states apply. -/
  | gateEntryChange (port : Fin 512)
  /-- GATE_CHANGE_REQUEST (R213): The admin gate list is checked and a change time is fixed, or the change is refused. -/
  | gateChangeRequest (who : Fin 64) (port : Fin 512)
  /-- GATE_CHANGE_CANCEL (R213): A pending gate change is cleared. -/
  | gateChangeCancel (who : Fin 64) (port : Fin 512)
  /-- GATE_CHANGE_TIME (R213): At the change time, the admin list becomes operational. -/
  | gateChangeTime (port : Fin 512)
  /-- QUEUE_SAMPLE (R216): Every sample_us, queues are sampled and records are written to telemetry, or the sample is skipped. -/
  | queueSample (die : Fin 4) (late : Bool)
  /-- ACTIVATION_START (R315): A landing event waiting for a free context starts a flight activation. -/
  | activationStart (core : Fin 32)
  /-- FLIGHT_NOP (R322): The NOP instruction does nothing. -/
  | flightNop (core : Fin 32) (ctx : Fin 4)
  /-- END (R322): END waits for outstanding operations and ends the activation. -/
  | flightEnd (core : Fin 32) (ctx : Fin 4)
  /-- SYNC (R322): SYNC waits for the activation's outstanding operations. -/
  | sync (core : Fin 32) (ctx : Fin 4)
  /-- LI (R322): LI loads a sign-extended immediate into a scalar register. -/
  | li (core : Fin 32) (ctx : Fin 4)
  /-- LSI (R322): LSI shifts a register left by 16 and ORs in an immediate. -/
  | lsi (core : Fin 32) (ctx : Fin 4)
  /-- ADDI (R322): ADDI adds a sign-extended immediate. -/
  | addi (core : Fin 32) (ctx : Fin 4)
  /-- SHLI (R322): SHLI performs a logical shift left by an immediate. -/
  | shli (core : Fin 32) (ctx : Fin 4)
  /-- SHRI (R322): SHRI performs a logical shift right by an immediate. -/
  | shri (core : Fin 32) (ctx : Fin 4)
  /-- ALU (R322): ALU performs the scalar operation selected by fn. -/
  | alu (core : Fin 32) (ctx : Fin 4)
  /-- FLD (R322): FLD extracts a bit field, zero-extended. -/
  | fld (core : Fin 32) (ctx : Fin 4)
  /-- FINS (R322): FINS inserts low bits into a field. -/
  | fins (core : Fin 32) (ctx : Fin 4)
  /-- LDW (R322): LDW loads a quadword from the landing window. -/
  | ldw (core : Fin 32) (ctx : Fin 4) (find : Find)
  /-- STW (R322): STW stores a quadword to the landing window. -/
  | stw (core : Fin 32) (ctx : Fin 4)
  /-- BEQ (R322): BEQ branches if two registers are equal. -/
  | beq (core : Fin 32) (ctx : Fin 4)
  /-- BNE (R322): BNE branches if two registers differ. -/
  | bne (core : Fin 32) (ctx : Fin 4)
  /-- BLTU (R322): BLTU branches if one register is below the other, unsigned. -/
  | bltu (core : Fin 32) (ctx : Fin 4)
  /-- BGEU (R322): BGEU branches if one register is at or above the other, unsigned. -/
  | bgeu (core : Fin 32) (ctx : Fin 4)
  /-- BEQI (R322): BEQI branches if a register equals an 8-bit immediate. -/
  | beqi (core : Fin 32) (ctx : Fin 4)
  /-- BNEI (R322): BNEI branches if a register differs from an 8-bit immediate. -/
  | bnei (core : Fin 32) (ctx : Fin 4)
  /-- JMP (R322): JMP branches always. -/
  | jmp (core : Fin 32) (ctx : Fin 4)
  /-- SPCFG (R320): SPCFG configures a stream port from a descriptor. -/
  | spcfg (core : Fin 32) (ctx : Fin 4)
  /-- TDEF (R321): TDEF binds a tile handle to a tile descriptor. -/
  | tdef (core : Fin 32) (ctx : Fin 4)
  /-- VLD (R322): VLD reads 1,024 elements from a stream into a vector register. -/
  | vld (core : Fin 32) (ctx : Fin 4) (find : Find)
  /-- VST (R322): VST writes 1,024 lanes of a vector register to a stream. -/
  | vst (core : Fin 32) (ctx : Fin 4)
  /-- VBIN (R323): VBIN performs an elementwise vector operation over rn elements. -/
  | vbin (core : Fin 32) (ctx : Fin 4) (find : Find)
  /-- VCVT (R324): VCVT converts and rounds rn elements at a rounding site. -/
  | vcvt (core : Fin 32) (ctx : Fin 4) (find : Find)
  /-- VQUANT (R324): VQUANT quantises FP32 elements to MX blocks and writes the residual. -/
  | vquant (core : Fin 32) (ctx : Fin 4) (find : Find)
  /-- XADD (R325): XADD adds elements, WP partials or accumulator words into exact accumulators. -/
  | xadd (core : Fin 32) (ctx : Fin 4) (find : Find) (eng : Fin 2)
  /-- XROUND (R325): XROUND rounds accumulators to the result, FP32 or WP format. -/
  | xround (core : Fin 32) (ctx : Fin 4) (find : Find) (eng : Fin 2)
  /-- PASS (R326): PASS issues a matrix pass to the core's array queue. -/
  | pass (core : Fin 32) (ctx : Fin 4)
  /-- FSEND (R327): FSEND sends the sp7 bytes as a partial or result frame with filled headers. -/
  | fsend (core : Fin 32) (ctx : Fin 4)
  /-- ARRAY_PASS_START (R304): At a pass boundary with a free bank, the next queued pass starts streaming. -/
  | arrayPassStart (core : Fin 32) (find : Find)
  /-- ARRAY_DRAIN (R301): After a pass's last stream cycle, its bank drains the output tile to its destinations. -/
  | arrayDrain (core : Fin 32) (find : Find)
  /-- FILLER_PASS (R308): During a gap, the array runs a filler pass and checks its tile CRC. -/
  | fillerPass (core : Fin 32) (result : FillerEnd)
  /-- DUTY_RAMP (R309): The array duty steps down or up every 62.5 ns along the current ramp. -/
  | dutyRamp (core : Fin 32)
  /-- XSE_INJECT (R262): A write of XSE_INJECT.arm arms a one-time residue fault on an exact-sum unit. -/
  | xseInject (who : Fin 64) (core : Fin 32) (value : BitVec 64)
  /-- ARR_INJECT (R262): A write of ARR_INJECT.arm arms a one-time residue fault on an array cell unit. -/
  | arrInject (who : Fin 64) (core : Fin 32) (value : BitVec 64)
  /-- VEC_INJECT (R262): A write of VEC_INJECT.arm arms a one-time residue fault on a vector lane unit. -/
  | vecInject (who : Fin 64) (core : Fin 32) (value : BitVec 64)
  /-- HALL_STAGE_COMPLETE (R272): A head's local counts and merges are complete, so the HALL event is raised and the partial is sent.
  -/
  | hallStageComplete (key : Machine.Key)
  /-- DIE_LANDING_MERGE (R272): A die landing's accumulators reach the head and are merged, and the die landing is freed. -/
  | dieLandingMerge (key : Machine.Key) (die : Fin 4)
  /-- LANDING_EMIT (R283): All fragments are in, so the head rounds and writes RESULT copies to local members. -/
  | landingEmit (key : Machine.Key)
  /-- LANDING_TIMER_CHECK (R282): Every 10 µs, entry timers are checked and expired entries complete INCOMPLETE. -/
  | landingTimerCheck (die : Fin 4)
  /-- TOMBSTONE_EXPIRY (R269): A tombstone's lifetime ends and the directory entry is freed. -/
  | tombstoneExpiry (die : Fin 4)
  /-- RESIDUAL_AREA_HOLD (R345): A waiting head takes its residual area once the area reaches its step, and the copy to staging starts.
  -/
  | residualAreaHold (key : Machine.Key)
  /-- RESIDUAL_COPY_DONE (R345): The residual bank is in the staging slot, so the HALL event is raised. -/
  | residualCopyDone (key : Machine.Key) (find : ReadFind)
  /-- RESIDUAL_WRITE_BACK (R345): After HALL ends, the staging slot is written back and the area advances and is released. -/
  | residualWriteBack (key : Machine.Key)
  /-- DRAM_REFRESH (R351): The device refreshes the bonded DRAM, doubling the rate above 85 °C. -/
  | dramRefresh (die : Fin 4) (temp : BitVec 16)
  /-- DRAM_SCRUB (R355): The bonded DRAM scrubber reads and corrects blocks over each period_h. -/
  | dramScrub (die : Fin 4) (finds : List MemFind)
  /-- LPDDR6_REFRESH (R357): The controller issues per-bank refresh at the derated rate. -/
  | lpddr6Refresh (device : Fin 12)
  /-- LPDDR6_TEMP_READ (R357): Every 16 ms the device temperature is read and refresh is derated, possibly triggering retraining. -/
  | lpddr6TempRead (device : Fin 12) (temp : BitVec 16) (mult : BitVec 2) (ok : Bool) (us : BitVec 16)
  /-- LPDDR6_RETRAIN (R361): Every retrain_ms, a channel's data eye is retrained. -/
  | lpddr6Retrain (device : Fin 12) (ok : Bool) (us : BitVec 16)
  /-- LPDDR6_SCRUB (R362): The LPDDR6 scrubber reads each device once per period_h. -/
  | lpddr6Scrub (device : Fin 12) (finds : List MemFind)
  /-- SRAM_SCRUB (R433): Every 10 s, each SRAM is scrubbed in idle cycles. -/
  | sramScrub (die : Fin 4) (finds : List MemFind)
  /-- TIM_SET (R369): TIM_SET_CTRL SET loads a counter from TIM_SET_SEC and TIM_SET_NS as a step. -/
  | timSet (who : Fin 64) (counter : Fin 2)
  /-- TIM_ADD (R369): TIM_SET_CTRL ADD adds or subtracts TIM_SET_NS as a step. -/
  | timAdd (who : Fin 64) (counter : Fin 2)
  /-- TIM_OFFSET_WRITE (R374): An offset write feeds the domain servo, stepping, slewing or locking it, or is monitored only. -/
  | timOffsetWrite (who : Fin 64) (domain : Fin 2) (offset : BitVec 64)
  /-- DOMAIN_MODE_WRITE (R374): A TIM_CFG mode write sets a domain's mode and puts it in ACQUIRE. -/
  | domainModeWrite (who : Fin 64) (domain : Fin 2) (mode : BitVec 2)
  /-- LIVENESS_CHECK (R375): Every 1 µs, domain liveness is checked, giving LOST or LOCKED and moving the T0 source. -/
  | livenessCheck
  /-- T1_FOLLOW_FEED (R376): In FOLLOW_T1, every 1 µs the servo is fed T0 − T1. -/
  | t1FollowFeed
  /-- GPTP_SYNC_SEND (R372): Firmware sends two-step Sync and the other 802.1AS messages on their intervals. -/
  | gptpSyncSend (lport : Fin 2048) (message : List Byte)
  /-- TXQ_POP (R373): A write of TIM_TXQ_SEL.pop removes the head TX stamp entry. -/
  | txqPop (who : Fin 64) (die : Fin 4)
  /-- PPS_OUT_RISE (R379): T0 crosses a whole second plus offset_ns, so PPS_OUT rises. -/
  | ppsOutRise
  /-- PPS_OUT_FALL (R379): After width_ns, PPS_OUT falls. -/
  | ppsOutFall
  /-- THROTTLE_PERIOD (R391): Every period_us, P is compared with the cap and one more throttle notch may be applied. -/
  | throttlePeriod (watts : BitVec 16) (current : BitVec 12) (vin : BitVec 10)
  /-- THROTTLE_RELEASE (R391): After 100 µs below the hysteresis, one throttle notch is removed. -/
  | throttleRelease (watts : BitVec 16)
  /-- CAP_EXCEEDED (R391): P stays above the cap with every step at its floor for fault_ms, so cap_exceeded and FAULT_N are set. -/
  | capExceeded (watts : BitVec 16)
  /-- THERMAL_SENSOR_READ (R393): Every 100 µs, die sensors are read and threshold actions taken. -/
  | thermalSensorRead (die : Fin 4) (hot : BitVec 16) (engines : List (BitVec 16)) (stage : BitVec 10) (watts : BitVec 16)
  /-- THERMAL_NOTCH (R394): Every 100 µs above warn_c, a die applies, or later removes, a thermal notch. -/
  | thermalNotch (die : Fin 4)
  /-- THERM_N_RELEASE (R393): Readings stay 5 °C below threshold for 1 s, so THERM_N returns high. -/
  | thermNRelease
  /-- CLUSTER_GATE (R388): A gate_mask bit set to 1 begins taking a cluster out of service. -/
  | clusterGate (who : Fin 64) (die : Fin 4) (cluster : Fin 4)
  /-- CLUSTER_GATE_COMPLETE (R388): The cluster's landings are free and the pass boundary is reached, so VCMB is removed. -/
  | clusterGateComplete (die : Fin 4) (cluster : Fin 4)
  /-- CLUSTER_UNGATE (R388): A gate_mask bit cleared returns the cluster to service. -/
  | clusterUngate (who : Fin 64) (die : Fin 4) (cluster : Fin 4)
  /-- DIE_STANDBY_ENTER (R389): standby_req puts die 1, 2 or 3 into standby, or is ignored on die 0. -/
  | dieStandbyEnter (who : Fin 64) (die : Fin 4)
  /-- DIE_STANDBY_EXIT (R389): The die leaves standby and reloads its table copies from die 0. -/
  | dieStandbyExit (who : Fin 64) (die : Fin 4) (trained : List Bool)
  /-- PACKAGE_STANDBY_ENTER (R390): PWR_PKG_CTRL.standby_req puts the package into standby. -/
  | packageStandbyEnter (who : Fin 64)
  /-- PACKAGE_STANDBY_EXIT (R390): The package leaves standby, restarting engines from step 3. -/
  | packageStandbyExit (who : Fin 64) (trained : List Bool)
  /-- GRP_REPL_LOAD (R291): GRP_REPL_SEL op 1 loads GRP_REPL_MAP from a replication set. -/
  | grpReplLoad (who : Fin 64) (die : Fin 4) (set : Fin 16384)
  /-- GRP_REPL_STORE (R291): GRP_REPL_SEL op 2 stores GRP_REPL_MAP into this die's replication set. -/
  | grpReplStore (who : Fin 64) (die : Fin 4) (set : Fin 16384)
  /-- QUOTE_REQUEST (R424): SEC_QUOTE_CTRL.request writes a signed attestation quote to staging. -/
  | quoteRequest (who : Fin 64) (offset : BitVec 26)
  /-- ERROR_CORRELATION (R441): Firmware reads new error records and applies the retirement rules. -/
  | errorCorrelation
  /-- RETIRE_WRITE (R443): A write of CTL_RETIRE.retired retires a core or returns it to service. -/
  | retireWrite (who : Fin 64) (retired : BitVec 32)
  /-- HEALTH_EVALUATION (R446): Every second, firmware scores port health and sets health factors and quarantine. -/
  | healthEvaluation
  /-- COUNTER_SWEEP (R457): Every interval_us, the central reader sweeps the page counters into counter records. -/
  | counterSweep
  /-- SWEEP_ONCE (R464): CTR_SWEEP_CTRL.once starts one sweep if none runs. -/
  | sweepOnce (who : Fin 64)
  /-- SYSCLK_RETURN (R45): SYSCLK comes back within tolerance after a loss, which sets CLK_REF_STATUS.sysclk_lost and sysclk_present.
  -/
  | sysclkReturn
  /-- ROCEV2_ACK_RECEIVE (R49): An ACK, NAK or RNR NAK from a host answers the device's requester RDMA WRITE or SEND of completions,
  events or notifications. -/
  | rocev2AckReceive (m : Fin 4) (qp : Fin 64) (answer : Machine.RoceAnswer) (via : Machine.Via)
  /-- NEIGHBOR_DISCOVERY (R47): A management port receives an IPv6 Neighbor Discovery message for its own address and answers it. -/
  | neighborDiscovery (m : Fin 4) (target : Nat) (via : Machine.Via)
  /-- BYPASS_TEMPERATURE_WAIT_EXPIRY (R102): An engine stays at or above 85.0 °C for the 1 s that check 5 of BYPASS_ENABLE allows, so
  the command completes with outcome 2 and nothing is switched. -/
  | bypassTemperatureWaitExpiry (engine : Fin 16)
  deriving DecidableEq, Repr

end Sys2Proof
end

