-- ==== Sys2Proof/Machine/Bits.lean ====
section
/-! DEFINITION. Bit fields, byte orders and the checksums the spec names: R6 and R7 (bit and byte order), R112 (Ethernet
FCS), R115 and R117 (one's-complement checksum arithmetic), R127 (CRC-32C), R235 (mix64). -/

namespace Sys2Proof.Machine

/-- The field of `w` bits of `n` whose least significant bit is bit `lo` (R6). -/
def bits (n lo w : Nat) : Nat := n / 2 ^ lo % 2 ^ w

/-- Bit `i` of `n`. -/
def bit (n i : Nat) : Bool := n.testBit i

/-- `n` with the field of `w` bits at `lo` replaced by `v` modulo `2^w`. -/
def setBits (n lo w v : Nat) : Nat :=
  n % 2 ^ lo + (v % 2 ^ w) * 2 ^ lo + (n / 2 ^ (lo + w)) * 2 ^ (lo + w)

/-- `n` with bit `i` set or cleared. -/
def setBit (n i : Nat) (b : Bool) : Nat := setBits n i 1 b.toNat

/-- 1 for true, 0 for false. -/
def b2n (b : Bool) : Nat := if b then 1 else 0

/-- The number of ones among the low `w` bits of `n`. -/
def popCount (w n : Nat) : Nat := (List.range w).foldl (fun a i => a + b2n (n.testBit i)) 0

/-- The value of a byte list read most significant byte first (R7, network order). -/
def beNat (l : List Byte) : Nat := l.foldl (fun a b => a * 256 + b.toNat) 0

/-- The value of a byte list read least significant byte first (R7, little-endian). -/
def leNat : List Byte → Nat
  | [] => 0
  | b :: l => b.toNat + 256 * leNat l

/-- The `k` low bytes of `n`, least significant first. -/
def natLe : Nat → Nat → List Byte
  | 0, _ => []
  | k + 1, n => byte n :: natLe k (n / 256)

/-- The `k` low bytes of `n`, most significant first. -/
def natBe (k n : Nat) : List Byte := (natLe k n).reverse

/-- `k` zero bytes. -/
def zeros (k : Nat) : List Byte := List.replicate k 0

/-- The `k` bytes of `l` from position `i`, with zeros past its end. -/
def slice (l : List Byte) (i k : Nat) : List Byte :=
  let m := (l.drop i).take k
  m ++ zeros (k - m.length)

/-- `l` with the bytes `v` written over it from position `i` (positions past the end of `l` stay unwritten). -/
def patch : List Byte → Nat → List Byte → List Byte
  | [], _, _ => []
  | b :: l, i + 1, v => b :: patch l i v
  | b :: l, 0, [] => b :: l
  | _ :: l, 0, x :: v => x :: patch l 0 v

/-- Big-endian field of `k` bytes at position `i`. -/
def beAt (l : List Byte) (i k : Nat) : Nat := beNat (slice l i k)

/-- Little-endian field of `k` bytes at position `i`. -/
def leAt (l : List Byte) (i k : Nat) : Nat := leNat (slice l i k)

/-- A reflected CRC over a byte list: `k` single-bit steps of the polynomial `poly` (bit-reversed form). -/
def crcBits (poly : Nat) : Nat → Nat → Nat
  | 0, c => c
  | k + 1, c => crcBits poly k (if c % 2 = 1 then Nat.xor (c / 2) poly else c / 2)

/-- The register of a reflected CRC after the bytes `l`. -/
def crcRun (poly : Nat) (c : Nat) (l : List Byte) : Nat :=
  l.foldl (fun c b => crcBits poly 8 (Nat.xor c b.toNat)) c

/-- CRC-32C over `l`: polynomial 0x1EDC6F41 reflected, initial value and final inversion all ones (R127, R142). -/
def crc32c (l : List Byte) : Nat := Nat.xor (crcRun 0x82F63B78 0xFFFFFFFF l) 0xFFFFFFFF

/-- The Ethernet FCS of IEEE Std 802.3 over `l` (PRESUMED from the standard R112 names): CRC-32, polynomial 0x04C11DB7
reflected, initial value and final inversion all ones. -/
def crc32 (l : List Byte) : Nat := Nat.xor (crcRun 0xEDB88320 0xFFFFFFFF l) 0xFFFFFFFF

/-- One's-complement folding of a sum to 16 bits. -/
def fold16 (n : Nat) : Nat :=
  let a := n % 65536 + n / 65536
  let b := a % 65536 + a / 65536
  b % 65536 + b / 65536

/-- The one's-complement sum of the 16-bit big-endian words of `l`, an odd last byte padded with zero. -/
def sum16 : List Byte → Nat
  | [] => 0
  | [a] => a.toNat * 256
  | a :: b :: l => a.toNat * 256 + b.toNat + sum16 l

/-- Addition modulo 2^64. -/
def add64 (a b : Nat) : Nat := (a + b) % 2 ^ 64

/-- Subtraction modulo 2^64. -/
def sub64 (a b : Nat) : Nat := (a % 2 ^ 64 + 2 ^ 64 - b % 2 ^ 64) % 2 ^ 64

/-- Subtraction modulo 2^32. -/
def sub32 (a b : Nat) : Nat := (a % 2 ^ 32 + 2 ^ 32 - b % 2 ^ 32) % 2 ^ 32

/-- The two's-complement value of the low `w` bits of `n`. -/
def sgn (w n : Nat) : Int :=
  let v := n % 2 ^ w
  if 2 ^ (w - 1) ≤ v then (v : Int) - 2 ^ w else v

/-- The low `w` bits of the two's-complement form of `z`. -/
def unsgn (w : Nat) (z : Int) : Nat := (z % 2 ^ w).toNat

/-- Ceiling division. -/
def cdiv (a b : Nat) : Nat := (a + b - 1) / b

end Sys2Proof.Machine
end

