-- ==== Sys2Proof/Machine/Digest.lean ====
section
/-! DEFINITION. The SM3 digest of GB/T 32905 (R418; the algorithm is PRESUMED from the standard the spec names,
notes/assumptions/5.md). -/

namespace Sys2Proof.Machine

/-- Rotation of a 32-bit word left by `k`. -/
def rotl (x k : Nat) : Nat := (x * 2 ^ (k % 32) + x / 2 ^ (32 - k % 32)) % 2 ^ 32

/-- Permutation P0. -/
def sm3P0 (x : Nat) : Nat := Nat.xor x (Nat.xor (rotl x 9) (rotl x 17))

/-- Permutation P1. -/
def sm3P1 (x : Nat) : Nat := Nat.xor x (Nat.xor (rotl x 15) (rotl x 23))

/-- Complement of a 32-bit word. -/
def not32 (x : Nat) : Nat := 2 ^ 32 - 1 - x % 2 ^ 32

/-- Message expansion: words W16 to W67 appended to the sixteen words of a block. -/
def sm3Expand : Nat → List Nat → List Nat
  | 0, w => w
  | k + 1, w =>
    let j := w.length
    let x := Nat.xor (w.getD (j - 16) 0) (Nat.xor (w.getD (j - 9) 0) (rotl (w.getD (j - 3) 0) 15))
    sm3Expand k (w ++ [Nat.xor (sm3P1 x) (Nat.xor (rotl (w.getD (j - 13) 0) 7) (w.getD (j - 6) 0))])

/-- The eight chaining words. -/
structure Sm3 where
  a : Nat
  b : Nat
  c : Nat
  d : Nat
  e : Nat
  f : Nat
  g : Nat
  h : Nat
  deriving DecidableEq, Repr

/-- Initial value. -/
def sm3Iv : Sm3 :=
  ⟨0x7380166F, 0x4914B2B9, 0x172442D7, 0xDA8A0600, 0xA96F30BC, 0x163138AA, 0xE38DEE4D, 0xB0FB0E4E⟩

/-- One round. -/
def sm3Round (w : List Nat) (j : Nat) (v : Sm3) : Sm3 :=
  let t := if j < 16 then 0x79CC4519 else 0x7A879D8A
  let ss1 := rotl ((rotl v.a 12 + v.e + rotl t j) % 2 ^ 32) 7
  let ss2 := Nat.xor ss1 (rotl v.a 12)
  let ff := if j < 16 then Nat.xor v.a (Nat.xor v.b v.c)
    else Nat.lor (Nat.land v.a v.b) (Nat.lor (Nat.land v.a v.c) (Nat.land v.b v.c))
  let gg := if j < 16 then Nat.xor v.e (Nat.xor v.f v.g) else Nat.lor (Nat.land v.e v.f) (Nat.land (not32 v.e) v.g)
  let tt1 := (ff + v.d + ss2 + Nat.xor (w.getD j 0) (w.getD (j + 4) 0)) % 2 ^ 32
  let tt2 := (gg + v.h + ss1 + w.getD j 0) % 2 ^ 32
  ⟨tt1, v.a, rotl v.b 9, v.c, sm3P0 tt2, v.e, rotl v.f 19, v.g⟩

/-- Compression of one 64-byte block. -/
def sm3Block (v : Sm3) (blk : List Byte) : Sm3 :=
  let w := sm3Expand 52 ((List.range 16).map fun i => beAt blk (4 * i) 4)
  let r := (List.range 64).foldl (fun v j => sm3Round w j v) v
  ⟨Nat.xor v.a r.a, Nat.xor v.b r.b, Nat.xor v.c r.c, Nat.xor v.d r.d, Nat.xor v.e r.e, Nat.xor v.f r.f,
   Nat.xor v.g r.g, Nat.xor v.h r.h⟩

/-- Compression of `n` successive blocks. -/
def sm3Run : Nat → Sm3 → List Byte → Sm3
  | 0, v, _ => v
  | n + 1, v, l => sm3Run n (sm3Block v (l.take 64)) (l.drop 64)

/-- SM3 digest of a byte list, as the number its 32 bytes spell in network byte order. -/
def sm3 (l : List Byte) : Nat :=
  let n := l.length
  let padded := l ++ [0x80] ++ zeros ((119 - n % 64) % 64) ++ natBe 8 (8 * n)
  let v := sm3Run (padded.length / 64) sm3Iv padded
  [v.a, v.b, v.c, v.d, v.e, v.f, v.g, v.h].foldl (fun acc x => acc * 2 ^ 32 + x) 0

/-- The 32 bytes of a digest. -/
def digestBytes (d : Nat) : List Byte := natBe 32 d

end Sys2Proof.Machine
end

