-- ==== Sys2Proof/Config.lean ====
section
/-! DEFINITION. What the spec leaves open, as constants with no body: free values, per-device data and the results of
signing with the device's own key. Nothing in Lean can evaluate one or prove a value of one. -/

namespace Sys2Proof.Config

/-- A free value: 64 bits that nothing constrains, fresh for each count of `State.freeCtr`
(notes/assumptions/3.md). -/
opaque freeBits : Nat → BitVec 64

/-- CTL_PKG_SERIAL, per device (R73). -/
opaque packageSerial : BitVec 64

/-- The MACs that M0 to M3 take from CTL_PKG_SERIAL without a configuration image, by port: the spec does not say how they are formed (R405,
notes/assumptions/11.md). -/
opaque serialMac : Nat → BitVec 48

/-- The identity public key read in SEC_ID_PUB, per device: x then y (R418, R422, R432). -/
opaque identityKey : BitVec 512

/-- SM2 signature by the device's identity key over a digest: the private key and the random number in each are the device's own (R418,
R422). -/
opaque sm2Sign : BitVec 256 → BitVec 512

/-- The ROM version word that measurement M0 is extended with (R423); the spec gives no value. -/
opaque romVersion : BitVec 32

/-- What a NaN is written as in a format without a NaN code, which the spec does not state, by format code
(notes/assumptions/21.md). -/
opaque nanWithoutCode : Nat → BitVec 64

/-- Draw index of the element in a row and a column of the tile that a CONVERT drain writes, and the hall field of its draw by plan hall:
R301 names site 3 and the spec gives neither (R235, R236, notes/assumptions/62.md). -/
opaque drainIndex : Nat → Nat → BitVec 24
opaque drainHall : Nat → BitVec 6

/-- Credits of a mesh credit pool beyond the first, by pool (R36, R46); the spec gives no number (notes/assumptions/53.md). -/
opaque meshCredits : Nat → BitVec 15

end Sys2Proof.Config
end

