-- ==== Sys2Proof/Machine/Frames.lean ====
section
/-! DEFINITION. Frames byte by byte: Ethernet, IPv6 and UDP (R111 to R118), the HJT header and trailer (R119 to R128), the
checks of R131, fabric endpoint addresses (R22, R23), and the frames' constructors. A stored frame carries neither tag nor
FCS: both are the wire's. -/

namespace Sys2Proof.Machine

/-! ### Fabric endpoint addresses (R22, R23) -/

def feaHall (f : Nat) : Nat := bits f 26 6
def feaRail (f : Nat) : Nat := bits f 24 2
def feaLeaf (f : Nat) : Nat := bits f 14 10
/-- Leaf port; the spine index of a spine address. -/
def feaPort (f : Nat) : Nat := bits f 8 6
/-- Function; the service of a spine address. -/
def feaFn (f : Nat) : Nat := bits f 0 8

/-- The FEA of a hall spine's service (R23). -/
def spineFea (hall rail idx svc : Nat) : Nat := hall * 2 ^ 26 + rail * 2 ^ 24 + 0x3FF * 2 ^ 14 + idx * 2 ^ 8 + svc

/-! ### Ethernet -/

/-- Nearest-bridge group address, used by LLDP. -/
def macLldp : Nat := 0x0180C200000E
/-- Address of PFC and of every MAC control frame. -/
def macPfc : Nat := 0x0180C2000001
/-- Address of HELLO. -/
def macHello : Nat := 0x333300000001

/-- EtherType of a frame as received, before any tag is removed. -/
def rawEtype (b : List Byte) : Nat := beAt b 12 2

/-- The frame carries an IEEE 802.1Q tag. -/
def tagged (b : List Byte) : Bool := rawEtype b == 0x8100

/-- A received frame without its tag and FCS. -/
def unwire (b : List Byte) : List Byte :=
  let c := b.take (b.length - 4)
  if tagged b then c.take 12 ++ c.drop 16 else c

/-- Tag handling of R111: a VID other than 0, or more than one tag, is refused. A second tag shows as EtherType 0x8100 or
0x88A8 inside the first, and an outer 0x88A8 is not an IEEE 802.1Q tag of R111. -/
def badTag (b : List Byte) : Bool :=
  tagged b && (beAt b 14 2 % 4096 != 0 || beAt b 16 2 == 0x8100 || beAt b 16 2 == 0x88A8)

def ethDst (u : List Byte) : Nat := beAt u 0 6
def ethSrc (u : List Byte) : Nat := beAt u 6 6
def etype (u : List Byte) : Nat := beAt u 12 2

/-- Ethernet header. -/
def ethHdr (dst src et : Nat) : List Byte := natBe 6 dst ++ natBe 6 src ++ natBe 2 et

/-- A frame as it leaves: padded to 60 bytes, then the FCS, least significant byte first. -/
def wire (u : List Byte) : List Byte :=
  let c := u ++ zeros (60 - u.length)
  c ++ natLe 4 (crc32 c)

/-- The FCS of a received frame holds. -/
def fcsOk (b : List Byte) : Bool :=
  decide (4 ≤ b.length) && decide (leNat (b.drop (b.length - 4)) = crc32 (b.take (b.length - 4)))

/-! ### IPv6 and UDP, at fixed places of an untagged frame -/

def ipVersion (u : List Byte) : Nat := beAt u 14 1 / 16
def ipDscp (u : List Byte) : Nat := bits (beAt u 14 2) 6 6
def ipLen (u : List Byte) : Nat := beAt u 18 2
def ipNext (u : List Byte) : Nat := beAt u 20 1
def ipHop (u : List Byte) : Nat := beAt u 21 1
def ipSrc (u : List Byte) : Nat := beAt u 22 16
def ipDst (u : List Byte) : Nat := beAt u 38 16
def udpSrc (u : List Byte) : Nat := beAt u 54 2
def udpDst (u : List Byte) : Nat := beAt u 56 2
def udpLen (u : List Byte) : Nat := beAt u 58 2
def udpSum (u : List Byte) : Nat := beAt u 60 2

/-- ff02::1. -/
def allNodes : Nat := 0xFF02 * 2 ^ 112 + 1
/-- ff02::6b, the address of time messages (R371). -/
def ptpGroup : Nat := 0xFF02 * 2 ^ 112 + 0x6B

/-- Version and Payload Length agree with the length `n` of a received frame (R115). -/
def ipOk (b : List Byte) : Bool :=
  let u := unwire b
  let need := (if tagged b then 62 else 58) + ipLen u
  ipVersion u == 6 && decide (54 ≤ u.length) && (b.length == need || (b.length == 64 && decide (need < 64)))

/-- A frame without Ethernet padding. -/
def trimIp (u : List Byte) : List Byte := u.take (54 + ipLen u)

/-- A received frame as the checks read it: no tag, no FCS, and in IPv6 no padding (R115). -/
def parsed (b : List Byte) : List Byte :=
  let u := unwire b
  if etype u = 0x86DD then trimIp u else u

/-- The 16-bit word at `off` rewritten, with the UDP checksum updated incrementally unless it is zero (R117, RFC 1624). -/
def setWord (u : List Byte) (off v : Nat) : List Byte :=
  let old := beAt u off 2
  let c := udpSum u
  let w := patch u off (natBe 2 v)
  if c = 0 then w
  else
    let d := 65535 - fold16 ((65535 - c) + (65535 - old) + v)
    patch w 60 (natBe 2 (if d = 0 then 0xFFFF else d))

/-- The IPv6 destination's low 32 bits rewritten. -/
def setDstFea (u : List Byte) (fea : Nat) : List Byte := setWord (setWord u 50 (fea / 65536)) 52 (fea % 65536)

/-- An IPv6 frame the device originates: Ethernet fields are written at S7; traffic class from its class, ECN 0 (R118). -/
def ipFrame (dst src cls hop : Nat) (next : Nat) (pl : List Byte) : List Byte :=
  ethHdr 0 0 0x86DD ++ natBe 4 (6 * 2 ^ 28 + cls * 8 * 2 ^ 22) ++ natBe 2 pl.length ++ [byte next, byte hop]
    ++ natBe 16 src ++ natBe 16 dst ++ pl

/-- UDP header with checksum 0 (R117). -/
def udpHdr (port n : Nat) : List Byte := natBe 2 port ++ natBe 2 port ++ natBe 2 (8 + n) ++ [0, 0]

/-! ### The HJT header (R119) -/

/-- The fields of an HJT header that the device reads or writes. -/
structure Hjt where
  type : Nat
  flags : Nat
  hop : Nat
  repro : Nat
  mode : Nat
  job : Nat
  group : Nat
  step : Nat
  chunk : Nat
  member : Nat
  format : Nat
  op : Nat
  mx : Bool
  len : Nat
  seq : Nat
  remote : Nat
  check : Nat
  code : Nat
  deriving DecidableEq, Repr

/-- A header with every field zero but the type. -/
def Hjt.zero (t : Nat) : Hjt := ⟨t, 0, 0, 0, 0, 0, 0, 0, 0, 0, 0, 0, false, 0, 0, 0, 0, 0⟩

/-- The 48 bytes of a header (R119). -/
def Hjt.encode (h : Hjt) : List Byte :=
  [byte (16 + h.type), byte (h.flags % 32 * 8), byte (h.hop % 16 * 16 + h.repro % 4 * 4), byte (h.mode % 8 * 32)]
    ++ natBe 2 h.job ++ natBe 2 h.group ++ natBe 2 h.step ++ natBe 4 h.chunk
    ++ natBe 3 (h.member % 2 ^ 20 * 16 + h.format % 16) ++ [byte (h.op % 16 * 16 + b2n h.mx * 8)]
    ++ natBe 2 (h.len % 2 ^ 14 * 4) ++ natBe 4 h.seq ++ natBe 8 h.remote ++ natBe 8 h.check ++ natBe 2 h.code ++ zeros 6

/-- Header byte fields of an untagged frame: `k` bytes at header byte `i`. -/
def hjtAt (u : List Byte) (i k : Nat) : Nat := beAt u (62 + i) k

/-- The header of an untagged frame. -/
def Hjt.decode (u : List Byte) : Hjt :=
  { type := bits (hjtAt u 0 1) 0 4, flags := bits (hjtAt u 1 1) 3 5, hop := bits (hjtAt u 2 1) 4 4,
    repro := bits (hjtAt u 2 1) 2 2, mode := bits (hjtAt u 3 1) 5 3, job := hjtAt u 4 2, group := hjtAt u 6 2,
    step := hjtAt u 8 2, chunk := hjtAt u 10 4, member := bits (hjtAt u 14 3) 4 20, format := bits (hjtAt u 14 3) 0 4,
    op := bits (hjtAt u 17 1) 4 4, mx := bit (hjtAt u 17 1) 3, len := bits (hjtAt u 18 2) 2 14, seq := hjtAt u 20 4,
    remote := hjtAt u 24 8, check := hjtAt u 32 8, code := hjtAt u 40 2 }

/-- Payload of an HJT frame. -/
def hjtPayload (u : List Byte) : List Byte := slice u 110 (Hjt.decode u).len

def Hjt.last (h : Hjt) : Bool := bit h.flags 4
def Hjt.unreduced (h : Hjt) : Bool := bit h.flags 3
def Hjt.retransmit (h : Hjt) : Bool := bit h.flags 2
def Hjt.retryPass (h : Hjt) : Bool := bit h.flags 1
def Hjt.backup (h : Hjt) : Bool := bit h.flags 0

/-- Types of R119. -/
def tWrite : Nat := 1
def tReadReq : Nat := 2
def tReadResp : Nat := 3
def tContrib : Nat := 4
def tResult : Nat := 5
def tNotify : Nat := 6
def tAck : Nat := 7
def tNack : Nat := 8
def tHello : Nat := 9

/-- Modes and operations of R119. -/
def mExact : Nat := 0
def mSplit : Nat := 1
def mCompressed : Nat := 2
def mFast : Nat := 3
def opSum : Nat := 0
def opMin : Nat := 1
def opMax : Nat := 2
def opAnd : Nat := 3
def opOr : Nat := 4
def opXor : Nat := 5
def opMean : Nat := 6

/-- An HJT frame the device originates: header, payload and CRC-32C trailer (R127). -/
def hjtFrame (dst src cls hop port : Nat) (h : Hjt) (payload : List Byte) : List Byte :=
  let body := ({ h with len := payload.length }).encode ++ payload ++ natLe 4 (crc32c payload)
  ipFrame dst src cls hop 17 (udpHdr port body.length ++ body)

/-! ### Elements (R125, R221, R228) -/

/-- Bits of an element by format code; 0 where the code is no element of fixed width. -/
def fmtBits (f : Nat) : Nat :=
  match f with
  | 0 | 12 => 64
  | 1 | 11 => 32
  | 2 | 3 | 10 => 16
  | 4 | 5 | 9 => 8
  | 6 | 7 => 6
  | 8 => 4
  | _ => 0

/-- Bytes of one MX block: the scale byte and 32 packed elements (R125). -/
def mxBlockBytes (f : Nat) : Nat := 1 + fmtBits f * 4

/-- What a walk over WP elements finds (R228, R230). -/
inductive WpScan where
  | ok (count : Nat)
  | badLength
  | badHeader
  deriving DecidableEq, Repr

/-- A walk over the WP elements of `l`, with `fuel` at least its length: an element that the payload cuts is a length error, and reserved
header bits and word counts outside 1 to 5 are bad headers. A length error further on goes before a bad header (R126, R131); behind a word
count outside 1 to 5 no element has a place, and the walk ends. -/
def wpScan : Nat → List Byte → Nat → WpScan
  | 0, l, n => if l.isEmpty then .ok n else .badLength
  | fuel + 1, l, n =>
    if l.isEmpty then .ok n
    else if l.length < 8 then .badLength
    else
      let h := leNat (l.take 8)
      let w := bits h 16 3
      if w = 0 ∨ 5 < w then .badHeader
      else if l.length < 8 + 8 * w then .badLength
      else match wpScan fuel (l.drop (8 + 8 * w)) (n + 1) with
        | .ok k => if bits h 23 9 = 0 then .ok k else .badHeader
        | r => r

/-- Elements of a payload of whole elements, blocks or WP elements. -/
def elemCount (format : Nat) (mx : Bool) (p : List Byte) : Nat :=
  if mx then p.length / mxBlockBytes format * 32
  else if format = 14 then match wpScan p.length p 0 with
    | .ok n => n
    | _ => 0
  else if fmtBits format = 0 then 0 else p.length * 8 / fmtBits format

/-- Bytes of `n` elements of a format other than WP, packed; with mx whole blocks that hold them. -/
def packedBytes (format : Nat) (mx : Bool) (n : Nat) : Nat :=
  if mx then cdiv n 32 * mxBlockBytes format else cdiv (n * fmtBits format) 8

/-! ### The checks of R126 and R131 -/

/-- Reasons of R177 for the HJT checks. -/
def dHjtLength : Nat := 0x0B
def dHjtVersion : Nat := 0x0C
def dHjtType : Nat := 0x0D
def dHjtReserved : Nat := 0x0E
def dHjtHop : Nat := 0x0F
def dHjtEncoding : Nat := 0x10
def dHjtCrc : Nat := 0x11

/-- The frame comes from a spine of the destination's fabric (R22, R23). -/
def fromSpine (u : List Byte) : Bool := ipSrc u / 2 ^ 32 == ipDst u / 2 ^ 32 && feaLeaf (ipSrc u % 2 ^ 32) == 0x3FF

/-- Order 3: reserved fields of R119 and the fields R120 makes zero for the type; sequence is zero in a CONTRIB from a spine. -/
def hjtReservedOk (u : List Byte) : Bool :=
  let h := Hjt.decode u
  let t := h.type
  let data := t == tContrib || t == tResult
  bits (hjtAt u 1 1) 0 3 == 0 && bits (hjtAt u 2 1) 0 2 == 0 && bits (hjtAt u 3 1) 0 5 == 0 && bits (hjtAt u 17 1) 0 3 == 0
    && bits (hjtAt u 18 2) 0 2 == 0 && hjtAt u 42 6 == 0
    && (t == tResult || h.repro == 0)
    && (data || (h.mode == 0 && h.op == 0 && h.format == 0 && !h.mx))
    && (data || t == tAck || t == tNack || h.check == 0)
    && (data || t == tAck || t == tNack || t == tNotify || h.member == 0)
    && (t != tHello || (h.job == 0 && h.group == 0 && h.step == 0 && h.chunk == 0))
    && ((t != tNotify && t != tHello) || h.remote == 0)
    && (t != tResult || h.seq == 0) && (t != tContrib || !fromSpine u || h.seq == 0)
    && (t == tNotify || t == tAck || t == tNack || h.code == 0)

/-- Bytes of one block of MX format `f`; 0 where no block of that format is defined (R125, R221). -/
def mxUnit (f : Nat) : Nat := if 4 ≤ f ∧ f ≤ 9 then mxBlockBytes f else 0

/-- Order 4: the lengths of R126. A format that has no element, or with mx = 1 no block, has none to count, and order 6 refuses it. -/
def hjtLengthOk (u : List Byte) : Bool :=
  let h := Hjt.decode u
  let p := hjtPayload u
  56 + h.len + 4 == udpLen u && udpLen u == ipLen u && decide (h.len ≤ 8192)
    && (h.type != tReadReq || h.len == 16) && (h.type != tHello || h.len == 48)
    && (!(h.type == tContrib || h.type == tResult) ||
      (if h.mx then mxUnit h.format == 0 || h.len % mxUnit h.format == 0
       else if h.format = 14 then decide (wpScan h.len p 0 ≠ .badLength)
       else fmtBits h.format == 0 || h.len * 8 % fmtBits h.format == 0))

/-- Order 6: codes in use (R119, R128, R132, R221, R230). -/
def hjtEncodingOk (u : List Byte) : Bool :=
  let h := Hjt.decode u
  let p := hjtPayload u
  if h.type = tContrib ∨ h.type = tResult then
    decide (h.mode ≤ 3) && decide (h.op ≤ 6) && h.format != 13 && h.format != 15 && h.repro != 3
      && (!h.mx || (decide (4 ≤ h.format) && decide (h.format ≤ 9)))
      && (h.format != 14 || decide (wpScan h.len p 0 ≠ .badHeader))
      && (h.mode != mExact || (h.op != opSum && h.op != opMean) || decide (h.check < 2 ^ 61 - 1))
  else if h.type = tAck then h.code == 0 || decide (0x8000 ≤ h.code)
  else if h.type = tNack then h.code == 1 || decide (0x8000 ≤ h.code)
  else if h.type = tNotify then h.code == 2 || decide (0x8000 ≤ h.code)
  else true

/-- The first failing check of R131 for an HJT frame; a version other than 1 is checked first. -/
def hjtCheck (u : List Byte) : Option Nat :=
  let h := Hjt.decode u
  if ipLen u < 60 ∨ udpLen u < 60 then some dHjtLength
  else if hjtAt u 0 1 / 16 ≠ 1 then some dHjtVersion
  else if h.type = 0 ∨ 9 < h.type then some dHjtType
  else if hjtReservedOk u = false then some dHjtReserved
  else if hjtLengthOk u = false then some dHjtLength
  else if h.hop = 15 then some dHjtHop
  else if hjtEncodingOk u = false then some dHjtEncoding
  else if leNat (slice u (110 + h.len) 4) ≠ crc32c (hjtPayload u) then some dHjtCrc
  else none

/-! ### PFC (R111, R168, R169) -/

/-- The PFC opcode. -/
def pfcOpcode : Nat := 0x0101

/-- A PFC frame for class `c` with pause time `q`: enable bit of the class alone, every other time 0 (R169; the frame's
layout is PRESUMED from IEEE 802.1Qbb). -/
def pfcFrame (src c q : Nat) : List Byte :=
  ethHdr macPfc src 0x8808 ++ natBe 2 pfcOpcode ++ natBe 2 (2 ^ c)
    ++ (List.range 8).flatMap fun i => natBe 2 (if i = c then q else 0)

/-- Enable vector and pause time of class `c` in a received PFC frame. -/
def pfcEnable (u : List Byte) (c : Nat) : Bool := bit (beAt u 16 2) c
def pfcTime (u : List Byte) (c : Nat) : Nat := beAt u (18 + 2 * c) 2

end Sys2Proof.Machine
end

