-- ==== Sys2Proof/Machine/NumFmt.lean ====
section
/-! DEFINITION. Number formats: values of the codes of R221 (R222 to R226), rounding (R234 to R237), MX blocks (R227), wide
partials (R228 to R230), minimum and maximum (R233), and IEEE 754-2019 addition and product in FP32 and FP64. -/

namespace Sys2Proof.Machine

/-- An exact value: sign, magnitude `m` x 2^`e`; zero keeps its sign. -/
inductive Val where
  | nan
  | inf (neg : Bool)
  | num (neg : Bool) (m : Nat) (e : Int)
  deriving DecidableEq, Repr

/-- A floating-point format of R222. -/
structure FloatFmt where
  ebits : Nat
  mbits : Nat
  bias : Nat
  /-- 2: infinities and NaN with exponent all ones; 1: E4M3; 0: every code finite. -/
  special : Nat
  deriving DecidableEq, Repr

/-- The layout of a floating-point code; FP32 for a code that is none. -/
def floatFmt (f : Nat) : FloatFmt :=
  match f with
  | 0 => ⟨11, 52, 1023, 2⟩
  | 2 => ⟨8, 7, 127, 2⟩
  | 3 => ⟨5, 10, 15, 2⟩
  | 4 => ⟨5, 2, 15, 2⟩
  | 5 => ⟨4, 3, 7, 1⟩
  | 6 => ⟨3, 2, 3, 0⟩
  | 7 => ⟨2, 3, 1, 0⟩
  | 8 => ⟨2, 1, 1, 0⟩
  | _ => ⟨8, 23, 127, 2⟩

def isFloat (f : Nat) : Bool := decide (f ≤ 8)
def isInt (f : Nat) : Bool := decide (9 ≤ f) && decide (f ≤ 12)

/-- The value of a floating-point code (R222, R223). -/
def floatVal (f code : Nat) : Val :=
  let k := floatFmt f
  let s := bit code (k.ebits + k.mbits)
  let e := bits code k.mbits k.ebits
  let m := bits code 0 k.mbits
  if k.special = 2 ∧ e = 2 ^ k.ebits - 1 then (if m = 0 then .inf s else .nan)
  else if k.special = 1 ∧ e = 2 ^ k.ebits - 1 ∧ m = 2 ^ k.mbits - 1 then .nan
  else if e = 0 then .num s m (1 - (k.bias : Int) - k.mbits)
  else .num s (2 ^ k.mbits + m) ((e : Int) - k.bias - k.mbits)

/-- The value of an integer. -/
def intVal (z : Int) : Val := .num (decide (z < 0)) z.natAbs 0

/-- The value of an element code without block scale (R222, R224). -/
def codeVal (f code : Nat) : Val :=
  if isFloat f then floatVal f code else intVal (sgn (fmtBits f) code)

/-- The value of an MX element under its scale byte (R224 to R226). -/
def mxVal (f scale code : Nat) : Val :=
  if scale = 0xFF then .nan
  else match (if f = 9 then match intVal (sgn 8 code) with
      | .num s m e => Val.num s m (e - 6)
      | x => x
    else floatVal f code) with
    | .num s m e => .num s m (e + scale - 127)
    | x => x

/-! ### Rounding (R234, R235) -/

/-- Rounding modes of R234. -/
def rNearest : Nat := 0
def rZero : Nat := 1
def rUp : Nat := 2
def rDown : Nat := 3
def rStochastic : Nat := 4

/-- floor(log2(m x 2^e / n)) for positive `m` and `n`. -/
def floorLog2 (m n : Nat) (e : Int) : Int :=
  let a := Nat.log2 m
  let b := Nat.log2 n
  let ge := if b ≤ a then decide (n * 2 ^ (a - b) ≤ m) else decide (n ≤ m * 2 ^ (b - a))
  (a : Int) - b + e - (if ge then 0 else 1)

/-- The quotient m x 2^e / n down to 32 bits below 2^g, and its sticky bit (R248). -/
def quotient32 (m n : Nat) (e g : Int) : Nat × Bool :=
  let k := e - g + 32
  let num := if 0 ≤ k then m * 2 ^ k.toNat else m
  let den := if 0 ≤ k then n else n * 2 ^ (-k).toNat
  (num / den, num % den != 0)

/-- The magnitude m x 2^e / n in units of 2^g, rounded once under `mode` with draw `r` (R234, R235, R248): the integer, and
whether anything was lost. -/
def roundUnit (mode : Nat) (r : Nat) (neg : Bool) (m n : Nat) (e g : Int) : Nat × Bool :=
  let (q32, sticky) := quotient32 m n e g
  let q := q32 / 2 ^ 32
  let d := q32 % 2 ^ 32
  let lost := d != 0 || sticky
  let away :=
    if mode = rZero then false
    else if mode = rUp then !neg
    else if mode = rDown then neg
    else if mode = rStochastic then decide (r < d)
    else decide (2 ^ 31 < d) || (d == 2 ^ 31 && (sticky || q % 2 == 1))
  (if lost && away then q + 1 else q, lost)

/-- The largest finite magnitude of a format as mantissa and exponent (R222). -/
def maxFinite (k : FloatFmt) : Nat × Int :=
  let top := 2 ^ k.ebits - 1 - (if k.special = 2 then 1 else 0)
  let m := if k.special = 1 then 2 ^ (k.mbits + 1) - 2 else 2 ^ (k.mbits + 1) - 1
  (m, (top : Int) - k.bias - k.mbits)

/-- m1 x 2^e1 exceeds m2 x 2^e2. -/
def magGt (m1 : Nat) (e1 : Int) (m2 : Nat) (e2 : Int) : Bool :=
  if e1 ≤ e2 then decide (m2 * 2 ^ (e2 - e1).toNat < m1) else decide (m2 < m1 * 2 ^ (e1 - e2).toNat)

/-- A sign bit in place. -/
def signBit (k : FloatFmt) (neg : Bool) : Nat := if neg then 2 ^ (k.ebits + k.mbits) else 0

/-- The code of q x 2^g, which lies in the format. -/
def packFloat (k : FloatFmt) (neg : Bool) (q : Nat) (g : Int) : Nat :=
  let q' := if q = 2 ^ (k.mbits + 1) then 2 ^ k.mbits else q
  let g' := if q = 2 ^ (k.mbits + 1) then g + 1 else g
  signBit k neg + (if q' < 2 ^ k.mbits then q' else (g' + k.mbits + k.bias).toNat * 2 ^ k.mbits + (q' - 2 ^ k.mbits))

/-- The code of a format's largest finite magnitude. -/
def maxCode (k : FloatFmt) (neg : Bool) : Nat := let x := maxFinite k; packFloat k neg x.1 x.2

/-- The canonical NaN (R223); a format without NaN has none, and what a NaN is written as there is not stated
(notes/assumptions/21.md). -/
def nanCode (f : Nat) : Nat :=
  match f with
  | 0 => 0x7FF8000000000000
  | 1 => 0x7FC00000
  | 2 => 0x7FC0
  | 3 => 0x7E00
  | 4 => 0x7E
  | 5 => 0x7F
  | _ => (Config.nanWithoutCode f).toNat % 2 ^ fmtBits f

/-- The code of an infinite result of R237. -/
def infCode (f : Nat) (neg : Bool) : Nat :=
  let k := floatFmt f
  if k.special = 2 then signBit k neg + (2 ^ k.ebits - 1) * 2 ^ k.mbits
  else if k.special = 1 then nanCode f
  else maxCode k neg

/-- A rounding result: the code and whether a finite value overflowed (ROUND_OVERFLOW of R247). -/
structure Rounded where
  code : Nat
  overflow : Bool
  nan : Bool
  deriving DecidableEq, Repr

/-- Exponent of the least significant bit of the float that m x 2^e / n rounds to. -/
def floatUlp (f m n : Nat) (e : Int) : Int :=
  let k := floatFmt f
  max (floorLog2 m n e) (1 - (k.bias : Int)) - k.mbits

/-- A finite value m x 2^e / n rounded once to a floating-point format (R234, R235, R237). `sat` is the saturating
setting. -/
def roundFloat (f mode : Nat) (sat : Bool) (r : Nat) (neg : Bool) (m n : Nat) (e : Int) : Rounded :=
  let k := floatFmt f
  if m = 0 then ⟨signBit k neg, false, false⟩
  else
    let g := floatUlp f m n e
    let q := (roundUnit mode r neg m n e g).1
    let mx := maxFinite k
    if magGt q g mx.1 mx.2 then
      let toMax := sat || mode == rZero || (mode == rUp && neg) || (mode == rDown && !neg)
      ⟨if toMax then maxCode k neg else infCode f neg, true, false⟩
    else ⟨packFloat k neg q g, false, false⟩

/-- A finite value rounded once to an integer format: wrapped, or clamped when saturating (R237). -/
def roundInt (f mode : Nat) (sat : Bool) (r : Nat) (neg : Bool) (m n : Nat) (e : Int) : Rounded :=
  let w := fmtBits f
  let q := (roundUnit mode r neg m n e 0).1
  let z : Int := if neg then -(q : Int) else q
  let out := decide (z < -(2 ^ (w - 1) : Int)) || decide ((2 ^ (w - 1) : Int) - 1 < z)
  if out && sat then ⟨if neg then 2 ^ (w - 1) else 2 ^ (w - 1) - 1, true, false⟩ else ⟨unsgn w z, out, false⟩

/-- An exact value, divided exactly by `n`, rounded once to format `f` (R234 to R237, R247, R248). -/
def roundVal (f mode : Nat) (sat : Bool) (r n : Nat) (x : Val) : Rounded :=
  match x with
  | .num s m e => if isInt f then roundInt f mode sat r s m n e else roundFloat f mode sat r s m n e
  | .nan => if isInt f then ⟨0, false, true⟩ else ⟨nanCode f, false, true⟩
  | .inf s =>
    if isInt f then ⟨if s then 2 ^ (fmtBits f - 1) else 2 ^ (fmtBits f - 1) - 1, false, true⟩
    else if (floatFmt f).special = 1 ∧ sat = true then ⟨maxCode (floatFmt f) s, false, false⟩
    else ⟨infCode f s, false, false⟩

/-! ### The draw (R235, R236) -/

/-- mix64. -/
def mix64 (z0 : Nat) : Nat :=
  let z1 := Nat.xor z0 (z0 / 2 ^ 30) * 0xBF58476D1CE4E5B9 % 2 ^ 64
  let z2 := Nat.xor z1 (z1 / 2 ^ 27) * 0x94D049BB133111EB % 2 ^ 64
  Nat.xor z2 (z2 / 2 ^ 31)

/-- sr_draw. -/
def srDraw (group step chunk index site hall : Nat) : Nat :=
  let k := group % 2 ^ 16 * 2 ^ 48 + step % 2 ^ 16 * 2 ^ 32 + chunk % 2 ^ 32
  let s := mix64 ((k + 0x9E3779B97F4A7C15) % 2 ^ 64)
  let t := site % 4 * 2 ^ 62 + hall % 64 * 2 ^ 56 + index % 2 ^ 56
  mix64 (Nat.xor s t) / 2 ^ 32

/-! ### Exact arithmetic on values -/

/-- A finite value as an integer in units of 2^g, where g is at most its exponent. -/
def unitsOf (s : Bool) (m : Nat) (e g : Int) : Int :=
  let v : Int := (m * 2 ^ (e - g).toNat : Nat)
  if s then -v else v

/-- IEEE addition before rounding: exact sum, with the sign of an exact zero under the rounding `mode` (−0 only for two −0, or
toward −∞). -/
def addVal (mode : Nat) (x y : Val) : Val :=
  match x, y with
  | .nan, _ => .nan
  | _, .nan => .nan
  | .inf a, .inf b => if a = b then .inf a else .nan
  | .inf a, .num .. => .inf a
  | .num .., .inf b => .inf b
  | .num s1 m1 e1, .num s2 m2 e2 =>
    let g := min e1 e2
    let z := unitsOf s1 m1 e1 g + unitsOf s2 m2 e2 g
    if z = 0 then .num (if m1 = 0 ∧ m2 = 0 ∧ s1 = s2 then s1 else decide (mode = rDown)) 0 0
    else .num (decide (z < 0)) z.natAbs g

/-- The negated value. -/
def negVal (x : Val) : Val :=
  match x with
  | .nan => .nan
  | .inf s => .inf !s
  | .num s m e => .num (!s) m e

/-- IEEE product before rounding. -/
def mulVal (x y : Val) : Val :=
  match x, y with
  | .nan, _ => .nan
  | _, .nan => .nan
  | .inf a, .inf b => .inf (a != b)
  | .inf a, .num b m _ => if m = 0 then .nan else .inf (a != b)
  | .num a m _, .inf b => if m = 0 then .nan else .inf (a != b)
  | .num a m1 e1, .num b m2 e2 => .num (a != b) (m1 * m2) (e1 + e2)

/-- The value times 2^k. -/
def scaleVal (x : Val) (k : Int) : Val :=
  match x with
  | .num s m e => .num s m (e + k)
  | y => y

/-- x is below y; −0 below +0 (R233). NaN is below nothing. -/
def ltVal (x y : Val) : Bool :=
  match x, y with
  | .nan, _ => false
  | _, .nan => false
  | .inf a, .inf b => a && !b
  | .inf a, .num .. => a
  | .num .., .inf b => !b
  | .num s1 m1 e1, .num s2 m2 e2 =>
    let g := min e1 e2
    let z1 := unitsOf s1 m1 e1 g
    let z2 := unitsOf s2 m2 e2 g
    decide (z1 < z2) || (z1 == z2 && m1 == 0 && s1 && !s2)

/-- Minimum and maximum of R233: NaN if either is. -/
def minVal (x y : Val) : Val :=
  match x, y with
  | .nan, _ => .nan
  | _, .nan => .nan
  | _, _ => if ltVal y x then y else x

def maxVal (x y : Val) : Val :=
  match x, y with
  | .nan, _ => .nan
  | _, .nan => .nan
  | _, _ => if ltVal x y then y else x

/-- Addition of two FP32 codes, nearest-even (R251). -/
def fp32Add (a b : Nat) : Nat := (roundVal 1 rNearest false 0 1 (addVal rNearest (floatVal 1 a) (floatVal 1 b))).code

/-! ### MX blocks (R227) -/

/-- emax of R227. -/
def mxEmax (f : Nat) : Int :=
  match f with
  | 4 => 15
  | 5 => 8
  | 6 => 4
  | 7 => 2
  | 8 => 2
  | _ => 0

/-- The largest floor(log2) of the finite non-zero magnitudes divided by `n`, none where all are zero. -/
def maxLog (n : Nat) (l : List Val) : Option Int :=
  l.foldl (fun a x => match x with
    | .num _ m e => if m = 0 then a else match a with
      | none => some (floorLog2 m n e)
      | some b => some (max b (floorLog2 m n e))
    | _ => a) none

/-- An element of a block, divided exactly by `n`, as step 4 writes it: clamped to the largest finite magnitude. The second
component says it was clamped. -/
def mxElem (f mode r n : Nat) (x : Val) (e : Int) : Nat × Bool :=
  match scaleVal x (-e) with
  | .num s m k =>
    if f = 9 then
      let q := (roundUnit mode r s m n k (-6)).1
      let z : Int := if s then -(q : Int) else q
      if z < -128 then (unsgn 8 (-128), true) else if 127 < z then (127, true) else (unsgn 8 z, false)
    else
      let y := roundFloat f mode true r s m n k
      (y.code, y.overflow)
  | _ => (0, false)

/-- A written block: scale, element codes, and the elements counted as ROUND_OVERFLOW. -/
structure MxBlock where
  scale : Nat
  codes : List Nat
  overflows : Nat
  deriving DecidableEq, Repr

/-- 32 exact values, each divided exactly by `n`, written as an MX block (R227, R248); `r` gives the draw of element `j`. -/
def mxWrite (f mode : Nat) (r : Nat → Nat) (n : Nat) (l : List Val) : MxBlock :=
  if l.any fun x => match x with
    | .num .. => false
    | _ => true
  then ⟨0xFF, List.replicate 32 0, 0⟩
  else match maxLog n l with
    | none => ⟨0x7F, (List.range 32).map fun j => (mxElem f mode (r j) n (l.getD j (.num false 0 0)) 0).1, 0⟩
    | some a =>
      let raw := a - mxEmax f
      let e := max (-127) (min 127 raw)
      let y := (List.range 32).map fun j => mxElem f mode (r j) n (l.getD j (.num false 0 0)) e
      ⟨(e + 127).toNat, y.map fun x => x.1,
        if 127 < raw then (y.filter fun x => x.2).length else 0⟩

/-- Bit string of codes packed low first. -/
def packCodes (w : Nat) (l : List Nat) : List Byte :=
  natLe (cdiv (l.length * w) 8) (l.reverse.foldl (fun a c => a * 2 ^ w + c % 2 ^ w) 0)

/-- Bytes of a block (R125). -/
def MxBlock.bytes (f : Nat) (b : MxBlock) : List Byte := byte b.scale :: packCodes (fmtBits f) b.codes

/-- The codes of `n` packed elements. -/
def unpackCodes (w n : Nat) (l : List Byte) : List Nat :=
  let v := leNat l
  (List.range n).map fun i => bits v (i * w) w

/-! ### Wide partials (R228 to R230) -/

/-- A WP element. -/
structure Wp where
  members : Nat
  negZero : Bool
  negInf : Bool
  posInf : Bool
  nan : Bool
  /-- N and the anchor A. -/
  n : Int
  anchor : Int
  deriving DecidableEq, Repr

/-- The element at the head of `l`, with its byte length. -/
def Wp.read (l : List Byte) : Wp × Nat :=
  let h := leNat (slice l 0 8)
  let w := bits h 16 3
  (⟨bits h 32 32, bit h 22, bit h 21, bit h 20, bit h 19, sgn (64 * max w 1) (leNat (slice l 8 (8 * w))), sgn 16 h⟩, 8 + 8 * w)

/-- The value of R229. -/
def Wp.val (x : Wp) : Val :=
  if x.nan ∨ (x.posInf = true ∧ x.negInf = true) then .nan
  else if x.posInf then .inf false
  else if x.negInf then .inf true
  else if x.n = 0 then .num x.negZero 0 0
  else .num (decide (x.n < 0)) x.n.natAbs x.anchor

/-- Factors of two of `m`, at most `fuel`. -/
def twos : Nat → Nat → Nat
  | 0, _ => 0
  | fuel + 1, m => if m % 2 = 1 ∨ m = 0 then 0 else 1 + twos fuel (m / 2)

/-- The fewest 64-bit words that hold an integer in two's complement. -/
def wordsOf (z : Int) : Nat :=
  ((List.range 5).find? fun w => decide (-(2 ^ (64 * (w + 1) - 1) : Int) ≤ z) && decide (z < (2 ^ (64 * (w + 1) - 1) : Int))).getD 4
    + 1

/-- The canonical bytes of a value with its members count (R230); NaN alone for a value that is NaN. -/
def wpWrite (members : Nat) (x : Val) : List Byte :=
  let hdr := fun (flags w : Nat) (a : Int) => members % 2 ^ 32 * 2 ^ 32 + flags + w * 2 ^ 16 + unsgn 16 a
  match x with
  | .nan => natLe 8 (hdr (2 ^ 19) 1 0) ++ zeros 8
  | .inf false => natLe 8 (hdr (2 ^ 20) 1 0) ++ zeros 8
  | .inf true => natLe 8 (hdr (2 ^ 21) 1 0) ++ zeros 8
  | .num s m e =>
    if m = 0 then natLe 8 (hdr (if s then 2 ^ 22 else 0) 1 0) ++ zeros 8
    else
      let k := twos 512 m
      let z : Int := if s then -((m / 2 ^ k : Nat) : Int) else ((m / 2 ^ k : Nat) : Int)
      let w := wordsOf z
      natLe 8 (hdr 0 w (e + k)) ++ natLe (8 * w) (unsgn (64 * w) z)

end Sys2Proof.Machine
end

