-- ==== Sys2Proof/Machine/Exact.lean ====
section
/-! DEFINITION. Exact reduction: permitted combinations (R240, R241), accumulators (R239, R242 to R245), final rounding
(R247, R248), running values (R249), the linear check (R256) and the chaining token (R259). -/

namespace Sys2Proof.Machine

/-! ### Combinations (R240, R241) -/

/-- A result format SUM and MEAN of floating-point inputs may take. -/
def floatResult (f : Nat) (mx : Bool) : Bool :=
  if mx then decide (4 ≤ f) && decide (f ≤ 8) else decide (f ≤ 5)

/-- The combination is in the table of R240. -/
def comboOk (op inF : Nat) (inMx : Bool) (resF : Nat) (resMx : Bool) (mode : Nat) : Bool :=
  let mxOk := !inMx || (decide (4 ≤ inF) && decide (inF ≤ 9))
  let fl := decide (1 ≤ inF) && decide (inF ≤ 8) || (inF == 9 && inMx)
  let int := isInt inF && !inMx
  mxOk && (
    if op = opSum ∨ op = opMean then
      if inF = 0 then mode == mFast && !resMx && decide (resF ≤ 1)
      else if fl then decide (mode ≤ 3) && (floatResult resF resMx || (op == opSum && resF == 14 && !resMx && mode == mExact))
      else if int then
        (mode == mExact || (mode == mFast && op == opSum)) && !resMx &&
          ((isInt resF && decide (inF ≤ resF)) || (op == opSum && resF == 14 && mode == mExact))
      else false
    else if op ≤ 5 then
      decide (inF ≤ 12) && (mode == mExact || mode == mFast) && resF == inF && resMx == inMx
    else false)

/-- Partial format of R241 as (format, mx): `part` is the MX element format of COMPRESSED. Integers take no FAST path and their sums are exact
in every mode (R238), so their partials in FAST are those of EXACT (notes/assumptions/60.md). -/
def partialFmt (op inF : Nat) (inMx : Bool) (mode part : Nat) : Nat × Bool :=
  if op = opSum ∨ op = opMean then
    if mode = mExact then (14, false)
    else if mode = mSplit then (1, false)
    else if mode = mCompressed then (part, true)
    else if inF = 0 then (0, false)
    else if isInt inF && !inMx then (14, false)
    else (1, false)
  else (inF, inMx)

/-! ### Accumulator words (R239, R242) -/

/-- The format accumulates in the wide class. -/
def wideClass (f : Nat) (mx : Bool) : Bool := mx || f == 1 || f == 2 || f == 12 || f == 14

/-- Bytes of an accumulator word. -/
def accBytes (wide : Bool) : Nat := if wide then 40 else 8

/-- L of R242: exponent of the least significant bit. -/
def accL (f : Nat) (mx : Bool) : Int :=
  if mx then match f with
    | 4 => -143
    | 5 => -136
    | 6 => -131
    | 7 => -130
    | 8 => -128
    | _ => -133
  else match f with
    | 1 => -149
    | 2 => -133
    | 3 => -24
    | 4 => -16
    | 5 => -9
    | 6 => -4
    | 7 => -3
    | 8 => -1
    | _ => 0

/-- S of R242: the element span. -/
def accS (f : Nat) (mx : Bool) : Nat :=
  if mx then match f with
    | 4 => 286
    | 5 => 272
    | 6 => 263
    | 7 => 260
    | 8 => 258
    | _ => 262
  else match f with
    | 1 => 277
    | 2 => 261
    | 3 => 40
    | 4 => 32
    | 5 => 18
    | 6 => 9
    | 7 => 6
    | 8 => 4
    | 9 => 8
    | 10 => 16
    | 11 => 32
    | _ => 64

/-- An accumulator: the integer V and its five bits. -/
structure Accum where
  v : Int
  nan : Bool
  posInf : Bool
  negInf : Bool
  seen : Bool
  other : Bool
  deriving DecidableEq, Repr

/-- Width of V. -/
def vBits (wide : Bool) : Nat := if wide then 304 else 58

/-- The accumulator of a word. -/
def Accum.ofWord (wide : Bool) (w : Nat) : Accum :=
  let b := vBits wide
  ⟨sgn b w, bit w b, bit w (b + 1), bit w (b + 2), bit w (b + 3), bit w (b + 4)⟩

/-- The word of an accumulator; V wraps at its width (R244). -/
def Accum.word (wide : Bool) (a : Accum) : Nat :=
  let b := vBits wide
  unsgn b a.v + b2n a.nan * 2 ^ b + b2n a.posInf * 2 ^ (b + 1) + b2n a.negInf * 2 ^ (b + 2) + b2n a.seen * 2 ^ (b + 3)
    + b2n a.other * 2 ^ (b + 4)

/-- A finite value as a multiple of 2^l; `none` where it is none. -/
def inUnits (s : Bool) (m : Nat) (e l : Int) : Option Int :=
  if l ≤ e then some (unitsOf s m e l)
  else
    let k := 2 ^ (l - e).toNat
    if m % k = 0 then some (let v : Int := (m / k : Nat); if s then -v else v) else none

/-- An element added (R243), or, with `ranged`, an element of a partial format held to the range of R231: the accumulator, and
whether it was out of range. -/
def Accum.add (f : Nat) (mx ranged : Bool) (a : Accum) (x : Val) : Accum × Bool :=
  match x with
  | .nan => ({ a with nan := true }, false)
  | .inf false => ({ a with posInf := true }, false)
  | .inf true => ({ a with negInf := true }, false)
  | .num s m e =>
    match inUnits s m e (accL f mx) with
    | some z =>
      if ranged && decide (2 ^ (accS f mx + 17) ≤ z.natAbs) then ({ a with nan := true }, true)
      else ({ a with v := a.v + z, seen := true, other := a.other || !(m == 0 && s) }, false)
    | none => ({ a with nan := true }, true)

/-- A WP element added (R244). -/
def Accum.addWp (f : Nat) (mx : Bool) (a : Accum) (w : Wp) : Accum × Bool :=
  let a := { a with nan := a.nan || w.nan, posInf := a.posInf || w.posInf, negInf := a.negInf || w.negInf }
  if w.nan || w.posInf || w.negInf then (a, false)
  else a.add f mx true (if w.n = 0 then .num w.negZero 0 0 else .num (decide (w.n < 0)) w.n.natAbs w.anchor)

/-- Two accumulators merged: V values added, bits ORed (R325). -/
def Accum.merge (a b : Accum) : Accum :=
  ⟨a.v + b.v, a.nan || b.nan, a.posInf || b.posInf, a.negInf || b.negInf, a.seen || b.seen, a.other || b.other⟩

/-- The exact value of an accumulator (R232, R247), before any division. -/
def Accum.val (f : Nat) (mx : Bool) (a : Accum) : Val :=
  if a.nan ∨ (a.posInf = true ∧ a.negInf = true) then .nan
  else if a.posInf then .inf false
  else if a.negInf then .inf true
  else if a.v = 0 then .num (a.seen && !a.other) 0 0
  else .num (decide (a.v < 0)) a.v.natAbs (accL f mx)

/-- A position carries a special bit (R258). -/
def Accum.special (a : Accum) : Bool := a.nan || a.posInf || a.negInf

/-! ### The linear check (R256 to R258) -/

/-- p = 2^61 − 1. -/
def linP : Nat := 2 ^ 61 - 1

/-- The check of a list of integers. -/
def linearCheck (l : List Int) : Nat :=
  (l.foldl (fun (a : Nat × Nat) v => (a.1 + 1, (a.2 + (v % (linP : Int)).toNat * 2 ^ (a.1 % 61)) % linP)) (0, 0)).2

/-- rotl64. -/
def rotl64 (x k : Nat) : Nat := (x * 2 ^ k + x / 2 ^ (64 - k)) % 2 ^ 64

/-- The token of R259. -/
def chainToken (check member crc : Nat) : Nat :=
  Nat.xor (rotl64 (check % 2 ^ 64) 1) (Nat.xor (member % 2 ^ 20 * 2 ^ 32) (crc % 2 ^ 32))

/-! ### Running values (R233, R249) -/

/-- What is stored of a NaN in MIN and MAX (R223); every other code as it is. -/
def keepCode (op f c : Nat) : Nat :=
  if op = opMin ∨ op = opMax then match codeVal f c with
    | .nan => nanCode f
    | _ => c
  else c

/-- MIN, MAX or a bitwise operation on two codes of one format without block scale. -/
def combineCode (op f a b : Nat) : Nat :=
  if op = opMin then
    match codeVal f a, codeVal f b with
    | .nan, _ => nanCode f
    | _, .nan => nanCode f
    | x, y => if ltVal y x then b else a
  else if op = opMax then
    match codeVal f a, codeVal f b with
    | .nan, _ => nanCode f
    | _, .nan => nanCode f
    | x, y => if ltVal x y then b else a
  else if op = opAnd then Nat.land a b
  else if op = opOr then Nat.lor a b
  else Nat.xor a b

/-- Bytes combined bitwise. -/
def combineBytes (op : Nat) (a b : List Byte) : List Byte :=
  List.zipWith (fun x y => byte (combineCode op 9 x.toNat y.toNat)) a b

/-- Running values of MX elements: 256 x scale byte + element code. -/
def runVal (f x : Nat) : Val := mxVal f (x / 256) (x % 256)

/-- The running values that a block image holds. -/
def blockRuns (f : Nat) (l : List Byte) : List Nat :=
  (unpackCodes (fmtBits f) 32 (l.drop 1)).map fun c => leNat (l.take 1) * 256 + c

/-- MIN or MAX of two running values: one of them, compared scaled (R233). -/
def combineRun (op f a b : Nat) : Nat :=
  match runVal f a, runVal f b with
  | .nan, _ => a
  | _, .nan => b
  | x, y => if (if op = opMin then ltVal y x else ltVal x y) then b else a

/-- The block that running values are written as (R227), with the draws `r`. -/
def runBlock (f mode : Nat) (r : Nat → Nat) (l : List Nat) : MxBlock := mxWrite f mode r 1 (l.map (runVal f))

end Sys2Proof.Machine
end

