-- ==== Sys2Proof/Machine/RegMap.lean ====
section
/-! DEFINITION. The register map: every field of every register table of the spec, with its offset, bits, access code and
reset value, in the order of the chapters. A field is named REGISTER.field, as the manual cites it (spec/00_scope.md).
Where a table gives one row for several equal fields (a nibble per port, a byte per class), the field here has instances.
A reset the table does not give as a number (per device, per readback, per page) reads through a view of the state and is
entered here as 0. -/

namespace Sys2Proof.Machine

/-- The kinds of register block: R55 (header), R453 (counters), R60 and R67 (ring blocks), and the page kinds of R54. -/
inductive Blk where
  | hdr
  | ctrs
  | ctlDie
  | ctlPkg
  | ctlRing
  | ctlEvr
  | clk
  | tim
  | msh
  | f2f
  | mem
  | pwrDie
  | pwrPkg
  | ctrDie
  | ctrPkg
  | optEng
  | optPort
  | byp
  | swp
  | fwd
  | buf
  | schDie
  | schPort
  | gal
  | lnd
  | grp
  | trg
  | cmb
  | arr
  | vec
  | xse
  | mgtPort
  | mgtPkg
  | boot
  | sec
  deriving DecidableEq, Repr

/-- Register access codes (R12). -/
inductive Acc where
  | ro | rw | w1c | wo | rws | rwp
  deriving DecidableEq, Repr

/-- A register field: `count` instances of `w` bits; instance `i` lies in the register at byte offset
`off + stride * (i / per)`, at bit `lo + step * (i % per)`. Its reset value is entry `i` of `rst`, taken cyclically. -/
structure Fld where
  off : Nat
  stride : Nat
  count : Nat
  per : Nat
  step : Nat
  lo : Nat
  w : Nat
  acc : Acc
  rst : List Nat
  deriving DecidableEq, Repr


/-! ### spec/02_package_dies_clocks.md -/

-- CLK_REF_STATUS, offset 0x100, near R45
def CLK_REF_STATUS.time_ref_fallback : Fld := ⟨0x100, 0, 1, 1, 0, 7, 1, .ro, [0]⟩
def CLK_REF_STATUS.pps_in_present : Fld := ⟨0x100, 0, 1, 1, 0, 6, 1, .ro, [0]⟩
def CLK_REF_STATUS.time_ref_present : Fld := ⟨0x100, 0, 1, 1, 0, 5, 1, .ro, [0]⟩
def CLK_REF_STATUS.serdes_ref_present : Fld := ⟨0x100, 0, 1, 1, 0, 4, 1, .ro, [0]⟩
def CLK_REF_STATUS.sysclk_present : Fld := ⟨0x100, 0, 1, 1, 0, 3, 1, .ro, [1]⟩
def CLK_REF_STATUS.time_ref_lost : Fld := ⟨0x100, 0, 1, 1, 0, 2, 1, .w1c, [0]⟩
def CLK_REF_STATUS.serdes_ref_lost : Fld := ⟨0x100, 0, 1, 1, 0, 1, 1, .w1c, [0]⟩
def CLK_REF_STATUS.sysclk_lost : Fld := ⟨0x100, 0, 1, 1, 0, 0, 1, .w1c, [0]⟩
-- CLK_CMB_FREQ, offset 0x108, near R45
def CLK_CMB_FREQ.mhz : Fld := ⟨0x108, 0, 4, 4, 16, 0, 16, .ro, [2000]⟩
-- CLK_PLL_LOCK, offset 0x110, near R45
def CLK_PLL_LOCK.time_lock : Fld := ⟨0x110, 0, 1, 1, 0, 7, 1, .ro, [0]⟩
def CLK_PLL_LOCK.mgt_lock : Fld := ⟨0x110, 0, 1, 1, 0, 6, 1, .ro, [0]⟩
def CLK_PLL_LOCK.mem_lock : Fld := ⟨0x110, 0, 1, 1, 0, 5, 1, .ro, [0]⟩
def CLK_PLL_LOCK.f2f_lock : Fld := ⟨0x110, 0, 1, 1, 0, 4, 1, .ro, [0]⟩
def CLK_PLL_LOCK.ctl_lock : Fld := ⟨0x110, 0, 1, 1, 0, 3, 1, .ro, [0]⟩
def CLK_PLL_LOCK.cmb_lock : Fld := ⟨0x110, 0, 1, 1, 0, 2, 1, .ro, [0]⟩
def CLK_PLL_LOCK.core_lock : Fld := ⟨0x110, 0, 1, 1, 0, 1, 1, .ro, [0]⟩
def CLK_PLL_LOCK.lane_tx_lock : Fld := ⟨0x110, 0, 1, 1, 0, 0, 1, .ro, [0]⟩
-- MSH_LINK, offset 0x100, near R46
def MSH_LINK.tx_failed : Fld := ⟨0x100, 8, 3, 1, 0, 40, 8, .ro, [0]⟩
def MSH_LINK.rx_failed : Fld := ⟨0x100, 8, 3, 1, 0, 32, 8, .ro, [0]⟩
def MSH_LINK.peer : Fld := ⟨0x100, 8, 3, 1, 0, 24, 2, .ro, [0]⟩
def MSH_LINK.tx_tbps : Fld := ⟨0x100, 8, 3, 1, 0, 8, 8, .ro, [112]⟩
def MSH_LINK.rx_tbps : Fld := ⟨0x100, 8, 3, 1, 0, 0, 8, .ro, [112]⟩
-- MSH_CREDIT, offset 0x118, near R46
def MSH_CREDIT.forwarded : Fld := ⟨0x118, 8, 3, 1, 0, 48, 16, .ro, [0]⟩
def MSH_CREDIT.results : Fld := ⟨0x118, 8, 3, 1, 0, 32, 16, .ro, [0]⟩
def MSH_CREDIT.replies : Fld := ⟨0x118, 8, 3, 1, 0, 16, 16, .ro, [0]⟩
def MSH_CREDIT.requests : Fld := ⟨0x118, 8, 3, 1, 0, 0, 16, .ro, [0]⟩

/-! ### spec/03_management_ports_and_register_pages.md -/

-- PG_ID, offset 0x0, near R55
def PG_ID.layout_version : Fld := ⟨0x0, 0, 1, 1, 0, 48, 8, .ro, [1]⟩
def PG_ID.banked : Fld := ⟨0x0, 0, 1, 1, 0, 47, 1, .ro, [0]⟩
def PG_ID.die : Fld := ⟨0x0, 0, 1, 1, 0, 44, 3, .ro, [0]⟩
def PG_ID.inst : Fld := ⟨0x0, 0, 1, 1, 0, 24, 16, .ro, [0]⟩
def PG_ID.block_type : Fld := ⟨0x0, 0, 1, 1, 0, 16, 8, .ro, [0]⟩
-- PG_CTRL, offset 0x8, near R55
def PG_CTRL.event_ring : Fld := ⟨0x8, 0, 1, 1, 0, 8, 8, .rw, [0]⟩
def PG_CTRL.read_shadow : Fld := ⟨0x8, 0, 1, 1, 0, 3, 1, .rw, [0]⟩
def PG_CTRL.irq_enable : Fld := ⟨0x8, 0, 1, 1, 0, 2, 1, .rw, [0]⟩
def PG_CTRL.soft_reset : Fld := ⟨0x8, 0, 1, 1, 0, 1, 1, .wo, [0]⟩
def PG_CTRL.enable : Fld := ⟨0x8, 0, 1, 1, 0, 0, 1, .rw, [0]⟩
-- PG_STATUS, offset 0x10, near R55
def PG_STATUS.block_status : Fld := ⟨0x10, 0, 1, 1, 0, 32, 32, .ro, [0]⟩
def PG_STATUS.dual_pending : Fld := ⟨0x10, 0, 1, 1, 0, 4, 1, .ro, [0]⟩
def PG_STATUS.commit_busy : Fld := ⟨0x10, 0, 1, 1, 0, 3, 1, .ro, [0]⟩
def PG_STATUS.reset_busy : Fld := ⟨0x10, 0, 1, 1, 0, 2, 1, .ro, [0]⟩
def PG_STATUS.error : Fld := ⟨0x10, 0, 1, 1, 0, 1, 1, .ro, [0]⟩
def PG_STATUS.ready : Fld := ⟨0x10, 0, 1, 1, 0, 0, 1, .ro, [0]⟩
-- PG_IRQ_RAW, offset 0x18, near R55
def PG_IRQ_RAW.block_irq : Fld := ⟨0x18, 0, 1, 1, 0, 4, 60, .w1c, [0]⟩
def PG_IRQ_RAW.guard_denied : Fld := ⟨0x18, 0, 1, 1, 0, 3, 1, .w1c, [0]⟩
def PG_IRQ_RAW.dual_timeout : Fld := ⟨0x18, 0, 1, 1, 0, 2, 1, .w1c, [0]⟩
def PG_IRQ_RAW.commit_done : Fld := ⟨0x18, 0, 1, 1, 0, 1, 1, .w1c, [0]⟩
def PG_IRQ_RAW.err_latched : Fld := ⟨0x18, 0, 1, 1, 0, 0, 1, .w1c, [0]⟩
-- PG_IRQ_MASK, offset 0x20, near R55
def PG_IRQ_MASK.block_irq : Fld := ⟨0x20, 0, 1, 1, 0, 4, 60, .rw, [0]⟩
def PG_IRQ_MASK.guard_denied : Fld := ⟨0x20, 0, 1, 1, 0, 3, 1, .rw, [0]⟩
def PG_IRQ_MASK.dual_timeout : Fld := ⟨0x20, 0, 1, 1, 0, 2, 1, .rw, [0]⟩
def PG_IRQ_MASK.commit_done : Fld := ⟨0x20, 0, 1, 1, 0, 1, 1, .rw, [0]⟩
def PG_IRQ_MASK.err_latched : Fld := ⟨0x20, 0, 1, 1, 0, 0, 1, .rw, [0]⟩
-- PG_IRQ_PEND, offset 0x28, near R55
def PG_IRQ_PEND.block_irq : Fld := ⟨0x28, 0, 1, 1, 0, 4, 60, .ro, [0]⟩
def PG_IRQ_PEND.guard_denied : Fld := ⟨0x28, 0, 1, 1, 0, 3, 1, .ro, [0]⟩
def PG_IRQ_PEND.dual_timeout : Fld := ⟨0x28, 0, 1, 1, 0, 2, 1, .ro, [0]⟩
def PG_IRQ_PEND.commit_done : Fld := ⟨0x28, 0, 1, 1, 0, 1, 1, .ro, [0]⟩
def PG_IRQ_PEND.err_latched : Fld := ⟨0x28, 0, 1, 1, 0, 0, 1, .ro, [0]⟩
-- PG_ERR_FIRST, offset 0x30, near R56
def PG_ERR_FIRST.code : Fld := ⟨0x30, 0, 1, 1, 0, 48, 16, .ro, [0]⟩
def PG_ERR_FIRST.session : Fld := ⟨0x30, 0, 1, 1, 0, 40, 8, .ro, [0]⟩
def PG_ERR_FIRST.detail : Fld := ⟨0x30, 0, 1, 1, 0, 16, 24, .ro, [0]⟩
def PG_ERR_FIRST.valid : Fld := ⟨0x30, 0, 1, 1, 0, 0, 1, .w1c, [0]⟩
-- PG_ERR_COUNT, offset 0x38, near R56
def PG_ERR_COUNT.count : Fld := ⟨0x38, 0, 1, 1, 0, 0, 48, .rw, [0]⟩
-- PG_SEQ, offset 0x40, near R56
def PG_SEQ.active_bank : Fld := ⟨0x40, 0, 1, 1, 0, 32, 1, .ro, [0]⟩
def PG_SEQ.active_seq : Fld := ⟨0x40, 0, 1, 1, 0, 0, 32, .ro, [0]⟩
-- PG_SHADOW_SEQ, offset 0x48, near R56
def PG_SHADOW_SEQ.shadow_seq : Fld := ⟨0x48, 0, 1, 1, 0, 0, 32, .rw, [0]⟩
-- PG_COMMIT, offset 0x50, near R56
def PG_COMMIT.abort : Fld := ⟨0x50, 0, 1, 1, 0, 32, 1, .wo, [0]⟩
def PG_COMMIT.commit_seq : Fld := ⟨0x50, 0, 1, 1, 0, 0, 32, .wo, [0]⟩
-- PG_GUARD, offset 0x58, near R56
def PG_GUARD.owner : Fld := ⟨0x58, 0, 1, 1, 0, 8, 8, .rw, [255]⟩
def PG_GUARD.locked : Fld := ⟨0x58, 0, 1, 1, 0, 0, 1, .ro, [0]⟩
-- CTL_RING_CFG, offset 0x0, near R59
def CTL_RING_CFG.owner : Fld := ⟨0x0, 0, 1, 1, 0, 56, 8, .ro, [255]⟩
def CTL_RING_CFG.event_ring : Fld := ⟨0x0, 0, 1, 1, 0, 48, 8, .rw, [0]⟩
def CTL_RING_CFG.log2_entries : Fld := ⟨0x0, 0, 1, 1, 0, 1, 4, .rw, [0]⟩
def CTL_RING_CFG.enable : Fld := ⟨0x0, 0, 1, 1, 0, 0, 1, .rw, [0]⟩
-- CTL_RING_DOORBELL, offset 0x8, near R59
def CTL_RING_DOORBELL.producer : Fld := ⟨0x8, 0, 1, 1, 0, 0, 32, .wo, [0]⟩
-- CTL_RING_STATE, offset 0x10, near R59
def CTL_RING_STATE.state : Fld := ⟨0x10, 0, 1, 1, 0, 62, 2, .ro, [0]⟩
def CTL_RING_STATE.stop_reason : Fld := ⟨0x10, 0, 1, 1, 0, 56, 6, .ro, [0]⟩
def CTL_RING_STATE.head : Fld := ⟨0x10, 0, 1, 1, 0, 0, 32, .ro, [0]⟩
-- CTL_RING_CQ_ADDR, offset 0x18, near R59
def CTL_RING_CQ_ADDR.address : Fld := ⟨0x18, 0, 1, 1, 0, 0, 64, .rw, [0]⟩
-- CTL_RING_CQ_CFG, offset 0x20, near R59
def CTL_RING_CQ_CFG.rkey : Fld := ⟨0x20, 0, 1, 1, 0, 32, 32, .rw, [0]⟩
def CTL_RING_CQ_CFG.qp : Fld := ⟨0x20, 0, 1, 1, 0, 24, 8, .rw, [0]⟩
def CTL_RING_CQ_CFG.notify_every : Fld := ⟨0x20, 0, 1, 1, 0, 16, 8, .rw, [0]⟩
def CTL_RING_CQ_CFG.log2_entries : Fld := ⟨0x20, 0, 1, 1, 0, 0, 4, .rw, [0]⟩
-- CTL_RING_CQ_HEAD, offset 0x28, near R59
def CTL_RING_CQ_HEAD.consumed : Fld := ⟨0x28, 0, 1, 1, 0, 0, 32, .rw, [0]⟩
-- CTL_EVR_ADDR, offset 0x0, near R66
def CTL_EVR_ADDR.address : Fld := ⟨0x0, 0, 1, 1, 0, 0, 64, .rw, [0]⟩
-- CTL_EVR_CFG, offset 0x8, near R66
def CTL_EVR_CFG.rkey : Fld := ⟨0x8, 0, 1, 1, 0, 32, 32, .rw, [0]⟩
def CTL_EVR_CFG.qp : Fld := ⟨0x8, 0, 1, 1, 0, 24, 8, .rw, [0]⟩
def CTL_EVR_CFG.owner : Fld := ⟨0x8, 0, 1, 1, 0, 16, 8, .ro, [255]⟩
def CTL_EVR_CFG.severity_floor : Fld := ⟨0x8, 0, 1, 1, 0, 6, 2, .rw, [0]⟩
def CTL_EVR_CFG.alarms : Fld := ⟨0x8, 0, 1, 1, 0, 5, 1, .rw, [0]⟩
def CTL_EVR_CFG.enable : Fld := ⟨0x8, 0, 1, 1, 0, 4, 1, .rw, [0]⟩
def CTL_EVR_CFG.log2_entries : Fld := ⟨0x8, 0, 1, 1, 0, 0, 4, .rw, [0]⟩
-- CTL_EVR_HEAD, offset 0x10, near R66
def CTL_EVR_HEAD.consumed : Fld := ⟨0x10, 0, 1, 1, 0, 0, 32, .rw, [0]⟩
-- CTL_EVR_STATE, offset 0x18, near R66
def CTL_EVR_STATE.dropped : Fld := ⟨0x18, 0, 1, 1, 0, 32, 32, .ro, [0]⟩
def CTL_EVR_STATE.producer : Fld := ⟨0x18, 0, 1, 1, 0, 0, 32, .ro, [0]⟩
-- CTL_PKG_ID, offset 0x100, near R73
def CTL_PKG_ID.part : Fld := ⟨0x100, 0, 1, 1, 0, 32, 16, .ro, [1298]⟩
def CTL_PKG_ID.stepping : Fld := ⟨0x100, 0, 1, 1, 0, 24, 8, .ro, [176]⟩
def CTL_PKG_ID.variant : Fld := ⟨0x100, 0, 1, 1, 0, 16, 8, .ro, [1]⟩
-- CTL_PKG_SERIAL, offset 0x108, near R73
def CTL_PKG_SERIAL.serial : Fld := ⟨0x108, 0, 1, 1, 0, 0, 64, .ro, [0]⟩
-- MGT_MACSEC_CFG, offset 0x100, near R74
def MGT_MACSEC_CFG.replay_window : Fld := ⟨0x100, 0, 1, 1, 0, 32, 16, .rws, [64]⟩
def MGT_MACSEC_CFG.cipher : Fld := ⟨0x100, 0, 1, 1, 0, 8, 2, .rws, [1]⟩
def MGT_MACSEC_CFG.policy : Fld := ⟨0x100, 0, 1, 1, 0, 0, 1, .ro, [0]⟩
-- MGT_MACSEC_STATUS, offset 0x108, near R74
def MGT_MACSEC_STATUS.sak_installs : Fld := ⟨0x108, 0, 1, 1, 0, 32, 32, .ro, [0]⟩
def MGT_MACSEC_STATUS.rx_an : Fld := ⟨0x108, 0, 1, 1, 0, 6, 2, .ro, [0]⟩
def MGT_MACSEC_STATUS.tx_an : Fld := ⟨0x108, 0, 1, 1, 0, 4, 2, .ro, [0]⟩
def MGT_MACSEC_STATUS.mka_live : Fld := ⟨0x108, 0, 1, 1, 0, 0, 1, .ro, [0]⟩
-- MGT_PORT_STATUS, offset 0x110, near R74
def MGT_PORT_STATUS.qps_ready : Fld := ⟨0x110, 0, 1, 1, 0, 8, 8, .ro, [0]⟩
def MGT_PORT_STATUS.training : Fld := ⟨0x110, 0, 1, 1, 0, 1, 1, .ro, [0]⟩
def MGT_PORT_STATUS.link_up : Fld := ⟨0x110, 0, 1, 1, 0, 0, 1, .ro, [0]⟩
-- MGT_SESS_SEL, offset 0x100, near R74
def MGT_SESS_SEL.session : Fld := ⟨0x100, 0, 1, 1, 0, 0, 6, .rw, [0]⟩
-- MGT_SESS_STATUS, offset 0x108, near R74
def MGT_SESS_STATUS.active : Fld := ⟨0x108, 0, 1, 1, 0, 63, 1, .ro, [0]⟩
def MGT_SESS_STATUS.admin : Fld := ⟨0x108, 0, 1, 1, 0, 62, 1, .ro, [0]⟩
def MGT_SESS_STATUS.job : Fld := ⟨0x108, 0, 1, 1, 0, 61, 1, .ro, [0]⟩
def MGT_SESS_STATUS.observe : Fld := ⟨0x108, 0, 1, 1, 0, 60, 1, .ro, [0]⟩
def MGT_SESS_STATUS.slot : Fld := ⟨0x108, 0, 1, 1, 0, 56, 4, .ro, [0]⟩
def MGT_SESS_STATUS.qps : Fld := ⟨0x108, 0, 1, 1, 0, 48, 5, .ro, [0]⟩
def MGT_SESS_STATUS.idle_ms : Fld := ⟨0x108, 0, 1, 1, 0, 0, 32, .ro, [0]⟩
-- MGT_SESS_COUNT, offset 0x110, near R74
def MGT_SESS_COUNT.sessions : Fld := ⟨0x110, 0, 1, 1, 0, 0, 8, .ro, [0]⟩

/-! ### spec/04_optical_ports.md -/

-- OPT_ENG_STATUS, offset 0x100, near R93
def OPT_ENG_STATUS.laser_ok : Fld := ⟨0x100, 0, 1, 1, 0, 40, 8, .ro, [0]⟩
def OPT_ENG_STATUS.lsm_fault : Fld := ⟨0x100, 0, 1, 1, 0, 32, 8, .ro, [0]⟩
def OPT_ENG_STATUS.temp : Fld := ⟨0x100, 0, 1, 1, 0, 16, 16, .ro, [0]⟩
def OPT_ENG_STATUS.lsm_present : Fld := ⟨0x100, 0, 1, 1, 0, 4, 1, .ro, [0]⟩
def OPT_ENG_STATUS.cal_state : Fld := ⟨0x100, 0, 1, 1, 0, 0, 4, .ro, [0]⟩
-- OPT_ENG_CTRL, offset 0x108, near R93
def OPT_ENG_CTRL.recal : Fld := ⟨0x108, 0, 1, 1, 0, 8, 1, .wo, [0]⟩
def OPT_ENG_CTRL.laser_enable : Fld := ⟨0x108, 0, 1, 1, 0, 0, 8, .rws, [255]⟩
-- OPT_LSM_CFG, offset 0x110, near R93
def OPT_LSM_CFG.lsm_addr : Fld := ⟨0x110, 0, 1, 1, 0, 8, 8, .ro, [0]⟩
def OPT_LSM_CFG.laser_low_dbm : Fld := ⟨0x110, 0, 1, 1, 0, 0, 8, .rws, [150]⟩
-- OPT_LASER_PWR, offset 0x118, near R93
def OPT_LASER_PWR.tap_dbm : Fld := ⟨0x118, 0, 8, 8, 8, 0, 8, .ro, [0]⟩
-- OPT_CAL_TIME, offset 0x120, near R93
def OPT_CAL_TIME.cal_count : Fld := ⟨0x120, 0, 1, 1, 0, 32, 32, .rws, [0]⟩
def OPT_CAL_TIME.last_ms : Fld := ⟨0x120, 0, 1, 1, 0, 0, 32, .ro, [0]⟩
-- OPT_PORT_CFG, offset 0x100, near R94
def OPT_PORT_CFG.loopback : Fld := ⟨0x100, 0, 1, 1, 0, 10, 2, .rw, [0]⟩
def OPT_PORT_CFG.breakout : Fld := ⟨0x100, 0, 1, 1, 0, 8, 2, .ro, [0]⟩
def OPT_PORT_CFG.role : Fld := ⟨0x100, 0, 1, 1, 0, 6, 2, .ro, [3]⟩
def OPT_PORT_CFG.sleep : Fld := ⟨0x100, 0, 1, 1, 0, 5, 1, .rw, [0]⟩
def OPT_PORT_CFG.sub_enable : Fld := ⟨0x100, 0, 1, 1, 0, 0, 4, .rw, [0]⟩
-- OPT_PORT_STATE, offset 0x108, near R94
def OPT_PORT_STATE.last_cause : Fld := ⟨0x108, 0, 1, 1, 0, 32, 8, .ro, [0]⟩
def OPT_PORT_STATE.state : Fld := ⟨0x108, 0, 4, 4, 4, 0, 4, .ro, [0]⟩
-- OPT_LANE_RX_PWR, offset 0x118, near R94
def OPT_LANE_RX_PWR.lane : Fld := ⟨0x118, 0, 4, 4, 16, 0, 16, .ro, [0]⟩
-- OPT_LANE_TX_PWR, offset 0x110, near R94
def OPT_LANE_TX_PWR.lane : Fld := ⟨0x110, 0, 4, 4, 16, 0, 16, .ro, [0]⟩
-- OPT_FEC_CORR, offset 0x120, near R94
def OPT_FEC_CORR.count : Fld := ⟨0x120, 0, 1, 1, 0, 0, 48, .ro, [0]⟩
-- OPT_FEC_UNCORR, offset 0x128, near R94
def OPT_FEC_UNCORR.count : Fld := ⟨0x128, 0, 1, 1, 0, 0, 48, .ro, [0]⟩
-- OPT_BER_CFG, offset 0x130, near R94
def OPT_BER_CFG.fault : Fld := ⟨0x130, 0, 1, 1, 0, 32, 32, .rws, [0xc738]⟩
def OPT_BER_CFG.warn : Fld := ⟨0x130, 0, 1, 1, 0, 0, 32, .rws, [2125]⟩
-- OPT_PRBS, offset 0x138, near R94
def OPT_PRBS.chk_lock : Fld := ⟨0x138, 0, 1, 1, 0, 8, 4, .ro, [0]⟩
def OPT_PRBS.gen_pattern : Fld := ⟨0x138, 0, 1, 1, 0, 4, 2, .rw, [0]⟩
def OPT_PRBS.chk_pattern : Fld := ⟨0x138, 0, 1, 1, 0, 0, 2, .rw, [0]⟩

/-! ### spec/05_optical_bypass.md -/

-- BYP_CIRCUIT_MAP, offset 0x100, near R110
def BYP_CIRCUIT_MAP.partner : Fld := ⟨0x100, 8, 32, 8, 8, 0, 8, .ro, [0]⟩
-- BYP_CELL_STATE, offset 0x120, near R110
def BYP_CELL_STATE.cell : Fld := ⟨0x120, 8, 64, 32, 2, 0, 2, .ro, [0]⟩
-- BYP_STATUS, offset 0x130, near R110
def BYP_STATUS.uncertain : Fld := ⟨0x130, 0, 1, 1, 0, 32, 32, .ro, [0]⟩
def BYP_STATUS.circuits : Fld := ⟨0x130, 0, 1, 1, 0, 16, 8, .ro, [0]⟩
def BYP_STATUS.queued : Fld := ⟨0x130, 0, 1, 1, 0, 8, 8, .ro, [0]⟩
def BYP_STATUS.switching : Fld := ⟨0x130, 0, 1, 1, 0, 1, 1, .ro, [0]⟩
def BYP_STATUS.readback_valid : Fld := ⟨0x130, 0, 1, 1, 0, 0, 1, .ro, [0]⟩
-- BYP_MISMATCH, offset 0x138, near R110
def BYP_MISMATCH.unplanned : Fld := ⟨0x138, 0, 1, 1, 0, 32, 32, .ro, [0]⟩
def BYP_MISMATCH.missing : Fld := ⟨0x138, 0, 1, 1, 0, 0, 32, .ro, [0]⟩
-- BYP_LAST_READBACK, offset 0x140, near R110
def BYP_LAST_READBACK.seconds : Fld := ⟨0x140, 0, 1, 1, 0, 30, 34, .ro, [0]⟩
def BYP_LAST_READBACK.nanoseconds : Fld := ⟨0x140, 0, 1, 1, 0, 0, 30, .ro, [0]⟩
-- BYP_WEAR, offset 0x148, near R110
def BYP_WEAR.side : Fld := ⟨0x148, 0, 1, 1, 0, 53, 1, .ro, [0]⟩
def BYP_WEAR.port : Fld := ⟨0x148, 0, 1, 1, 0, 48, 5, .ro, [0]⟩
def BYP_WEAR.max_count : Fld := ⟨0x148, 0, 1, 1, 0, 0, 48, .ro, [0]⟩
-- BYP_CTRL, offset 0x150, near R110
def BYP_CTRL.readback_hours : Fld := ⟨0x150, 0, 1, 1, 0, 8, 8, .rws, [24]⟩
def BYP_CTRL.readback : Fld := ⟨0x150, 0, 1, 1, 0, 0, 1, .wo, [0]⟩

/-! ### spec/07_forwarding_tables.md -/

-- FWD_LEARN_CFG, offset 0x100, near R161
def FWD_LEARN_CFG.flood_enable : Fld := ⟨0x100, 0, 1, 1, 0, 2, 1, .rw, [1]⟩
def FWD_LEARN_CFG.learn_all : Fld := ⟨0x100, 0, 1, 1, 0, 1, 1, .rw, [0]⟩
def FWD_LEARN_CFG.learn_enable : Fld := ⟨0x100, 0, 1, 1, 0, 0, 1, .rw, [1]⟩
-- FWD_AGE_CFG, offset 0x108, near R161
def FWD_AGE_CFG.interval_ms : Fld := ⟨0x108, 0, 1, 1, 0, 0, 32, .rw, [1000]⟩
-- FWD_AGE_STATUS, offset 0x110, near R161
def FWD_AGE_STATUS.sweeps : Fld := ⟨0x110, 0, 1, 1, 0, 32, 32, .ro, [0]⟩
def FWD_AGE_STATUS.active : Fld := ⟨0x110, 0, 1, 1, 0, 19, 1, .ro, [0]⟩
def FWD_AGE_STATUS.slot : Fld := ⟨0x110, 0, 1, 1, 0, 0, 19, .ro, [0]⟩
-- FWD_EP_STATUS, offset 0x118, near R161
def FWD_EP_STATUS.foyer : Fld := ⟨0x118, 0, 1, 1, 0, 40, 9, .ro, [0]⟩
def FWD_EP_STATUS.static_entries : Fld := ⟨0x118, 0, 1, 1, 0, 20, 20, .ro, [0]⟩
def FWD_EP_STATUS.entries : Fld := ⟨0x118, 0, 1, 1, 0, 0, 20, .ro, [0]⟩
-- FWD_EP_STAMP, offset 0x120, near R161
def FWD_EP_STAMP.insert_counter : Fld := ⟨0x120, 0, 1, 1, 0, 0, 32, .ro, [0]⟩
-- FWD_LPM_STATUS, offset 0x128, near R161
def FWD_LPM_STATUS.moving : Fld := ⟨0x128, 0, 1, 1, 0, 48, 1, .ro, [0]⟩
def FWD_LPM_STATUS.scrub_passes : Fld := ⟨0x128, 0, 1, 1, 0, 32, 16, .ro, [0]⟩
def FWD_LPM_STATUS.entries : Fld := ⟨0x128, 0, 1, 1, 0, 0, 15, .ro, [0]⟩
-- FWD_LPM_SCRUB, offset 0x130, near R161
def FWD_LPM_SCRUB.period_ms : Fld := ⟨0x130, 0, 1, 1, 0, 0, 16, .rw, [10]⟩
-- FWD_UR_SEQ, offset 0x138, near R161
def FWD_UR_SEQ.active_bank : Fld := ⟨0x138, 0, 1, 1, 0, 32, 1, .ro, [0]⟩
def FWD_UR_SEQ.active_seq : Fld := ⟨0x138, 0, 1, 1, 0, 0, 32, .ro, [0]⟩
-- FWD_GR_SEQ, offset 0x140, near R161
def FWD_GR_SEQ.active_bank : Fld := ⟨0x140, 0, 1, 1, 0, 32, 1, .ro, [0]⟩
def FWD_GR_SEQ.active_seq : Fld := ⟨0x140, 0, 1, 1, 0, 0, 32, .ro, [0]⟩
-- FWD_ROUTE_REFUSAL, offset 0x148, near R161
def FWD_ROUTE_REFUSAL.table : Fld := ⟨0x148, 0, 1, 1, 0, 56, 8, .ro, [0]⟩
def FWD_ROUTE_REFUSAL.index : Fld := ⟨0x148, 0, 1, 1, 0, 48, 8, .ro, [0]⟩
def FWD_ROUTE_REFUSAL.slot : Fld := ⟨0x148, 0, 1, 1, 0, 40, 8, .ro, [0]⟩
def FWD_ROUTE_REFUSAL.reason : Fld := ⟨0x148, 0, 1, 1, 0, 0, 8, .ro, [0]⟩
-- FWD_LEARN_QUEUE, offset 0x150, near R161
def FWD_LEARN_QUEUE.high_water : Fld := ⟨0x150, 0, 1, 1, 0, 16, 13, .rw, [0]⟩
def FWD_LEARN_QUEUE.occupancy : Fld := ⟨0x150, 0, 1, 1, 0, 0, 13, .ro, [0]⟩

/-! ### spec/08_switch_core_and_buffers.md -/

-- SWP_PARSE_CFG, offset 0x100, near R179
def SWP_PARSE_CFG.hjt_port : Fld := ⟨0x100, 0, 1, 1, 0, 0, 16, .rw, [0xb3c4]⟩
-- SWP_DSCP_MAP, offset 0x108, near R179
def SWP_DSCP_MAP.cls : Fld := ⟨0x108, 8, 64, 16, 4, 0, 3, .rw, [0, 0, 0, 0, 0, 0, 0, 0, 1, 1, 1, 1, 1, 1, 1, 1, 2, 2, 2, 2, 2, 2, 2, 2, 3, 3, 3, 3, 3, 3, 3, 3, 4, 4, 4, 4, 4, 4, 4, 4, 5, 5, 5, 5, 5, 5, 5, 5, 6, 6, 6, 6, 6, 6, 6, 6, 7, 7, 7, 7, 7, 7, 7, 7]⟩
-- SWP_CLASS_KIND, offset 0x128, near R179
def SWP_CLASS_KIND.hold_mask : Fld := ⟨0x128, 0, 1, 1, 0, 0, 8, .ro, [196]⟩
-- SWP_LAST_DISCARD, offset 0x130, near R179
def SWP_LAST_DISCARD.reason : Fld := ⟨0x130, 0, 1, 1, 0, 56, 8, .ro, [0]⟩
def SWP_LAST_DISCARD.cls : Fld := ⟨0x130, 0, 1, 1, 0, 48, 3, .ro, [0]⟩
def SWP_LAST_DISCARD.port : Fld := ⟨0x130, 0, 1, 1, 0, 32, 9, .ro, [0]⟩
def SWP_LAST_DISCARD.discards : Fld := ⟨0x130, 0, 1, 1, 0, 0, 32, .ro, [0]⟩
-- BUF_POOL_SIZE, offset 0x100, near R180
def BUF_POOL_SIZE.result : Fld := ⟨0x100, 0, 1, 1, 0, 40, 20, .rw, [0x20000]⟩
def BUF_POOL_SIZE.request : Fld := ⟨0x100, 0, 1, 1, 0, 20, 20, .rw, [0x8000]⟩
def BUF_POOL_SIZE.reply : Fld := ⟨0x100, 0, 1, 1, 0, 0, 20, .rw, [0x8000]⟩
-- BUF_HOLD_CFG, offset 0x108, near R180
def BUF_HOLD_CFG.hold_floor : Fld := ⟨0x108, 0, 1, 1, 0, 32, 20, .rw, [0x10000]⟩
def BUF_HOLD_CFG.xon_delta : Fld := ⟨0x108, 0, 1, 1, 0, 16, 16, .rw, [64]⟩
def BUF_HOLD_CFG.refresh_ns : Fld := ⟨0x108, 0, 1, 1, 0, 0, 16, .rw, [0x2710]⟩
-- BUF_ALPHA, offset 0x110, near R180
def BUF_ALPHA.alpha : Fld := ⟨0x110, 0, 8, 8, 4, 0, 4, .rw, [7, 8, 7, 6, 6, 4, 7, 7]⟩
-- BUF_MC_CFG, offset 0x118, near R180
def BUF_MC_CFG.residency_us : Fld := ⟨0x118, 0, 1, 1, 0, 0, 20, .rw, [200]⟩
-- BUF_DEEP_CFG, offset 0x120, near R180
def BUF_DEEP_CFG.spill_treads : Fld := ⟨0x120, 0, 1, 1, 0, 28, 20, .rw, [0x4000]⟩
def BUF_DEEP_CFG.size_gib : Fld := ⟨0x120, 0, 1, 1, 0, 0, 5, .rws, [4]⟩
-- BUF_FREE, offset 0x128, near R180
def BUF_FREE.sram : Fld := ⟨0x128, 0, 1, 1, 0, 40, 20, .ro, [0]⟩
def BUF_FREE.deep : Fld := ⟨0x128, 0, 1, 1, 0, 0, 27, .ro, [0]⟩
-- BUF_HEADROOM, offset 0x130, near R180
def BUF_HEADROOM.sram : Fld := ⟨0x130, 0, 1, 1, 0, 40, 20, .ro, [0]⟩
def BUF_HEADROOM.deep : Fld := ⟨0x130, 0, 1, 1, 0, 0, 27, .ro, [0]⟩
-- BUF_POOL_USE0, offset 0x138, near R180
def BUF_POOL_USE0.result_used : Fld := ⟨0x138, 0, 1, 1, 0, 40, 20, .ro, [0]⟩
def BUF_POOL_USE0.request_used : Fld := ⟨0x138, 0, 1, 1, 0, 20, 20, .ro, [0]⟩
def BUF_POOL_USE0.reply_used : Fld := ⟨0x138, 0, 1, 1, 0, 0, 20, .ro, [0]⟩
-- BUF_POOL_USE1, offset 0x140, near R180
def BUF_POOL_USE1.forward_size : Fld := ⟨0x140, 0, 1, 1, 0, 40, 20, .ro, [0]⟩
def BUF_POOL_USE1.forward_used : Fld := ⟨0x140, 0, 1, 1, 0, 20, 20, .ro, [0]⟩
def BUF_POOL_USE1.headroom_used : Fld := ⟨0x140, 0, 1, 1, 0, 0, 20, .ro, [0]⟩

/-! ### spec/09_routing_spraying_deadlock.md -/

-- GAL_TOPO, offset 0x100, near R202
def GAL_TOPO.cube_order : Fld := ⟨0x100, 0, 1, 1, 0, 32, 8, .ro, [0]⟩
def GAL_TOPO.ring_pos : Fld := ⟨0x100, 0, 1, 1, 0, 24, 8, .ro, [0]⟩
def GAL_TOPO.pred_hall : Fld := ⟨0x100, 0, 1, 1, 0, 16, 8, .ro, [0]⟩
def GAL_TOPO.pred_group : Fld := ⟨0x100, 0, 1, 1, 0, 12, 4, .ro, [0]⟩
def GAL_TOPO.succ_group : Fld := ⟨0x100, 0, 1, 1, 0, 8, 4, .ro, [0]⟩
def GAL_TOPO.succ_hall : Fld := ⟨0x100, 0, 1, 1, 0, 0, 8, .ro, [0]⟩
-- GAL_SPRAY_CFG, offset 0x108, near R202
def GAL_SPRAY_CFG.decay_ns : Fld := ⟨0x108, 0, 1, 1, 0, 16, 16, .rw, [1000]⟩
def GAL_SPRAY_CFG.per_packet : Fld := ⟨0x108, 0, 1, 1, 0, 0, 8, .rw, [7]⟩
-- GAL_ADAPT_CFG, offset 0x110, near R202
def GAL_ADAPT_CFG.escape_us : Fld := ⟨0x110, 0, 1, 1, 0, 32, 16, .rw, [5]⟩
def GAL_ADAPT_CFG.open_treads : Fld := ⟨0x110, 0, 1, 1, 0, 0, 20, .rw, [4096]⟩
-- GAL_BANISTER_CFG, offset 0x118, near R202
def GAL_BANISTER_CFG.ring_treads : Fld := ⟨0x118, 0, 1, 1, 0, 0, 16, .rw, [1024]⟩
-- GAL_BANISTER_STATUS, offset 0x120, near R202
def GAL_BANISTER_STATUS.escapes : Fld := ⟨0x120, 0, 1, 1, 0, 32, 32, .ro, [0]⟩
def GAL_BANISTER_STATUS.desc_used : Fld := ⟨0x120, 0, 1, 1, 0, 16, 16, .ro, [0]⟩
def GAL_BANISTER_STATUS.asc_used : Fld := ⟨0x120, 0, 1, 1, 0, 0, 16, .ro, [0]⟩
-- GAL_DRAIN_STATUS, offset 0x128, near R202
def GAL_DRAIN_STATUS.active : Fld := ⟨0x128, 0, 1, 1, 0, 63, 1, .ro, [0]⟩
def GAL_DRAIN_STATUS.expired : Fld := ⟨0x128, 0, 1, 1, 0, 62, 1, .ro, [0]⟩
def GAL_DRAIN_STATUS.table : Fld := ⟨0x128, 0, 1, 1, 0, 48, 8, .ro, [0]⟩
def GAL_DRAIN_STATUS.duration_us : Fld := ⟨0x128, 0, 1, 1, 0, 32, 16, .ro, [0]⟩
def GAL_DRAIN_STATUS.discarded : Fld := ⟨0x128, 0, 1, 1, 0, 0, 32, .ro, [0]⟩
-- GAL_HEALTH, offset 0x140, near R202
def GAL_HEALTH.health : Fld := ⟨0x140, 8, 128, 16, 4, 0, 4, .rw, [8]⟩
-- GAL_JOB_MAP, offset 0x180, near R202
def GAL_JOB_MAP.job : Fld := ⟨0x180, 8, 64, 4, 16, 0, 16, .rw, [0]⟩
-- GAL_SLOT_CFG, offset 0x200, near R202
def GAL_SLOT_CFG.burst_kib : Fld := ⟨0x200, 8, 64, 1, 0, 48, 16, .rw, [64]⟩
def GAL_SLOT_CFG.rate_gbps : Fld := ⟨0x200, 8, 64, 1, 0, 32, 10, .rw, [800]⟩
def GAL_SLOT_CFG.weight : Fld := ⟨0x200, 8, 64, 1, 0, 0, 8, .rw, [16]⟩

/-! ### spec/10_scheduling_shaping_time_gates.md -/

-- SCH_DIE_CFG, offset 0x100, near R219
def SCH_DIE_CFG.sample_us : Fld := ⟨0x100, 0, 1, 1, 0, 0, 16, .rw, [1]⟩
-- SCH_TEL_PORTS, offset 0x108, near R219
def SCH_TEL_PORTS.ports : Fld := ⟨0x108, 8, 2, 1, 0, 0, 64, .rw, [0xffffffffffffffff]⟩
-- SCH_TEL_PRODUCER, offset 0x118, near R219
def SCH_TEL_PRODUCER.producer : Fld := ⟨0x118, 0, 1, 1, 0, 0, 64, .ro, [0]⟩
-- SCH_TEL_STATUS, offset 0x120, near R219
def SCH_TEL_STATUS.skipped : Fld := ⟨0x120, 0, 1, 1, 0, 32, 32, .ro, [0]⟩
def SCH_TEL_STATUS.last_records : Fld := ⟨0x120, 0, 1, 1, 0, 0, 32, .ro, [0]⟩
-- SCH_QSHAPE, offset 0x100, near R220
def SCH_QSHAPE.burst_kib : Fld := ⟨0x100, 8, 32, 1, 0, 48, 16, .rw, [64]⟩
def SCH_QSHAPE.enable : Fld := ⟨0x100, 8, 32, 1, 0, 47, 1, .rw, [0]⟩
def SCH_QSHAPE.rate_mbps : Fld := ⟨0x100, 8, 32, 1, 0, 0, 20, .rw, [0xc3500]⟩
-- SCH_POLICER, offset 0x200, near R220
def SCH_POLICER.burst_kib : Fld := ⟨0x200, 8, 32, 1, 0, 48, 16, .rw, [64]⟩
def SCH_POLICER.enable : Fld := ⟨0x200, 8, 32, 1, 0, 47, 1, .rw, [0]⟩
def SCH_POLICER.rate_mbps : Fld := ⟨0x200, 8, 32, 1, 0, 0, 20, .rw, [0xc3500]⟩
-- SCH_WEIGHT, offset 0x300, near R220
def SCH_WEIGHT.weight : Fld := ⟨0x300, 8, 32, 8, 8, 0, 8, .rw, [64, 64, 64, 16, 16, 4, 16, 16]⟩
-- SCH_CREDIT_CAP, offset 0x320, near R220
def SCH_CREDIT_CAP.cap : Fld := ⟨0x320, 0, 8, 8, 8, 0, 8, .rw, [64]⟩
-- SCH_PORT_CFG, offset 0x328, near R220
def SCH_PORT_CFG.strict_mask : Fld := ⟨0x328, 0, 1, 1, 0, 0, 8, .rw, [192]⟩
-- SCH_GATE_ADMIN_CFG, offset 0x330, near R220
def SCH_GATE_ADMIN_CFG.enable : Fld := ⟨0x330, 0, 1, 1, 0, 40, 1, .rw, [0]⟩
def SCH_GATE_ADMIN_CFG.default_states : Fld := ⟨0x330, 0, 1, 1, 0, 32, 8, .rw, [255]⟩
def SCH_GATE_ADMIN_CFG.length : Fld := ⟨0x330, 0, 1, 1, 0, 0, 9, .rw, [0]⟩
-- SCH_GATE_ADMIN_CYCLE, offset 0x338, near R220
def SCH_GATE_ADMIN_CYCLE.cycle_ns : Fld := ⟨0x338, 0, 1, 1, 0, 0, 30, .rw, [0xf4240]⟩
-- SCH_GATE_OPER_CYCLE, offset 0x360, near R220
def SCH_GATE_OPER_CYCLE.cycle_ns : Fld := ⟨0x360, 0, 1, 1, 0, 0, 30, .ro, [0xf4240]⟩
-- SCH_GATE_ADMIN_BASE, offset 0x340, near R220
def SCH_GATE_ADMIN_BASE.seconds : Fld := ⟨0x340, 0, 1, 1, 0, 30, 34, .rw, [0]⟩
def SCH_GATE_ADMIN_BASE.nanoseconds : Fld := ⟨0x340, 0, 1, 1, 0, 0, 30, .rw, [0]⟩
-- SCH_GATE_CHANGE_TIME, offset 0x358, near R220
def SCH_GATE_CHANGE_TIME.seconds : Fld := ⟨0x358, 0, 1, 1, 0, 30, 34, .ro, [0]⟩
def SCH_GATE_CHANGE_TIME.nanoseconds : Fld := ⟨0x358, 0, 1, 1, 0, 0, 30, .ro, [0]⟩
-- SCH_GATE_CHANGE, offset 0x348, near R220
def SCH_GATE_CHANGE.cancel : Fld := ⟨0x348, 0, 1, 1, 0, 1, 1, .wo, [0]⟩
def SCH_GATE_CHANGE.request : Fld := ⟨0x348, 0, 1, 1, 0, 0, 1, .wo, [0]⟩
-- SCH_GATE_STATUS, offset 0x350, near R220
def SCH_GATE_STATUS.change_pending : Fld := ⟨0x350, 0, 1, 1, 0, 63, 1, .ro, [0]⟩
def SCH_GATE_STATUS.oper_enable : Fld := ⟨0x350, 0, 1, 1, 0, 62, 1, .ro, [0]⟩
def SCH_GATE_STATUS.refusal : Fld := ⟨0x350, 0, 1, 1, 0, 48, 8, .ro, [0]⟩
def SCH_GATE_STATUS.oper_states : Fld := ⟨0x350, 0, 1, 1, 0, 40, 8, .ro, [255]⟩
def SCH_GATE_STATUS.oper_entry : Fld := ⟨0x350, 0, 1, 1, 0, 0, 9, .ro, [0]⟩
-- SCH_GATE_VIEW, offset 0x368, near R220
def SCH_GATE_VIEW.view : Fld := ⟨0x368, 0, 1, 1, 0, 0, 1, .rw, [0]⟩
-- SCH_GATE_ENTRY, offset 0x600, near R220
def SCH_GATE_ENTRY.states : Fld := ⟨0x600, 8, 256, 1, 0, 32, 8, .rw, [0]⟩
def SCH_GATE_ENTRY.interval_ns : Fld := ⟨0x600, 8, 256, 1, 0, 0, 32, .rw, [0]⟩

/-! ### spec/12_exact_reduction.md -/

-- XSE_CFG, offset 0x100, near R262
def XSE_CFG.linear_verify : Fld := ⟨0x100, 0, 1, 1, 0, 0, 1, .rws, [1]⟩
-- XSE_STATUS, offset 0x108, near R262
def XSE_STATUS.queue_depth : Fld := ⟨0x108, 0, 1, 1, 0, 32, 7, .ro, [0]⟩
def XSE_STATUS.e1_busy : Fld := ⟨0x108, 0, 1, 1, 0, 1, 1, .ro, [0]⟩
def XSE_STATUS.e0_busy : Fld := ⟨0x108, 0, 1, 1, 0, 0, 1, .ro, [0]⟩
-- XSE_RESIDUE, offset 0x110, near R262
def XSE_RESIDUE.unit : Fld := ⟨0x110, 0, 1, 1, 0, 61, 3, .ro, [0]⟩
def XSE_RESIDUE.engine : Fld := ⟨0x110, 0, 1, 1, 0, 60, 1, .ro, [0]⟩
def XSE_RESIDUE.expected : Fld := ⟨0x110, 0, 1, 1, 0, 53, 7, .ro, [0]⟩
def XSE_RESIDUE.observed : Fld := ⟨0x110, 0, 1, 1, 0, 46, 7, .ro, [0]⟩
def XSE_RESIDUE.count : Fld := ⟨0x110, 0, 1, 1, 0, 0, 32, .ro, [0]⟩
-- XSE_LINEAR, offset 0x118, near R262
def XSE_LINEAR.group : Fld := ⟨0x118, 0, 1, 1, 0, 48, 16, .ro, [0]⟩
def XSE_LINEAR.step : Fld := ⟨0x118, 0, 1, 1, 0, 32, 16, .ro, [0]⟩
def XSE_LINEAR.chunk : Fld := ⟨0x118, 0, 1, 1, 0, 0, 32, .ro, [0]⟩
-- XSE_LINEAR_COUNT, offset 0x120, near R262
def XSE_LINEAR_COUNT.mismatched : Fld := ⟨0x120, 0, 1, 1, 0, 32, 32, .ro, [0]⟩
def XSE_LINEAR_COUNT.verified : Fld := ⟨0x120, 0, 1, 1, 0, 0, 32, .ro, [0]⟩
-- XSE_INJECT, offset 0x128, near R262
def XSE_INJECT.engine : Fld := ⟨0x128, 0, 1, 1, 0, 4, 1, .wo, [0]⟩
def XSE_INJECT.unit : Fld := ⟨0x128, 0, 1, 1, 0, 1, 3, .wo, [0]⟩
def XSE_INJECT.arm : Fld := ⟨0x128, 0, 1, 1, 0, 0, 1, .wo, [0]⟩

/-! ### spec/13_landings_and_collectives.md -/

-- LND_CORE_BUDGET, offset 0x100, near R290
def LND_CORE_BUDGET.ctx : Fld := ⟨0x100, 8, 8, 1, 0, 32, 12, .rw, [2048]⟩
def LND_CORE_BUDGET.sram_kib : Fld := ⟨0x100, 8, 8, 1, 0, 0, 15, .rw, [0x4000]⟩
-- LND_CORE_USE, offset 0x140, near R290
def LND_CORE_USE.ctx : Fld := ⟨0x140, 8, 8, 1, 0, 32, 12, .ro, [0]⟩
def LND_CORE_USE.sram_kib : Fld := ⟨0x140, 8, 8, 1, 0, 0, 15, .ro, [0]⟩
-- LND_JOB_SEL, offset 0x180, near R290
def LND_JOB_SEL.job : Fld := ⟨0x180, 0, 1, 1, 0, 0, 16, .rw, [0]⟩
-- LND_JOB_QUOTA, offset 0x188, near R290
def LND_JOB_QUOTA.sram_kib : Fld := ⟨0x188, 0, 1, 1, 0, 32, 20, .ro, [0]⟩
def LND_JOB_QUOTA.ctx : Fld := ⟨0x188, 0, 1, 1, 0, 0, 17, .ro, [0]⟩
-- LND_JOB_USE, offset 0x190, near R290
def LND_JOB_USE.sram_kib : Fld := ⟨0x190, 0, 1, 1, 0, 32, 20, .ro, [0]⟩
def LND_JOB_USE.ctx : Fld := ⟨0x190, 0, 1, 1, 0, 0, 17, .ro, [0]⟩
-- LND_DIR_STATUS, offset 0x198, near R290
def LND_DIR_STATUS.pass : Fld := ⟨0x198, 0, 1, 1, 0, 32, 16, .ro, [0]⟩
def LND_DIR_STATUS.tombstones : Fld := ⟨0x198, 0, 1, 1, 0, 16, 16, .ro, [0]⟩
def LND_DIR_STATUS.entries : Fld := ⟨0x198, 0, 1, 1, 0, 0, 16, .ro, [0]⟩
-- LND_LAST_REFUSAL, offset 0x1A0, near R290
def LND_LAST_REFUSAL.group : Fld := ⟨0x1A0, 0, 1, 1, 0, 48, 16, .ro, [0]⟩
def LND_LAST_REFUSAL.job : Fld := ⟨0x1A0, 0, 1, 1, 0, 32, 16, .ro, [0]⟩
def LND_LAST_REFUSAL.reason : Fld := ⟨0x1A0, 0, 1, 1, 0, 16, 8, .ro, [0]⟩
def LND_LAST_REFUSAL.core : Fld := ⟨0x1A0, 0, 1, 1, 0, 0, 5, .ro, [0]⟩
-- GRP_ENTRY_SEL, offset 0x100, near R291
def GRP_ENTRY_SEL.group : Fld := ⟨0x100, 0, 1, 1, 0, 0, 16, .rw, [0]⟩
-- GRP_ENTRY, offset 0x108, near R291
def GRP_ENTRY.quadword : Fld := ⟨0x108, 8, 8, 1, 0, 0, 64, .ro, [0]⟩
-- GRP_REPL_SEL, offset 0x148, near R291
def GRP_REPL_SEL.op : Fld := ⟨0x148, 0, 1, 1, 0, 62, 2, .wo, [0]⟩
def GRP_REPL_SEL.set : Fld := ⟨0x148, 0, 1, 1, 0, 0, 14, .rw, [0]⟩
-- GRP_REPL_MAP, offset 0x150, near R291
def GRP_REPL_MAP.ports : Fld := ⟨0x150, 8, 8, 1, 0, 0, 64, .rw, [0]⟩
-- GRP_STATUS, offset 0x190, near R291
def GRP_STATUS.enabled : Fld := ⟨0x190, 0, 1, 1, 0, 32, 17, .ro, [0]⟩
def GRP_STATUS.records : Fld := ⟨0x190, 0, 1, 1, 0, 0, 32, .ro, [0]⟩
-- TRG_SEL, offset 0x100, near R292
def TRG_SEL.index : Fld := ⟨0x100, 0, 1, 1, 0, 0, 14, .rw, [0]⟩
-- TRG_STATE, offset 0x108, near R292
def TRG_STATE.state : Fld := ⟨0x108, 0, 1, 1, 0, 62, 2, .ro, [0]⟩
def TRG_STATE.auto_rearm : Fld := ⟨0x108, 0, 1, 1, 0, 61, 1, .ro, [0]⟩
def TRG_STATE.count : Fld := ⟨0x108, 0, 1, 1, 0, 0, 32, .ro, [0]⟩
-- TRG_SOURCE, offset 0x110, near R292
def TRG_SOURCE.operand : Fld := ⟨0x110, 0, 1, 1, 0, 0, 64, .ro, [0]⟩
-- TRG_ACTION, offset 0x118, near R292
def TRG_ACTION.operand : Fld := ⟨0x118, 0, 1, 1, 0, 0, 64, .ro, [0]⟩
-- TRG_TAG, offset 0x120, near R292
def TRG_TAG.operand : Fld := ⟨0x120, 0, 1, 1, 0, 0, 64, .ro, [0]⟩
-- TRG_LAST_FIRED, offset 0x128, near R292
def TRG_LAST_FIRED.fires : Fld := ⟨0x128, 0, 1, 1, 0, 32, 32, .ro, [0]⟩
def TRG_LAST_FIRED.index : Fld := ⟨0x128, 0, 1, 1, 0, 0, 14, .ro, [0]⟩

/-! ### spec/14_matrix_arrays.md -/

-- ARR_CFG, offset 0x100, near R311
def ARR_CFG.kat_seed : Fld := ⟨0x100, 0, 1, 1, 0, 16, 8, .rws, [1]⟩
def ARR_CFG.filler_enable : Fld := ⟨0x100, 0, 1, 1, 0, 0, 1, .rws, [1]⟩
-- ARR_STATUS, offset 0x108, near R311
def ARR_STATUS.bank1_tag : Fld := ⟨0x108, 0, 1, 1, 0, 48, 16, .ro, [0]⟩
def ARR_STATUS.bank0_tag : Fld := ⟨0x108, 0, 1, 1, 0, 32, 16, .ro, [0]⟩
def ARR_STATUS.bank1_state : Fld := ⟨0x108, 0, 1, 1, 0, 30, 2, .ro, [0]⟩
def ARR_STATUS.bank0_state : Fld := ⟨0x108, 0, 1, 1, 0, 28, 2, .ro, [0]⟩
def ARR_STATUS.log2_fold : Fld := ⟨0x108, 0, 1, 1, 0, 24, 4, .ro, [0]⟩
def ARR_STATUS.duty : Fld := ⟨0x108, 0, 1, 1, 0, 16, 8, .ro, [128]⟩
def ARR_STATUS.ramping : Fld := ⟨0x108, 0, 1, 1, 0, 2, 1, .ro, [0]⟩
def ARR_STATUS.filler_active : Fld := ⟨0x108, 0, 1, 1, 0, 1, 1, .ro, [0]⟩
def ARR_STATUS.pass_active : Fld := ⟨0x108, 0, 1, 1, 0, 0, 1, .ro, [0]⟩
-- ARR_PASS_COUNT, offset 0x110, near R311
def ARR_PASS_COUNT.abandoned : Fld := ⟨0x110, 0, 1, 1, 0, 32, 32, .ro, [0]⟩
def ARR_PASS_COUNT.completed : Fld := ⟨0x110, 0, 1, 1, 0, 0, 32, .ro, [0]⟩
-- ARR_STALL, offset 0x118, near R311
def ARR_STALL.drain_stall_cycles : Fld := ⟨0x118, 0, 1, 1, 0, 32, 32, .ro, [0]⟩
def ARR_STALL.queued : Fld := ⟨0x118, 0, 1, 1, 0, 0, 7, .ro, [0]⟩
-- ARR_FILLER, offset 0x120, near R311
def ARR_FILLER.kat_fail : Fld := ⟨0x120, 0, 1, 1, 0, 32, 32, .ro, [0]⟩
def ARR_FILLER.filler_passes : Fld := ⟨0x120, 0, 1, 1, 0, 0, 32, .ro, [0]⟩
-- ARR_FAULT, offset 0x128, near R311
def ARR_FAULT.reason : Fld := ⟨0x128, 0, 1, 1, 0, 60, 4, .ro, [0]⟩
def ARR_FAULT.unit : Fld := ⟨0x128, 0, 1, 1, 0, 56, 4, .ro, [0]⟩
def ARR_FAULT.row : Fld := ⟨0x128, 0, 1, 1, 0, 49, 7, .ro, [0]⟩
def ARR_FAULT.column : Fld := ⟨0x128, 0, 1, 1, 0, 42, 7, .ro, [0]⟩
def ARR_FAULT.expected : Fld := ⟨0x128, 0, 1, 1, 0, 35, 7, .ro, [0]⟩
def ARR_FAULT.observed : Fld := ⟨0x128, 0, 1, 1, 0, 28, 7, .ro, [0]⟩
def ARR_FAULT.tag : Fld := ⟨0x128, 0, 1, 1, 0, 0, 16, .ro, [0]⟩
-- ARR_RAMP, offset 0x130, near R311
def ARR_RAMP.last_wait_ns : Fld := ⟨0x130, 0, 1, 1, 0, 32, 32, .ro, [0]⟩
def ARR_RAMP.last_gap_ns : Fld := ⟨0x130, 0, 1, 1, 0, 0, 32, .ro, [0]⟩
-- ARR_INJECT, offset 0x138, near R311
def ARR_INJECT.column : Fld := ⟨0x138, 0, 1, 1, 0, 11, 7, .wo, [0]⟩
def ARR_INJECT.row : Fld := ⟨0x138, 0, 1, 1, 0, 4, 7, .wo, [0]⟩
def ARR_INJECT.unit : Fld := ⟨0x138, 0, 1, 1, 0, 1, 3, .wo, [0]⟩
def ARR_INJECT.arm : Fld := ⟨0x138, 0, 1, 1, 0, 0, 1, .wo, [0]⟩

/-! ### spec/15_flight_programs.md -/

-- CMB_CFG, offset 0x100, near R336
def CMB_CFG.max_steps : Fld := ⟨0x100, 0, 1, 1, 0, 0, 32, .rws, [0x10000]⟩
-- CMB_SLOT_SEL, offset 0x108, near R336
def CMB_SLOT_SEL.slot : Fld := ⟨0x108, 0, 1, 1, 0, 0, 6, .rw, [0]⟩
-- CMB_SLOT_STATUS, offset 0x110, near R336
def CMB_SLOT_STATUS.loaded : Fld := ⟨0x110, 0, 1, 1, 0, 63, 1, .ro, [0]⟩
def CMB_SLOT_STATUS.loading : Fld := ⟨0x110, 0, 1, 1, 0, 62, 1, .ro, [0]⟩
def CMB_SLOT_STATUS.length : Fld := ⟨0x110, 0, 1, 1, 0, 48, 10, .ro, [0]⟩
def CMB_SLOT_STATUS.job : Fld := ⟨0x110, 0, 1, 1, 0, 32, 16, .ro, [0]⟩
def CMB_SLOT_STATUS.crc : Fld := ⟨0x110, 0, 1, 1, 0, 0, 32, .ro, [0]⟩
-- CMB_SLOT_USE, offset 0x118, near R336
def CMB_SLOT_USE.activations : Fld := ⟨0x118, 0, 1, 1, 0, 32, 32, .ro, [0]⟩
def CMB_SLOT_USE.landings : Fld := ⟨0x118, 0, 1, 1, 0, 0, 12, .ro, [0]⟩
-- CMB_ACT_STATUS, offset 0x120, near R336
def CMB_ACT_STATUS.active : Fld := ⟨0x120, 0, 1, 1, 0, 32, 4, .ro, [0]⟩
def CMB_ACT_STATUS.waiting : Fld := ⟨0x120, 0, 1, 1, 0, 16, 16, .ro, [0]⟩
def CMB_ACT_STATUS.outstanding : Fld := ⟨0x120, 0, 1, 1, 0, 0, 7, .ro, [0]⟩
-- CMB_FAULT, offset 0x128, near R336
def CMB_FAULT.reason : Fld := ⟨0x128, 0, 1, 1, 0, 60, 4, .ro, [0]⟩
def CMB_FAULT.slot : Fld := ⟨0x128, 0, 1, 1, 0, 54, 6, .ro, [0]⟩
def CMB_FAULT.pc : Fld := ⟨0x128, 0, 1, 1, 0, 45, 9, .ro, [0]⟩
def CMB_FAULT.group : Fld := ⟨0x128, 0, 1, 1, 0, 16, 16, .ro, [0]⟩
def CMB_FAULT.job : Fld := ⟨0x128, 0, 1, 1, 0, 0, 16, .ro, [0]⟩
-- CMB_FAULT_WORD, offset 0x130, near R336
def CMB_FAULT_WORD.count : Fld := ⟨0x130, 0, 1, 1, 0, 32, 32, .ro, [0]⟩
def CMB_FAULT_WORD.instruction : Fld := ⟨0x130, 0, 1, 1, 0, 0, 32, .ro, [0]⟩
-- VEC_STATUS, offset 0x100, near R337
def VEC_STATUS.busy : Fld := ⟨0x100, 0, 1, 1, 0, 0, 16, .ro, [0]⟩
-- VEC_RESIDUE, offset 0x108, near R337
def VEC_RESIDUE.engine : Fld := ⟨0x108, 0, 1, 1, 0, 60, 4, .ro, [0]⟩
def VEC_RESIDUE.unit : Fld := ⟨0x108, 0, 1, 1, 0, 57, 3, .ro, [0]⟩
def VEC_RESIDUE.expected : Fld := ⟨0x108, 0, 1, 1, 0, 50, 7, .ro, [0]⟩
def VEC_RESIDUE.observed : Fld := ⟨0x108, 0, 1, 1, 0, 43, 7, .ro, [0]⟩
def VEC_RESIDUE.lane : Fld := ⟨0x108, 0, 1, 1, 0, 37, 6, .ro, [0]⟩
def VEC_RESIDUE.count : Fld := ⟨0x108, 0, 1, 1, 0, 0, 32, .ro, [0]⟩
-- VEC_INJECT, offset 0x110, near R337
def VEC_INJECT.lane : Fld := ⟨0x110, 0, 1, 1, 0, 8, 6, .wo, [0]⟩
def VEC_INJECT.engine : Fld := ⟨0x110, 0, 1, 1, 0, 4, 4, .wo, [0]⟩
def VEC_INJECT.unit : Fld := ⟨0x110, 0, 1, 1, 0, 1, 3, .wo, [0]⟩
def VEC_INJECT.arm : Fld := ⟨0x110, 0, 1, 1, 0, 0, 1, .wo, [0]⟩

/-! ### spec/16_compressed_gallery_crossings.md -/

-- GAL_RES_CFG, offset 0x400, near R350
def GAL_RES_CFG.spill_gib : Fld := ⟨0x400, 0, 1, 1, 0, 32, 16, .rws, [16]⟩
def GAL_RES_CFG.dram_mib : Fld := ⟨0x400, 0, 1, 1, 0, 0, 16, .rws, [2048]⟩
-- GAL_RES_STATUS, offset 0x408, near R350
def GAL_RES_STATUS.spilled_areas : Fld := ⟨0x408, 0, 1, 1, 0, 32, 32, .ro, [0]⟩
def GAL_RES_STATUS.dram_areas : Fld := ⟨0x408, 0, 1, 1, 0, 0, 32, .ro, [0]⟩
-- GAL_RES_SEL, offset 0x410, near R350
def GAL_RES_SEL.chunk : Fld := ⟨0x410, 0, 1, 1, 0, 32, 32, .rw, [0]⟩
def GAL_RES_SEL.group : Fld := ⟨0x410, 0, 1, 1, 0, 0, 16, .rw, [0]⟩
-- GAL_RES_AREA, offset 0x418, near R350
def GAL_RES_AREA.allocated : Fld := ⟨0x418, 0, 1, 1, 0, 63, 1, .ro, [0]⟩
def GAL_RES_AREA.spilled : Fld := ⟨0x418, 0, 1, 1, 0, 62, 1, .ro, [0]⟩
def GAL_RES_AREA.fresh : Fld := ⟨0x418, 0, 1, 1, 0, 61, 1, .ro, [0]⟩
def GAL_RES_AREA.prev_valid : Fld := ⟨0x418, 0, 1, 1, 0, 60, 1, .ro, [0]⟩
def GAL_RES_AREA.held : Fld := ⟨0x418, 0, 1, 1, 0, 59, 1, .ro, [0]⟩
def GAL_RES_AREA.cur_bank : Fld := ⟨0x418, 0, 1, 1, 0, 58, 1, .ro, [0]⟩
def GAL_RES_AREA.next_step : Fld := ⟨0x418, 0, 1, 1, 0, 0, 16, .ro, [0]⟩

/-! ### spec/17_memory.md -/

-- F2F_REGION, offset 0x100, near R365
def F2F_REGION.clipped : Fld := ⟨0x100, 0, 1, 1, 0, 48, 1, .ro, [0]⟩
def F2F_REGION.res_mib : Fld := ⟨0x100, 0, 1, 1, 0, 32, 16, .ro, [0]⟩
def F2F_REGION.deep_gib : Fld := ⟨0x100, 0, 1, 1, 0, 0, 5, .ro, [0]⟩
-- F2F_ECC_COUNT, offset 0x108, near R365
def F2F_ECC_COUNT.uncorrected : Fld := ⟨0x108, 0, 1, 1, 0, 32, 32, .ro, [0]⟩
def F2F_ECC_COUNT.corrected : Fld := ⟨0x108, 0, 1, 1, 0, 0, 32, .ro, [0]⟩
-- F2F_ECC_LAST, offset 0x110, near R365
def F2F_ECC_LAST.uncorrectable : Fld := ⟨0x110, 0, 1, 1, 0, 63, 1, .ro, [0]⟩
def F2F_ECC_LAST.symbols : Fld := ⟨0x110, 0, 1, 1, 0, 61, 2, .ro, [0]⟩
def F2F_ECC_LAST.region : Fld := ⟨0x110, 0, 1, 1, 0, 48, 8, .ro, [0]⟩
def F2F_ECC_LAST.block : Fld := ⟨0x110, 0, 1, 1, 0, 6, 29, .ro, [0]⟩
-- F2F_SCRUB, offset 0x118, near R365
def F2F_SCRUB.passes : Fld := ⟨0x118, 0, 1, 1, 0, 32, 32, .ro, [0]⟩
def F2F_SCRUB.active : Fld := ⟨0x118, 0, 1, 1, 0, 16, 1, .ro, [0]⟩
def F2F_SCRUB.period_h : Fld := ⟨0x118, 0, 1, 1, 0, 0, 16, .rws, [24]⟩
-- MEM_SCRUB, offset 0x128, near R365
def MEM_SCRUB.passes : Fld := ⟨0x128, 0, 1, 1, 0, 32, 32, .ro, [0]⟩
def MEM_SCRUB.active : Fld := ⟨0x128, 0, 1, 1, 0, 16, 1, .ro, [0]⟩
def MEM_SCRUB.period_h : Fld := ⟨0x128, 0, 1, 1, 0, 0, 16, .rws, [24]⟩
-- F2F_STATUS, offset 0x120, near R365
def F2F_STATUS.temp : Fld := ⟨0x120, 0, 1, 1, 0, 16, 16, .ro, [0]⟩
def F2F_STATUS.refresh_2x : Fld := ⟨0x120, 0, 1, 1, 0, 1, 1, .ro, [0]⟩
def F2F_STATUS.ready : Fld := ⟨0x120, 0, 1, 1, 0, 0, 1, .ro, [0]⟩
-- MEM_CFG, offset 0x100, near R366
def MEM_CFG.rate : Fld := ⟨0x100, 0, 1, 1, 0, 32, 1, .rws, [0]⟩
def MEM_CFG.retrain_dtemp : Fld := ⟨0x100, 0, 1, 1, 0, 16, 8, .rws, [10]⟩
def MEM_CFG.retrain_ms : Fld := ⟨0x100, 0, 1, 1, 0, 0, 16, .rws, [100]⟩
-- MEM_STATUS, offset 0x108, near R366
def MEM_STATUS.refresh_mult : Fld := ⟨0x108, 0, 1, 1, 0, 34, 2, .ro, [0]⟩
def MEM_STATUS.temp : Fld := ⟨0x108, 0, 1, 1, 0, 16, 16, .ro, [0]⟩
def MEM_STATUS.unused : Fld := ⟨0x108, 0, 1, 1, 0, 3, 1, .ro, [0]⟩
def MEM_STATUS.self_refresh : Fld := ⟨0x108, 0, 1, 1, 0, 2, 1, .ro, [0]⟩
def MEM_STATUS.ch1_trained : Fld := ⟨0x108, 0, 1, 1, 0, 1, 1, .ro, [0]⟩
def MEM_STATUS.ch0_trained : Fld := ⟨0x108, 0, 1, 1, 0, 0, 1, .ro, [0]⟩
-- MEM_TRAIN, offset 0x110, near R366
def MEM_TRAIN.retrains : Fld := ⟨0x110, 0, 1, 1, 0, 32, 32, .ro, [0]⟩
def MEM_TRAIN.fails : Fld := ⟨0x110, 0, 1, 1, 0, 16, 16, .ro, [0]⟩
def MEM_TRAIN.last_us : Fld := ⟨0x110, 0, 1, 1, 0, 0, 16, .ro, [0]⟩
-- MEM_ECC_COUNT, offset 0x118, near R366
def MEM_ECC_COUNT.uncorrected : Fld := ⟨0x118, 0, 1, 1, 0, 48, 16, .ro, [0]⟩
def MEM_ECC_COUNT.secded_corrected : Fld := ⟨0x118, 0, 1, 1, 0, 24, 24, .ro, [0]⟩
def MEM_ECC_COUNT.link_corrected : Fld := ⟨0x118, 0, 1, 1, 0, 0, 24, .ro, [0]⟩
-- MEM_ECC_LAST, offset 0x120, near R366
def MEM_ECC_LAST.uncorrectable : Fld := ⟨0x120, 0, 1, 1, 0, 63, 1, .ro, [0]⟩
def MEM_ECC_LAST.link : Fld := ⟨0x120, 0, 1, 1, 0, 62, 1, .ro, [0]⟩
def MEM_ECC_LAST.region : Fld := ⟨0x120, 0, 1, 1, 0, 48, 8, .ro, [0]⟩
def MEM_ECC_LAST.channel : Fld := ⟨0x120, 0, 1, 1, 0, 36, 1, .ro, [0]⟩
def MEM_ECC_LAST.quadword : Fld := ⟨0x120, 0, 1, 1, 0, 3, 32, .ro, [0]⟩

/-! ### spec/18_time_base.md -/

-- TIM_CFG, offset 0x100, near R382
def TIM_CFG.dom1_number : Fld := ⟨0x100, 0, 1, 1, 0, 40, 8, .rw, [1]⟩
def TIM_CFG.dom0_number : Fld := ⟨0x100, 0, 1, 1, 0, 32, 8, .rw, [0]⟩
def TIM_CFG.dom1_mode : Fld := ⟨0x100, 0, 1, 1, 0, 10, 2, .rw, [0]⟩
def TIM_CFG.dom0_mode : Fld := ⟨0x100, 0, 1, 1, 0, 8, 2, .rw, [0]⟩
def TIM_CFG.gptp_enable : Fld := ⟨0x100, 0, 1, 1, 0, 0, 1, .rw, [0]⟩
-- TIM_T0_SEC, offset 0x108, near R382
def TIM_T0_SEC.seconds : Fld := ⟨0x108, 0, 1, 1, 0, 0, 48, .ro, [0]⟩
-- TIM_T1_SEC, offset 0x118, near R382
def TIM_T1_SEC.seconds : Fld := ⟨0x118, 0, 1, 1, 0, 0, 48, .ro, [0]⟩
-- TIM_T0_NS, offset 0x110, near R382
def TIM_T0_NS.nanoseconds : Fld := ⟨0x110, 0, 1, 1, 0, 16, 30, .ro, [0]⟩
def TIM_T0_NS.fraction : Fld := ⟨0x110, 0, 1, 1, 0, 0, 16, .ro, [0]⟩
-- TIM_T1_NS, offset 0x120, near R382
def TIM_T1_NS.nanoseconds : Fld := ⟨0x120, 0, 1, 1, 0, 16, 30, .ro, [0]⟩
def TIM_T1_NS.fraction : Fld := ⟨0x120, 0, 1, 1, 0, 0, 16, .ro, [0]⟩
-- TIM_SET_SEC, offset 0x128, near R382
def TIM_SET_SEC.seconds : Fld := ⟨0x128, 0, 1, 1, 0, 0, 48, .rw, [0]⟩
-- TIM_SET_NS, offset 0x130, near R382
def TIM_SET_NS.negative : Fld := ⟨0x130, 0, 1, 1, 0, 63, 1, .rw, [0]⟩
def TIM_SET_NS.nanoseconds : Fld := ⟨0x130, 0, 1, 1, 0, 16, 30, .rw, [0]⟩
def TIM_SET_NS.fraction : Fld := ⟨0x130, 0, 1, 1, 0, 0, 16, .rw, [0]⟩
-- TIM_SET_CTRL, offset 0x138, near R382
def TIM_SET_CTRL.domain : Fld := ⟨0x138, 0, 1, 1, 0, 2, 1, .wo, [0]⟩
def TIM_SET_CTRL.op : Fld := ⟨0x138, 0, 1, 1, 0, 0, 2, .wo, [0]⟩
-- TIM_SERVO_CFG, offset 0x140, near R382
def TIM_SERVO_CFG.step_ns : Fld := ⟨0x140, 8, 2, 1, 0, 40, 24, .rw, [1000]⟩
def TIM_SERVO_CFG.lock_ns : Fld := ⟨0x140, 8, 2, 1, 0, 24, 16, .rw, [100]⟩
def TIM_SERVO_CFG.ki_shift : Fld := ⟨0x140, 8, 2, 1, 0, 8, 8, .rw, [30]⟩
def TIM_SERVO_CFG.kp_shift : Fld := ⟨0x140, 8, 2, 1, 0, 0, 8, .rw, [27]⟩
-- TIM_OFFSET, offset 0x150, near R382
def TIM_OFFSET.offset : Fld := ⟨0x150, 8, 2, 1, 0, 0, 64, .wo, [0]⟩
-- TIM_FREQ, offset 0x160, near R382
def TIM_FREQ.integ : Fld := ⟨0x160, 8, 2, 1, 0, 32, 32, .ro, [0]⟩
def TIM_FREQ.freq : Fld := ⟨0x160, 8, 2, 1, 0, 0, 32, .ro, [0]⟩
-- TIM_STATUS, offset 0x170, near R382
def TIM_STATUS.switches : Fld := ⟨0x170, 0, 1, 1, 0, 32, 32, .ro, [0]⟩
def TIM_STATUS.t0_source : Fld := ⟨0x170, 0, 1, 1, 0, 8, 2, .ro, [0]⟩
def TIM_STATUS.dom1_state : Fld := ⟨0x170, 0, 1, 1, 0, 6, 2, .ro, [3]⟩
def TIM_STATUS.dom0_state : Fld := ⟨0x170, 0, 1, 1, 0, 4, 2, .ro, [3]⟩
-- TIM_SWITCH_CFG, offset 0x178, near R382
def TIM_SWITCH_CFG.auto_switch : Fld := ⟨0x178, 0, 1, 1, 0, 63, 1, .rw, [1]⟩
def TIM_SWITCH_CFG.max_slew_ppb : Fld := ⟨0x178, 0, 1, 1, 0, 32, 16, .rw, [0x2710]⟩
def TIM_SWITCH_CFG.hold_ms : Fld := ⟨0x178, 0, 1, 1, 0, 16, 16, .rw, [1000]⟩
def TIM_SWITCH_CFG.timeout_ms : Fld := ⟨0x178, 0, 1, 1, 0, 0, 16, .rw, [375]⟩
-- TIM_PPS_CFG, offset 0x180, near R382
def TIM_PPS_CFG.out_enable : Fld := ⟨0x180, 0, 1, 1, 0, 63, 1, .rw, [0]⟩
def TIM_PPS_CFG.width_ns : Fld := ⟨0x180, 0, 1, 1, 0, 32, 29, .rw, [0xf4240]⟩
def TIM_PPS_CFG.offset_ns : Fld := ⟨0x180, 0, 1, 1, 0, 0, 32, .rw, [0]⟩
-- TIM_PPS_IN, offset 0x188, near R382
def TIM_PPS_IN.seconds : Fld := ⟨0x188, 8, 2, 1, 0, 30, 34, .ro, [0]⟩
def TIM_PPS_IN.nanoseconds : Fld := ⟨0x188, 8, 2, 1, 0, 0, 30, .ro, [0]⟩
-- TIM_TXQ_SEL, offset 0x198, near R382
def TIM_TXQ_SEL.pop : Fld := ⟨0x198, 0, 1, 1, 0, 63, 1, .wo, [0]⟩
def TIM_TXQ_SEL.port : Fld := ⟨0x198, 0, 1, 1, 0, 0, 7, .rw, [0]⟩
-- TIM_TXQ_HEAD, offset 0x1A0, near R382
def TIM_TXQ_HEAD.seconds : Fld := ⟨0x1A0, 8, 2, 1, 0, 30, 34, .ro, [0]⟩
def TIM_TXQ_HEAD.nanoseconds : Fld := ⟨0x1A0, 8, 2, 1, 0, 0, 30, .ro, [0]⟩
-- TIM_TXQ_META, offset 0x1B0, near R382
def TIM_TXQ_META.valid : Fld := ⟨0x1B0, 0, 1, 1, 0, 63, 1, .ro, [0]⟩
def TIM_TXQ_META.overflow : Fld := ⟨0x1B0, 0, 1, 1, 0, 62, 1, .w1c, [0]⟩
def TIM_TXQ_META.count : Fld := ⟨0x1B0, 0, 1, 1, 0, 57, 5, .ro, [0]⟩
def TIM_TXQ_META.sub_port : Fld := ⟨0x1B0, 0, 1, 1, 0, 30, 2, .ro, [0]⟩
def TIM_TXQ_META.domain : Fld := ⟨0x1B0, 0, 1, 1, 0, 29, 1, .ro, [0]⟩
def TIM_TXQ_META.message_type : Fld := ⟨0x1B0, 0, 1, 1, 0, 24, 4, .ro, [0]⟩
def TIM_TXQ_META.sequence_id : Fld := ⟨0x1B0, 0, 1, 1, 0, 0, 16, .ro, [0]⟩

/-! ### spec/19_power_and_thermal.md -/

-- PWR_PKG_STATUS, offset 0x100, near R396
def PWR_PKG_STATUS.power_w : Fld := ⟨0x100, 0, 1, 1, 0, 48, 16, .ro, [0]⟩
def PWR_PKG_STATUS.current : Fld := ⟨0x100, 0, 1, 1, 0, 36, 12, .ro, [0]⟩
def PWR_PKG_STATUS.vin : Fld := ⟨0x100, 0, 1, 1, 0, 26, 10, .ro, [0]⟩
def PWR_PKG_STATUS.stage_temp : Fld := ⟨0x100, 0, 1, 1, 0, 16, 10, .ro, [0]⟩
def PWR_PKG_STATUS.pkg_standby : Fld := ⟨0x100, 0, 1, 1, 0, 4, 1, .ro, [0]⟩
def PWR_PKG_STATUS.throttle_step : Fld := ⟨0x100, 0, 1, 1, 0, 1, 3, .ro, [0]⟩
def PWR_PKG_STATUS.pwr_ok : Fld := ⟨0x100, 0, 1, 1, 0, 0, 1, .ro, [0]⟩
-- PWR_CAP, offset 0x108, near R396
def PWR_CAP.cap_w : Fld := ⟨0x108, 0, 1, 1, 0, 0, 16, .ro, [3000]⟩
-- PWR_THROTTLE, offset 0x110, near R396
def PWR_THROTTLE.admission : Fld := ⟨0x110, 0, 1, 1, 0, 16, 4, .ro, [8]⟩
def PWR_THROTTLE.cmb_notch : Fld := ⟨0x110, 0, 1, 1, 0, 8, 5, .ro, [0]⟩
def PWR_THROTTLE.array_ratio : Fld := ⟨0x110, 0, 1, 1, 0, 0, 5, .ro, [16]⟩
-- PWR_THROTTLE_CFG, offset 0x118, near R396
def PWR_THROTTLE_CFG.hyst_pct : Fld := ⟨0x118, 0, 1, 1, 0, 32, 8, .rws, [3]⟩
def PWR_THROTTLE_CFG.fault_ms : Fld := ⟨0x118, 0, 1, 1, 0, 16, 16, .rws, [1]⟩
def PWR_THROTTLE_CFG.period_us : Fld := ⟨0x118, 0, 1, 1, 0, 0, 16, .rws, [10]⟩
-- PWR_FAULT, offset 0x120, near R396
def PWR_FAULT.therm_crit : Fld := ⟨0x120, 0, 1, 1, 0, 8, 1, .w1c, [0]⟩
def PWR_FAULT.cap_exceeded : Fld := ⟨0x120, 0, 1, 1, 0, 7, 1, .w1c, [0]⟩
def PWR_FAULT.overcurrent : Fld := ⟨0x120, 0, 1, 1, 0, 6, 1, .w1c, [0]⟩
def PWR_FAULT.overvoltage : Fld := ⟨0x120, 0, 1, 1, 0, 5, 1, .w1c, [0]⟩
def PWR_FAULT.undervoltage : Fld := ⟨0x120, 0, 1, 1, 0, 4, 1, .w1c, [0]⟩
def PWR_FAULT.rail_fault : Fld := ⟨0x120, 0, 1, 1, 0, 3, 1, .w1c, [0]⟩
def PWR_FAULT.isolation_link : Fld := ⟨0x120, 0, 1, 1, 0, 2, 1, .w1c, [0]⟩
def PWR_FAULT.sysclk_loss : Fld := ⟨0x120, 0, 1, 1, 0, 1, 1, .w1c, [0]⟩
def PWR_FAULT.boot_mem : Fld := ⟨0x120, 0, 1, 1, 0, 0, 1, .w1c, [0]⟩
-- PWR_THERM_CFG, offset 0x128, near R396
def PWR_THERM_CFG.crit_c : Fld := ⟨0x128, 0, 1, 1, 0, 16, 8, .rwp, [115]⟩
def PWR_THERM_CFG.therm_c : Fld := ⟨0x128, 0, 1, 1, 0, 8, 8, .rwp, [105]⟩
def PWR_THERM_CFG.warn_c : Fld := ⟨0x128, 0, 1, 1, 0, 0, 8, .rwp, [95]⟩
-- PWR_PKG_CTRL, offset 0x130, near R396
def PWR_PKG_CTRL.standby_req : Fld := ⟨0x130, 0, 1, 1, 0, 0, 1, .rw, [0]⟩
-- PWR_DIE_CTRL, offset 0x100, near R396
def PWR_DIE_CTRL.standby_req : Fld := ⟨0x100, 0, 1, 1, 0, 8, 1, .rw, [0]⟩
def PWR_DIE_CTRL.gate_mask : Fld := ⟨0x100, 0, 1, 1, 0, 0, 4, .rw, [0]⟩
-- PWR_DIE_STATUS, offset 0x108, near R396
def PWR_DIE_STATUS.hot_temp : Fld := ⟨0x108, 0, 1, 1, 0, 48, 16, .ro, [0]⟩
def PWR_DIE_STATUS.die_power_w : Fld := ⟨0x108, 0, 1, 1, 0, 32, 16, .ro, [0]⟩
def PWR_DIE_STATUS.thermal_notch : Fld := ⟨0x108, 0, 1, 1, 0, 24, 8, .ro, [0]⟩
def PWR_DIE_STATUS.gated : Fld := ⟨0x108, 0, 1, 1, 0, 16, 4, .ro, [0]⟩
def PWR_DIE_STATUS.state : Fld := ⟨0x108, 0, 1, 1, 0, 0, 2, .ro, [0]⟩
-- PWR_RAIL, offset 0x110, near R396
def PWR_RAIL.rail : Fld := ⟨0x110, 0, 8, 8, 8, 0, 8, .ro, [0]⟩

/-! ### spec/20_reset_boot_and_persistence.md -/

-- BOOT_STATUS, offset 0x100, near R416
def BOOT_STATUS.stage : Fld := ⟨0x100, 0, 1, 1, 0, 48, 8, .ro, [0]⟩
def BOOT_STATUS.reset_cause : Fld := ⟨0x100, 0, 1, 1, 0, 44, 4, .ro, [0]⟩
def BOOT_STATUS.fw_image : Fld := ⟨0x100, 0, 1, 1, 0, 43, 1, .ro, [0]⟩
def BOOT_STATUS.cfg_image : Fld := ⟨0x100, 0, 1, 1, 0, 42, 1, .ro, [0]⟩
def BOOT_STATUS.cfg_none : Fld := ⟨0x100, 0, 1, 1, 0, 41, 1, .ro, [0]⟩
def BOOT_STATUS.plan_none : Fld := ⟨0x100, 0, 1, 1, 0, 40, 1, .ro, [0]⟩
def BOOT_STATUS.cfg_fallback : Fld := ⟨0x100, 0, 1, 1, 0, 39, 1, .ro, [0]⟩
def BOOT_STATUS.boot_ms : Fld := ⟨0x100, 0, 1, 1, 0, 0, 32, .ro, [0]⟩
-- BOOT_FW_SEQ, offset 0x108, near R416
def BOOT_FW_SEQ.b_seq : Fld := ⟨0x108, 0, 1, 1, 0, 32, 32, .ro, [0]⟩
def BOOT_FW_SEQ.a_seq : Fld := ⟨0x108, 0, 1, 1, 0, 0, 32, .ro, [0]⟩
-- BOOT_CFG_SEQ, offset 0x110, near R416
def BOOT_CFG_SEQ.b_seq : Fld := ⟨0x110, 0, 1, 1, 0, 32, 32, .ro, [0]⟩
def BOOT_CFG_SEQ.a_seq : Fld := ⟨0x110, 0, 1, 1, 0, 0, 32, .ro, [0]⟩
-- BOOT_VALID, offset 0x118, near R416
def BOOT_VALID.cfg_b : Fld := ⟨0x118, 0, 1, 1, 0, 3, 1, .ro, [0]⟩
def BOOT_VALID.cfg_a : Fld := ⟨0x118, 0, 1, 1, 0, 2, 1, .ro, [0]⟩
def BOOT_VALID.fw_b : Fld := ⟨0x118, 0, 1, 1, 0, 1, 1, .ro, [0]⟩
def BOOT_VALID.fw_a : Fld := ⟨0x118, 0, 1, 1, 0, 0, 1, .ro, [0]⟩
-- BOOT_SAVE, offset 0x120, near R416
def BOOT_SAVE.active_seq : Fld := ⟨0x120, 0, 1, 1, 0, 32, 32, .ro, [0]⟩
def BOOT_SAVE.saves : Fld := ⟨0x120, 0, 1, 1, 0, 16, 16, .ro, [0]⟩
def BOOT_SAVE.pending : Fld := ⟨0x120, 0, 1, 1, 0, 1, 1, .ro, [0]⟩
def BOOT_SAVE.busy : Fld := ⟨0x120, 0, 1, 1, 0, 0, 1, .ro, [0]⟩
-- CTL_DIE_RESET, offset 0x100, near R417
def CTL_DIE_RESET.warm_reset : Fld := ⟨0x100, 0, 1, 1, 0, 1, 1, .wo, [0]⟩
def CTL_DIE_RESET.die_reset : Fld := ⟨0x100, 0, 1, 1, 0, 0, 1, .wo, [0]⟩
-- CTL_DIE_STATE, offset 0x108, near R417
def CTL_DIE_STATE.die_resets : Fld := ⟨0x108, 0, 1, 1, 0, 32, 32, .rws, [0]⟩
def CTL_DIE_STATE.last_reset : Fld := ⟨0x108, 0, 1, 1, 0, 8, 2, .ro, [0]⟩
def CTL_DIE_STATE.state : Fld := ⟨0x108, 0, 1, 1, 0, 0, 2, .ro, [0]⟩
-- CTL_DISC_SEL, offset 0x110, near R417
def CTL_DISC_SEL.port : Fld := ⟨0x110, 0, 1, 1, 0, 0, 9, .rw, [0]⟩
-- CTL_DISC_STATE, offset 0x118, near R417
def CTL_DISC_STATE.hold_reason : Fld := ⟨0x118, 0, 1, 1, 0, 8, 8, .ro, [0]⟩
def CTL_DISC_STATE.cabling_swap : Fld := ⟨0x118, 0, 1, 1, 0, 4, 1, .ro, [0]⟩
def CTL_DISC_STATE.accepted_by_command : Fld := ⟨0x118, 0, 1, 1, 0, 3, 1, .ro, [0]⟩
def CTL_DISC_STATE.two_way : Fld := ⟨0x118, 0, 1, 1, 0, 2, 1, .ro, [0]⟩
def CTL_DISC_STATE.state : Fld := ⟨0x118, 0, 1, 1, 0, 0, 2, .ro, [0]⟩
-- CTL_DISC_NEIGHBOUR, offset 0x120, near R417
def CTL_DISC_NEIGHBOUR.role : Fld := ⟨0x120, 0, 1, 1, 0, 56, 8, .ro, [0]⟩
def CTL_DISC_NEIGHBOUR.hall : Fld := ⟨0x120, 0, 1, 1, 0, 48, 8, .ro, [0]⟩
def CTL_DISC_NEIGHBOUR.rail : Fld := ⟨0x120, 0, 1, 1, 0, 40, 8, .ro, [0]⟩
def CTL_DISC_NEIGHBOUR.plane : Fld := ⟨0x120, 0, 1, 1, 0, 32, 8, .ro, [0]⟩
def CTL_DISC_NEIGHBOUR.spine_index : Fld := ⟨0x120, 0, 1, 1, 0, 24, 8, .ro, [0]⟩
def CTL_DISC_NEIGHBOUR.leaf : Fld := ⟨0x120, 0, 1, 1, 0, 14, 10, .ro, [0]⟩
def CTL_DISC_NEIGHBOUR.port : Fld := ⟨0x120, 0, 1, 1, 0, 5, 9, .ro, [0]⟩
def CTL_DISC_NEIGHBOUR.group_or_uplink : Fld := ⟨0x120, 0, 1, 1, 0, 2, 3, .ro, [0]⟩
-- CTL_DISC_SERIAL, offset 0x128, near R417
def CTL_DISC_SERIAL.serial : Fld := ⟨0x128, 0, 1, 1, 0, 0, 64, .ro, [0]⟩
-- CTL_DISC_LLDP, offset 0x130, near R417
def CTL_DISC_LLDP.truncated : Fld := ⟨0x130, 0, 1, 1, 0, 63, 1, .ro, [0]⟩
def CTL_DISC_LLDP.length : Fld := ⟨0x130, 0, 1, 1, 0, 0, 11, .ro, [0]⟩
-- CTL_DISC_LLDP_DATA, offset 0x200, near R417
def CTL_DISC_LLDP_DATA.bytes : Fld := ⟨0x200, 8, 188, 1, 0, 0, 64, .ro, [0]⟩

/-! ### spec/21_security_and_dual_control.md -/

-- SEC_STATE, offset 0x100, near R432
def SEC_STATE.enrolled : Fld := ⟨0x100, 0, 1, 1, 0, 32, 16, .ro, [0]⟩
def SEC_STATE.sec_floor : Fld := ⟨0x100, 0, 1, 1, 0, 24, 8, .ro, [0]⟩
def SEC_STATE.fw_sec_version : Fld := ⟨0x100, 0, 1, 1, 0, 16, 8, .ro, [0]⟩
def SEC_STATE.region_fallback : Fld := ⟨0x100, 0, 1, 1, 0, 4, 1, .ro, [0]⟩
def SEC_STATE.region_valid : Fld := ⟨0x100, 0, 1, 1, 0, 3, 1, .ro, [0]⟩
def SEC_STATE.identity_ok : Fld := ⟨0x100, 0, 1, 1, 0, 2, 1, .ro, [0]⟩
def SEC_STATE.owner_state : Fld := ⟨0x100, 0, 1, 1, 0, 0, 2, .ro, [0]⟩
-- SEC_ID_PUB, offset 0x108, near R432
def SEC_ID_PUB.key : Fld := ⟨0x108, 8, 8, 1, 0, 0, 64, .ro, [0]⟩
-- SEC_MEAS_SEL, offset 0x148, near R432
def SEC_MEAS_SEL.index : Fld := ⟨0x148, 0, 1, 1, 0, 0, 3, .rw, [0]⟩
-- SEC_MEAS, offset 0x150, near R432
def SEC_MEAS.value : Fld := ⟨0x150, 8, 4, 1, 0, 0, 64, .ro, [0]⟩
-- SEC_QUOTE_NONCE, offset 0x170, near R432
def SEC_QUOTE_NONCE.nonce : Fld := ⟨0x170, 8, 4, 1, 0, 0, 64, .rw, [0]⟩
-- SEC_QUOTE_CTRL, offset 0x190, near R432
def SEC_QUOTE_CTRL.request : Fld := ⟨0x190, 0, 1, 1, 0, 63, 1, .wo, [0]⟩
def SEC_QUOTE_CTRL.offset : Fld := ⟨0x190, 0, 1, 1, 0, 0, 26, .rw, [0]⟩
-- SEC_QUOTE_STATUS, offset 0x198, near R432
def SEC_QUOTE_STATUS.quotes : Fld := ⟨0x198, 0, 1, 1, 0, 32, 32, .ro, [0]⟩
def SEC_QUOTE_STATUS.done : Fld := ⟨0x198, 0, 1, 1, 0, 2, 1, .w1c, [0]⟩
def SEC_QUOTE_STATUS.fail : Fld := ⟨0x198, 0, 1, 1, 0, 1, 1, .w1c, [0]⟩
def SEC_QUOTE_STATUS.busy : Fld := ⟨0x198, 0, 1, 1, 0, 0, 1, .ro, [0]⟩
-- SEC_PT_SEL, offset 0x1A0, near R432
def SEC_PT_SEL.table : Fld := ⟨0x1A0, 0, 1, 1, 0, 56, 8, .rw, [0]⟩
def SEC_PT_SEL.index : Fld := ⟨0x1A0, 0, 1, 1, 0, 0, 12, .rw, [0]⟩
-- SEC_PT_DATA, offset 0x1A8, near R432
def SEC_PT_DATA.entry : Fld := ⟨0x1A8, 0, 1, 1, 0, 0, 64, .rw, [0]⟩
-- SEC_PT_SEQ, offset 0x1B0, near R432
def SEC_PT_SEQ.table1_seq : Fld := ⟨0x1B0, 0, 1, 1, 0, 32, 32, .ro, [0]⟩
def SEC_PT_SEQ.table0_seq : Fld := ⟨0x1B0, 0, 1, 1, 0, 0, 32, .ro, [0]⟩
-- SEC_DUAL_STATUS, offset 0x1B8, near R432
def SEC_DUAL_STATUS.last_ticket : Fld := ⟨0x1B8, 0, 1, 1, 0, 32, 32, .ro, [0]⟩
def SEC_DUAL_STATUS.pending : Fld := ⟨0x1B8, 0, 1, 1, 0, 0, 5, .ro, [0]⟩
-- SEC_ADMIT, offset 0x1C0, near R432
def SEC_ADMIT.failures : Fld := ⟨0x1C0, 0, 1, 1, 0, 32, 32, .ro, [0]⟩
def SEC_ADMIT.admissions : Fld := ⟨0x1C0, 0, 1, 1, 0, 0, 32, .ro, [0]⟩

/-! ### spec/22_reliability_and_errors.md -/

-- CTL_ERR_PRODUCER, offset 0x110, near R452
def CTL_ERR_PRODUCER.producer : Fld := ⟨0x110, 8, 4, 1, 0, 0, 62, .ro, [0]⟩
-- CTL_ERR_SEL, offset 0x130, near R452
def CTL_ERR_SEL.die : Fld := ⟨0x130, 0, 1, 1, 0, 62, 2, .rw, [0]⟩
def CTL_ERR_SEL.index : Fld := ⟨0x130, 0, 1, 1, 0, 0, 62, .rw, [0]⟩
-- CTL_ERR_REC, offset 0x138, near R452
def CTL_ERR_REC.quadword : Fld := ⟨0x138, 8, 8, 1, 0, 0, 64, .ro, [0]⟩
-- CTL_RETIRE, offset 0x178, near R452
def CTL_RETIRE.retired : Fld := ⟨0x178, 0, 1, 1, 0, 0, 32, .rw, [0]⟩
-- CTL_RETIRE_CFG, offset 0x180, near R452
def CTL_RETIRE_CFG.auto : Fld := ⟨0x180, 0, 1, 1, 0, 32, 1, .rw, [1]⟩
def CTL_RETIRE_CFG.sig_window_min : Fld := ⟨0x180, 0, 1, 1, 0, 16, 16, .rw, [60]⟩
def CTL_RETIRE_CFG.window_h : Fld := ⟨0x180, 0, 1, 1, 0, 8, 8, .rw, [24]⟩
def CTL_RETIRE_CFG.retire_count : Fld := ⟨0x180, 0, 1, 1, 0, 0, 8, .rw, [3]⟩
-- CTL_HEALTH_CFG, offset 0x188, near R452
def CTL_HEALTH_CFG.auto : Fld := ⟨0x188, 0, 1, 1, 0, 63, 1, .rw, [1]⟩
def CTL_HEALTH_CFG.reduced_factor : Fld := ⟨0x188, 0, 1, 1, 0, 48, 4, .rw, [2]⟩
def CTL_HEALTH_CFG.budget_ports : Fld := ⟨0x188, 0, 1, 1, 0, 32, 8, .rw, [4]⟩
def CTL_HEALTH_CFG.budget_window_s : Fld := ⟨0x188, 0, 1, 1, 0, 16, 16, .rw, [600]⟩
def CTL_HEALTH_CFG.restore_s : Fld := ⟨0x188, 0, 1, 1, 0, 0, 16, .rw, [600]⟩
-- CTL_QUAR_STATUS, offset 0x190, near R452
def CTL_QUAR_STATUS.exhausted : Fld := ⟨0x190, 0, 1, 1, 0, 32, 32, .ro, [0]⟩
def CTL_QUAR_STATUS.in_window : Fld := ⟨0x190, 0, 1, 1, 0, 16, 8, .ro, [0]⟩
def CTL_QUAR_STATUS.capped : Fld := ⟨0x190, 0, 1, 1, 0, 8, 8, .ro, [0]⟩
def CTL_QUAR_STATUS.quarantined : Fld := ⟨0x190, 0, 1, 1, 0, 0, 8, .ro, [0]⟩
-- CTL_HEALTH_SEL, offset 0x198, near R452
def CTL_HEALTH_SEL.port : Fld := ⟨0x198, 0, 1, 1, 0, 0, 9, .rw, [0]⟩
-- CTL_HEALTH_PORT, offset 0x1A0, near R452
def CTL_HEALTH_PORT.score : Fld := ⟨0x1A0, 0, 1, 1, 0, 32, 16, .ro, [1000]⟩
def CTL_HEALTH_PORT.factor : Fld := ⟨0x1A0, 0, 1, 1, 0, 24, 4, .ro, [8]⟩
def CTL_HEALTH_PORT.capped : Fld := ⟨0x1A0, 0, 1, 1, 0, 1, 1, .ro, [0]⟩
def CTL_HEALTH_PORT.quarantined : Fld := ⟨0x1A0, 0, 1, 1, 0, 0, 1, .ro, [0]⟩

/-! ### spec/23_counters_and_telemetry.md -/

-- CTR_VALUE, offset 0xF00, near R453
def CTR_VALUE.wrapped : Fld := ⟨0xF00, 8, 16, 1, 0, 48, 1, .w1c, [0]⟩
def CTR_VALUE.count : Fld := ⟨0xF00, 8, 16, 1, 0, 0, 48, .rw, [0]⟩
-- CTR_SEL, offset 0xF80, near R453
def CTR_SEL.enable : Fld := ⟨0xF80, 8, 16, 1, 0, 63, 1, .rw, [0]⟩
def CTR_SEL.mode : Fld := ⟨0xF80, 8, 16, 1, 0, 61, 2, .rw, [0]⟩
def CTR_SEL.qualifier : Fld := ⟨0xF80, 8, 16, 1, 0, 48, 9, .rw, [511]⟩
def CTR_SEL.event : Fld := ⟨0xF80, 8, 16, 1, 0, 40, 8, .rw, [0]⟩
def CTR_SEL.threshold : Fld := ⟨0xF80, 8, 16, 1, 0, 0, 32, .rw, [0]⟩
-- CTR_SWEEP_CFG, offset 0x100, near R464
def CTR_SWEEP_CFG.run : Fld := ⟨0x100, 0, 1, 1, 0, 63, 1, .rw, [1]⟩
def CTR_SWEEP_CFG.interval_us : Fld := ⟨0x100, 0, 1, 1, 0, 0, 32, .rw, [1000]⟩
-- CTR_SWEEP_CTRL, offset 0x108, near R464
def CTR_SWEEP_CTRL.once : Fld := ⟨0x108, 0, 1, 1, 0, 0, 1, .wo, [0]⟩
-- CTR_SWEEP_STATUS, offset 0x110, near R464
def CTR_SWEEP_STATUS.sweeps : Fld := ⟨0x110, 0, 1, 1, 0, 32, 32, .ro, [0]⟩
def CTR_SWEEP_STATUS.active : Fld := ⟨0x110, 0, 1, 1, 0, 0, 1, .ro, [0]⟩
-- CTR_SWEEP_LAST, offset 0x118, near R464
def CTR_SWEEP_LAST.skew_ns : Fld := ⟨0x118, 0, 1, 1, 0, 32, 32, .ro, [0]⟩
def CTR_SWEEP_LAST.pages_read : Fld := ⟨0x118, 0, 1, 1, 0, 16, 16, .ro, [0]⟩
def CTR_SWEEP_LAST.pages_skipped : Fld := ⟨0x118, 0, 1, 1, 0, 0, 16, .ro, [0]⟩
-- CTR_SWEEP_PRODUCER, offset 0x120, near R464
def CTR_SWEEP_PRODUCER.producer : Fld := ⟨0x120, 0, 1, 1, 0, 0, 64, .ro, [0]⟩
-- CTR_PKG_MASK, offset 0x128, near R464
def CTR_PKG_MASK.types : Fld := ⟨0x128, 0, 1, 1, 0, 1, 25, .rw, [0x1ffffff]⟩
-- CTR_DIE_MASK, offset 0x100, near R464
def CTR_DIE_MASK.types : Fld := ⟨0x100, 0, 1, 1, 0, 1, 25, .rw, [0x1ffffff]⟩
-- CTR_LAG_PRODUCER, offset 0x108, near R465
def CTR_LAG_PRODUCER.producer : Fld := ⟨0x108, 0, 1, 1, 0, 0, 64, .ro, [0]⟩

/-- The fields of each kind of block. -/
def Blk.fields : Blk → List Fld
  | .hdr =>
      [PG_ID.layout_version, PG_ID.banked, PG_ID.die, PG_ID.inst, PG_ID.block_type, PG_CTRL.event_ring,
       PG_CTRL.read_shadow, PG_CTRL.irq_enable, PG_CTRL.soft_reset, PG_CTRL.enable, PG_STATUS.block_status,
       PG_STATUS.dual_pending, PG_STATUS.commit_busy, PG_STATUS.reset_busy, PG_STATUS.error, PG_STATUS.ready,
       PG_IRQ_RAW.block_irq, PG_IRQ_RAW.guard_denied, PG_IRQ_RAW.dual_timeout, PG_IRQ_RAW.commit_done,
       PG_IRQ_RAW.err_latched, PG_IRQ_MASK.block_irq, PG_IRQ_MASK.guard_denied, PG_IRQ_MASK.dual_timeout,
       PG_IRQ_MASK.commit_done, PG_IRQ_MASK.err_latched, PG_IRQ_PEND.block_irq, PG_IRQ_PEND.guard_denied,
       PG_IRQ_PEND.dual_timeout, PG_IRQ_PEND.commit_done, PG_IRQ_PEND.err_latched, PG_ERR_FIRST.code,
       PG_ERR_FIRST.session, PG_ERR_FIRST.detail, PG_ERR_FIRST.valid, PG_ERR_COUNT.count, PG_SEQ.active_bank,
       PG_SEQ.active_seq, PG_SHADOW_SEQ.shadow_seq, PG_COMMIT.abort, PG_COMMIT.commit_seq, PG_GUARD.owner,
       PG_GUARD.locked]
  | .ctrs =>
      [CTR_VALUE.wrapped, CTR_VALUE.count, CTR_SEL.enable, CTR_SEL.mode, CTR_SEL.qualifier, CTR_SEL.event,
       CTR_SEL.threshold]
  | .ctlDie =>
      [CTL_DIE_RESET.warm_reset, CTL_DIE_RESET.die_reset, CTL_DIE_STATE.die_resets, CTL_DIE_STATE.last_reset,
       CTL_DIE_STATE.state, CTL_DISC_SEL.port, CTL_DISC_STATE.hold_reason, CTL_DISC_STATE.cabling_swap,
       CTL_DISC_STATE.accepted_by_command, CTL_DISC_STATE.two_way, CTL_DISC_STATE.state,
       CTL_DISC_NEIGHBOUR.role, CTL_DISC_NEIGHBOUR.hall, CTL_DISC_NEIGHBOUR.rail, CTL_DISC_NEIGHBOUR.plane,
       CTL_DISC_NEIGHBOUR.spine_index, CTL_DISC_NEIGHBOUR.leaf, CTL_DISC_NEIGHBOUR.port,
       CTL_DISC_NEIGHBOUR.group_or_uplink, CTL_DISC_SERIAL.serial, CTL_DISC_LLDP.truncated,
       CTL_DISC_LLDP.length, CTL_DISC_LLDP_DATA.bytes]
  | .ctlPkg =>
      [CTL_PKG_ID.part, CTL_PKG_ID.stepping, CTL_PKG_ID.variant, CTL_PKG_SERIAL.serial,
       CTL_ERR_PRODUCER.producer, CTL_ERR_SEL.die, CTL_ERR_SEL.index, CTL_ERR_REC.quadword, CTL_RETIRE.retired,
       CTL_RETIRE_CFG.auto, CTL_RETIRE_CFG.sig_window_min, CTL_RETIRE_CFG.window_h,
       CTL_RETIRE_CFG.retire_count, CTL_HEALTH_CFG.auto, CTL_HEALTH_CFG.reduced_factor,
       CTL_HEALTH_CFG.budget_ports, CTL_HEALTH_CFG.budget_window_s, CTL_HEALTH_CFG.restore_s,
       CTL_QUAR_STATUS.exhausted, CTL_QUAR_STATUS.in_window, CTL_QUAR_STATUS.capped,
       CTL_QUAR_STATUS.quarantined, CTL_HEALTH_SEL.port, CTL_HEALTH_PORT.score, CTL_HEALTH_PORT.factor,
       CTL_HEALTH_PORT.capped, CTL_HEALTH_PORT.quarantined]
  | .ctlRing =>
      [CTL_RING_CFG.owner, CTL_RING_CFG.event_ring, CTL_RING_CFG.log2_entries, CTL_RING_CFG.enable,
       CTL_RING_DOORBELL.producer, CTL_RING_STATE.state, CTL_RING_STATE.stop_reason, CTL_RING_STATE.head,
       CTL_RING_CQ_ADDR.address, CTL_RING_CQ_CFG.rkey, CTL_RING_CQ_CFG.qp, CTL_RING_CQ_CFG.notify_every,
       CTL_RING_CQ_CFG.log2_entries, CTL_RING_CQ_HEAD.consumed]
  | .ctlEvr =>
      [CTL_EVR_ADDR.address, CTL_EVR_CFG.rkey, CTL_EVR_CFG.qp, CTL_EVR_CFG.owner, CTL_EVR_CFG.severity_floor,
       CTL_EVR_CFG.alarms, CTL_EVR_CFG.enable, CTL_EVR_CFG.log2_entries, CTL_EVR_HEAD.consumed,
       CTL_EVR_STATE.dropped, CTL_EVR_STATE.producer]
  | .clk =>
      [CLK_REF_STATUS.time_ref_fallback, CLK_REF_STATUS.pps_in_present, CLK_REF_STATUS.time_ref_present,
       CLK_REF_STATUS.serdes_ref_present, CLK_REF_STATUS.sysclk_present, CLK_REF_STATUS.time_ref_lost,
       CLK_REF_STATUS.serdes_ref_lost, CLK_REF_STATUS.sysclk_lost, CLK_CMB_FREQ.mhz, CLK_PLL_LOCK.time_lock,
       CLK_PLL_LOCK.mgt_lock, CLK_PLL_LOCK.mem_lock, CLK_PLL_LOCK.f2f_lock, CLK_PLL_LOCK.ctl_lock,
       CLK_PLL_LOCK.cmb_lock, CLK_PLL_LOCK.core_lock, CLK_PLL_LOCK.lane_tx_lock]
  | .tim =>
      [TIM_CFG.dom1_number, TIM_CFG.dom0_number, TIM_CFG.dom1_mode, TIM_CFG.dom0_mode, TIM_CFG.gptp_enable,
       TIM_T0_SEC.seconds, TIM_T1_SEC.seconds, TIM_T0_NS.nanoseconds, TIM_T0_NS.fraction,
       TIM_T1_NS.nanoseconds, TIM_T1_NS.fraction, TIM_SET_SEC.seconds, TIM_SET_NS.negative,
       TIM_SET_NS.nanoseconds, TIM_SET_NS.fraction, TIM_SET_CTRL.domain, TIM_SET_CTRL.op,
       TIM_SERVO_CFG.step_ns, TIM_SERVO_CFG.lock_ns, TIM_SERVO_CFG.ki_shift, TIM_SERVO_CFG.kp_shift,
       TIM_OFFSET.offset, TIM_FREQ.integ, TIM_FREQ.freq, TIM_STATUS.switches, TIM_STATUS.t0_source,
       TIM_STATUS.dom1_state, TIM_STATUS.dom0_state, TIM_SWITCH_CFG.auto_switch, TIM_SWITCH_CFG.max_slew_ppb,
       TIM_SWITCH_CFG.hold_ms, TIM_SWITCH_CFG.timeout_ms, TIM_PPS_CFG.out_enable, TIM_PPS_CFG.width_ns,
       TIM_PPS_CFG.offset_ns, TIM_PPS_IN.seconds, TIM_PPS_IN.nanoseconds, TIM_TXQ_SEL.pop, TIM_TXQ_SEL.port,
       TIM_TXQ_HEAD.seconds, TIM_TXQ_HEAD.nanoseconds, TIM_TXQ_META.valid, TIM_TXQ_META.overflow,
       TIM_TXQ_META.count, TIM_TXQ_META.sub_port, TIM_TXQ_META.domain, TIM_TXQ_META.message_type,
       TIM_TXQ_META.sequence_id]
  | .msh =>
      [MSH_LINK.tx_failed, MSH_LINK.rx_failed, MSH_LINK.peer, MSH_LINK.tx_tbps, MSH_LINK.rx_tbps,
       MSH_CREDIT.forwarded, MSH_CREDIT.results, MSH_CREDIT.replies, MSH_CREDIT.requests]
  | .f2f =>
      [F2F_REGION.clipped, F2F_REGION.res_mib, F2F_REGION.deep_gib, F2F_ECC_COUNT.uncorrected,
       F2F_ECC_COUNT.corrected, F2F_ECC_LAST.uncorrectable, F2F_ECC_LAST.symbols, F2F_ECC_LAST.region,
       F2F_ECC_LAST.block, F2F_SCRUB.passes, F2F_SCRUB.active, F2F_SCRUB.period_h, F2F_STATUS.temp,
       F2F_STATUS.refresh_2x, F2F_STATUS.ready]
  | .mem =>
      [MEM_SCRUB.passes, MEM_SCRUB.active, MEM_SCRUB.period_h, MEM_CFG.rate, MEM_CFG.retrain_dtemp,
       MEM_CFG.retrain_ms, MEM_STATUS.refresh_mult, MEM_STATUS.temp, MEM_STATUS.unused,
       MEM_STATUS.self_refresh, MEM_STATUS.ch1_trained, MEM_STATUS.ch0_trained, MEM_TRAIN.retrains,
       MEM_TRAIN.fails, MEM_TRAIN.last_us, MEM_ECC_COUNT.uncorrected, MEM_ECC_COUNT.secded_corrected,
       MEM_ECC_COUNT.link_corrected, MEM_ECC_LAST.uncorrectable, MEM_ECC_LAST.link, MEM_ECC_LAST.region,
       MEM_ECC_LAST.channel, MEM_ECC_LAST.quadword]
  | .pwrDie =>
      [PWR_DIE_CTRL.standby_req, PWR_DIE_CTRL.gate_mask, PWR_DIE_STATUS.hot_temp, PWR_DIE_STATUS.die_power_w,
       PWR_DIE_STATUS.thermal_notch, PWR_DIE_STATUS.gated, PWR_DIE_STATUS.state, PWR_RAIL.rail]
  | .pwrPkg =>
      [PWR_PKG_STATUS.power_w, PWR_PKG_STATUS.current, PWR_PKG_STATUS.vin, PWR_PKG_STATUS.stage_temp,
       PWR_PKG_STATUS.pkg_standby, PWR_PKG_STATUS.throttle_step, PWR_PKG_STATUS.pwr_ok, PWR_CAP.cap_w,
       PWR_THROTTLE.admission, PWR_THROTTLE.cmb_notch, PWR_THROTTLE.array_ratio, PWR_THROTTLE_CFG.hyst_pct,
       PWR_THROTTLE_CFG.fault_ms, PWR_THROTTLE_CFG.period_us, PWR_FAULT.therm_crit, PWR_FAULT.cap_exceeded,
       PWR_FAULT.overcurrent, PWR_FAULT.overvoltage, PWR_FAULT.undervoltage, PWR_FAULT.rail_fault,
       PWR_FAULT.isolation_link, PWR_FAULT.sysclk_loss, PWR_FAULT.boot_mem, PWR_THERM_CFG.crit_c,
       PWR_THERM_CFG.therm_c, PWR_THERM_CFG.warn_c, PWR_PKG_CTRL.standby_req]
  | .ctrDie =>
      [CTR_DIE_MASK.types, CTR_LAG_PRODUCER.producer]
  | .ctrPkg =>
      [CTR_SWEEP_CFG.run, CTR_SWEEP_CFG.interval_us, CTR_SWEEP_CTRL.once, CTR_SWEEP_STATUS.sweeps,
       CTR_SWEEP_STATUS.active, CTR_SWEEP_LAST.skew_ns, CTR_SWEEP_LAST.pages_read,
       CTR_SWEEP_LAST.pages_skipped, CTR_SWEEP_PRODUCER.producer, CTR_PKG_MASK.types]
  | .optEng =>
      [OPT_ENG_STATUS.laser_ok, OPT_ENG_STATUS.lsm_fault, OPT_ENG_STATUS.temp, OPT_ENG_STATUS.lsm_present,
       OPT_ENG_STATUS.cal_state, OPT_ENG_CTRL.recal, OPT_ENG_CTRL.laser_enable, OPT_LSM_CFG.lsm_addr,
       OPT_LSM_CFG.laser_low_dbm, OPT_LASER_PWR.tap_dbm, OPT_CAL_TIME.cal_count, OPT_CAL_TIME.last_ms]
  | .optPort =>
      [OPT_PORT_CFG.loopback, OPT_PORT_CFG.breakout, OPT_PORT_CFG.role, OPT_PORT_CFG.sleep,
       OPT_PORT_CFG.sub_enable, OPT_PORT_STATE.last_cause, OPT_PORT_STATE.state, OPT_LANE_RX_PWR.lane,
       OPT_LANE_TX_PWR.lane, OPT_FEC_CORR.count, OPT_FEC_UNCORR.count, OPT_BER_CFG.fault, OPT_BER_CFG.warn,
       OPT_PRBS.chk_lock, OPT_PRBS.gen_pattern, OPT_PRBS.chk_pattern]
  | .byp =>
      [BYP_CIRCUIT_MAP.partner, BYP_CELL_STATE.cell, BYP_STATUS.uncertain, BYP_STATUS.circuits,
       BYP_STATUS.queued, BYP_STATUS.switching, BYP_STATUS.readback_valid, BYP_MISMATCH.unplanned,
       BYP_MISMATCH.missing, BYP_LAST_READBACK.seconds, BYP_LAST_READBACK.nanoseconds, BYP_WEAR.side,
       BYP_WEAR.port, BYP_WEAR.max_count, BYP_CTRL.readback_hours, BYP_CTRL.readback]
  | .swp =>
      [SWP_PARSE_CFG.hjt_port, SWP_DSCP_MAP.cls, SWP_CLASS_KIND.hold_mask, SWP_LAST_DISCARD.reason,
       SWP_LAST_DISCARD.cls, SWP_LAST_DISCARD.port, SWP_LAST_DISCARD.discards]
  | .fwd =>
      [FWD_LEARN_CFG.flood_enable, FWD_LEARN_CFG.learn_all, FWD_LEARN_CFG.learn_enable,
       FWD_AGE_CFG.interval_ms, FWD_AGE_STATUS.sweeps, FWD_AGE_STATUS.active, FWD_AGE_STATUS.slot,
       FWD_EP_STATUS.foyer, FWD_EP_STATUS.static_entries, FWD_EP_STATUS.entries, FWD_EP_STAMP.insert_counter,
       FWD_LPM_STATUS.moving, FWD_LPM_STATUS.scrub_passes, FWD_LPM_STATUS.entries, FWD_LPM_SCRUB.period_ms,
       FWD_UR_SEQ.active_bank, FWD_UR_SEQ.active_seq, FWD_GR_SEQ.active_bank, FWD_GR_SEQ.active_seq,
       FWD_ROUTE_REFUSAL.table, FWD_ROUTE_REFUSAL.index, FWD_ROUTE_REFUSAL.slot, FWD_ROUTE_REFUSAL.reason,
       FWD_LEARN_QUEUE.high_water, FWD_LEARN_QUEUE.occupancy]
  | .buf =>
      [BUF_POOL_SIZE.result, BUF_POOL_SIZE.request, BUF_POOL_SIZE.reply, BUF_HOLD_CFG.hold_floor,
       BUF_HOLD_CFG.xon_delta, BUF_HOLD_CFG.refresh_ns, BUF_ALPHA.alpha, BUF_MC_CFG.residency_us,
       BUF_DEEP_CFG.spill_treads, BUF_DEEP_CFG.size_gib, BUF_FREE.sram, BUF_FREE.deep, BUF_HEADROOM.sram,
       BUF_HEADROOM.deep, BUF_POOL_USE0.result_used, BUF_POOL_USE0.request_used, BUF_POOL_USE0.reply_used,
       BUF_POOL_USE1.forward_size, BUF_POOL_USE1.forward_used, BUF_POOL_USE1.headroom_used]
  | .schDie =>
      [SCH_DIE_CFG.sample_us, SCH_TEL_PORTS.ports, SCH_TEL_PRODUCER.producer, SCH_TEL_STATUS.skipped,
       SCH_TEL_STATUS.last_records]
  | .schPort =>
      [SCH_QSHAPE.burst_kib, SCH_QSHAPE.enable, SCH_QSHAPE.rate_mbps, SCH_POLICER.burst_kib,
       SCH_POLICER.enable, SCH_POLICER.rate_mbps, SCH_WEIGHT.weight, SCH_CREDIT_CAP.cap,
       SCH_PORT_CFG.strict_mask, SCH_GATE_ADMIN_CFG.enable, SCH_GATE_ADMIN_CFG.default_states,
       SCH_GATE_ADMIN_CFG.length, SCH_GATE_ADMIN_CYCLE.cycle_ns, SCH_GATE_OPER_CYCLE.cycle_ns,
       SCH_GATE_ADMIN_BASE.seconds, SCH_GATE_ADMIN_BASE.nanoseconds, SCH_GATE_CHANGE_TIME.seconds,
       SCH_GATE_CHANGE_TIME.nanoseconds, SCH_GATE_CHANGE.cancel, SCH_GATE_CHANGE.request,
       SCH_GATE_STATUS.change_pending, SCH_GATE_STATUS.oper_enable, SCH_GATE_STATUS.refusal,
       SCH_GATE_STATUS.oper_states, SCH_GATE_STATUS.oper_entry, SCH_GATE_VIEW.view, SCH_GATE_ENTRY.states,
       SCH_GATE_ENTRY.interval_ns]
  | .gal =>
      [GAL_TOPO.cube_order, GAL_TOPO.ring_pos, GAL_TOPO.pred_hall, GAL_TOPO.pred_group, GAL_TOPO.succ_group,
       GAL_TOPO.succ_hall, GAL_SPRAY_CFG.decay_ns, GAL_SPRAY_CFG.per_packet, GAL_ADAPT_CFG.escape_us,
       GAL_ADAPT_CFG.open_treads, GAL_BANISTER_CFG.ring_treads, GAL_BANISTER_STATUS.escapes,
       GAL_BANISTER_STATUS.desc_used, GAL_BANISTER_STATUS.asc_used, GAL_DRAIN_STATUS.active,
       GAL_DRAIN_STATUS.expired, GAL_DRAIN_STATUS.table, GAL_DRAIN_STATUS.duration_us,
       GAL_DRAIN_STATUS.discarded, GAL_HEALTH.health, GAL_JOB_MAP.job, GAL_SLOT_CFG.burst_kib,
       GAL_SLOT_CFG.rate_gbps, GAL_SLOT_CFG.weight, GAL_RES_CFG.spill_gib, GAL_RES_CFG.dram_mib,
       GAL_RES_STATUS.spilled_areas, GAL_RES_STATUS.dram_areas, GAL_RES_SEL.chunk, GAL_RES_SEL.group,
       GAL_RES_AREA.allocated, GAL_RES_AREA.spilled, GAL_RES_AREA.fresh, GAL_RES_AREA.prev_valid,
       GAL_RES_AREA.held, GAL_RES_AREA.cur_bank, GAL_RES_AREA.next_step]
  | .lnd =>
      [LND_CORE_BUDGET.ctx, LND_CORE_BUDGET.sram_kib, LND_CORE_USE.ctx, LND_CORE_USE.sram_kib, LND_JOB_SEL.job,
       LND_JOB_QUOTA.sram_kib, LND_JOB_QUOTA.ctx, LND_JOB_USE.sram_kib, LND_JOB_USE.ctx, LND_DIR_STATUS.pass,
       LND_DIR_STATUS.tombstones, LND_DIR_STATUS.entries, LND_LAST_REFUSAL.group, LND_LAST_REFUSAL.job,
       LND_LAST_REFUSAL.reason, LND_LAST_REFUSAL.core]
  | .grp =>
      [GRP_ENTRY_SEL.group, GRP_ENTRY.quadword, GRP_REPL_SEL.op, GRP_REPL_SEL.set, GRP_REPL_MAP.ports,
       GRP_STATUS.enabled, GRP_STATUS.records]
  | .trg =>
      [TRG_SEL.index, TRG_STATE.state, TRG_STATE.auto_rearm, TRG_STATE.count, TRG_SOURCE.operand,
       TRG_ACTION.operand, TRG_TAG.operand, TRG_LAST_FIRED.fires, TRG_LAST_FIRED.index]
  | .cmb =>
      [CMB_CFG.max_steps, CMB_SLOT_SEL.slot, CMB_SLOT_STATUS.loaded, CMB_SLOT_STATUS.loading,
       CMB_SLOT_STATUS.length, CMB_SLOT_STATUS.job, CMB_SLOT_STATUS.crc, CMB_SLOT_USE.activations,
       CMB_SLOT_USE.landings, CMB_ACT_STATUS.active, CMB_ACT_STATUS.waiting, CMB_ACT_STATUS.outstanding,
       CMB_FAULT.reason, CMB_FAULT.slot, CMB_FAULT.pc, CMB_FAULT.group, CMB_FAULT.job, CMB_FAULT_WORD.count,
       CMB_FAULT_WORD.instruction]
  | .arr =>
      [ARR_CFG.kat_seed, ARR_CFG.filler_enable, ARR_STATUS.bank1_tag, ARR_STATUS.bank0_tag,
       ARR_STATUS.bank1_state, ARR_STATUS.bank0_state, ARR_STATUS.log2_fold, ARR_STATUS.duty,
       ARR_STATUS.ramping, ARR_STATUS.filler_active, ARR_STATUS.pass_active, ARR_PASS_COUNT.abandoned,
       ARR_PASS_COUNT.completed, ARR_STALL.drain_stall_cycles, ARR_STALL.queued, ARR_FILLER.kat_fail,
       ARR_FILLER.filler_passes, ARR_FAULT.reason, ARR_FAULT.unit, ARR_FAULT.row, ARR_FAULT.column,
       ARR_FAULT.expected, ARR_FAULT.observed, ARR_FAULT.tag, ARR_RAMP.last_wait_ns, ARR_RAMP.last_gap_ns,
       ARR_INJECT.column, ARR_INJECT.row, ARR_INJECT.unit, ARR_INJECT.arm]
  | .vec =>
      [VEC_STATUS.busy, VEC_RESIDUE.engine, VEC_RESIDUE.unit, VEC_RESIDUE.expected, VEC_RESIDUE.observed,
       VEC_RESIDUE.lane, VEC_RESIDUE.count, VEC_INJECT.lane, VEC_INJECT.engine, VEC_INJECT.unit, VEC_INJECT.arm]
  | .xse =>
      [XSE_CFG.linear_verify, XSE_STATUS.queue_depth, XSE_STATUS.e1_busy, XSE_STATUS.e0_busy, XSE_RESIDUE.unit,
       XSE_RESIDUE.engine, XSE_RESIDUE.expected, XSE_RESIDUE.observed, XSE_RESIDUE.count, XSE_LINEAR.group,
       XSE_LINEAR.step, XSE_LINEAR.chunk, XSE_LINEAR_COUNT.mismatched, XSE_LINEAR_COUNT.verified,
       XSE_INJECT.engine, XSE_INJECT.unit, XSE_INJECT.arm]
  | .mgtPort =>
      [MGT_MACSEC_CFG.replay_window, MGT_MACSEC_CFG.cipher, MGT_MACSEC_CFG.policy,
       MGT_MACSEC_STATUS.sak_installs, MGT_MACSEC_STATUS.rx_an, MGT_MACSEC_STATUS.tx_an,
       MGT_MACSEC_STATUS.mka_live, MGT_PORT_STATUS.qps_ready, MGT_PORT_STATUS.training, MGT_PORT_STATUS.link_up]
  | .mgtPkg =>
      [MGT_SESS_SEL.session, MGT_SESS_STATUS.active, MGT_SESS_STATUS.admin, MGT_SESS_STATUS.job,
       MGT_SESS_STATUS.observe, MGT_SESS_STATUS.slot, MGT_SESS_STATUS.qps, MGT_SESS_STATUS.idle_ms,
       MGT_SESS_COUNT.sessions]
  | .boot =>
      [BOOT_STATUS.stage, BOOT_STATUS.reset_cause, BOOT_STATUS.fw_image, BOOT_STATUS.cfg_image,
       BOOT_STATUS.cfg_none, BOOT_STATUS.plan_none, BOOT_STATUS.cfg_fallback, BOOT_STATUS.boot_ms,
       BOOT_FW_SEQ.b_seq, BOOT_FW_SEQ.a_seq, BOOT_CFG_SEQ.b_seq, BOOT_CFG_SEQ.a_seq, BOOT_VALID.cfg_b,
       BOOT_VALID.cfg_a, BOOT_VALID.fw_b, BOOT_VALID.fw_a, BOOT_SAVE.active_seq, BOOT_SAVE.saves,
       BOOT_SAVE.pending, BOOT_SAVE.busy]
  | .sec =>
      [SEC_STATE.enrolled, SEC_STATE.sec_floor, SEC_STATE.fw_sec_version, SEC_STATE.region_fallback,
       SEC_STATE.region_valid, SEC_STATE.identity_ok, SEC_STATE.owner_state, SEC_ID_PUB.key,
       SEC_MEAS_SEL.index, SEC_MEAS.value, SEC_QUOTE_NONCE.nonce, SEC_QUOTE_CTRL.request,
       SEC_QUOTE_CTRL.offset, SEC_QUOTE_STATUS.quotes, SEC_QUOTE_STATUS.done, SEC_QUOTE_STATUS.fail,
       SEC_QUOTE_STATUS.busy, SEC_PT_SEL.table, SEC_PT_SEL.index, SEC_PT_DATA.entry, SEC_PT_SEQ.table1_seq,
       SEC_PT_SEQ.table0_seq, SEC_DUAL_STATUS.last_ticket, SEC_DUAL_STATUS.pending, SEC_ADMIT.failures,
       SEC_ADMIT.admissions]

/-- The reset value of instance `i` of a field. -/
def Fld.reset (f : Fld) (i : Nat) : Nat := f.rst.getD (i % f.rst.length) 0

/-- Byte offset of the register that holds instance `i`. -/
def Fld.offAt (f : Fld) (i : Nat) : Nat := f.off + f.stride * (i / f.per)

/-- Lowest bit of instance `i` in its register. -/
def Fld.loAt (f : Fld) (i : Nat) : Nat := f.lo + f.step * (i % f.per)

/-- The key under which instance `i` of the field of the block at byte address `a` is held. -/
def Fld.key (f : Fld) (a i : Nat) : Nat := (a + f.offAt i) * 64 + f.loAt i

/-- The instance of the field that lies at register offset `off` and bit `lo`, if one does. -/
def Fld.inst? (f : Fld) (off lo : Nat) : Option Nat :=
  let r := if f.stride = 0 then (if off = f.off then some 0 else none)
    else if f.off ≤ off ∧ (off - f.off) % f.stride = 0 ∧ (off - f.off) / f.stride < f.count / f.per then
      some ((off - f.off) / f.stride)
    else none
  let m := if f.step = 0 then (if lo = f.lo then some 0 else none)
    else if f.lo ≤ lo ∧ (lo - f.lo) % f.step = 0 ∧ (lo - f.lo) / f.step < f.per then some ((lo - f.lo) / f.step)
    else none
  match r, m with
  | some r, some m => some (r * f.per + m)
  | _, _ => none

/-- The instances of the field that lie in the register at offset `off`. -/
def Fld.instsAt (f : Fld) (off : Nat) : List Nat := (List.range f.per).filterMap fun m => f.inst? off (f.lo + f.step * m)

end Sys2Proof.Machine
end

