-- ==== Sys2Proof/Machine/Addr.lean ====
section
/-! DEFINITION. The RDMA-visible memory map (R51), the page index (R54), the ring register blocks (R60, R67), and what each
die owns (R35). Every page is named by its RDMA byte address. -/

namespace Sys2Proof.Machine

/-- RDMA address of page `p` of die `d`'s window (R51, R54). -/
def diePage (d p : Nat) : Nat := d * 0x4000000 + p * 0x1000

/-- RDMA address of page `p` of the package window (R51, R54). -/
def pkgPage (p : Nat) : Nat := 0xF000000 + p * 0x1000

/-! Pages by unit, at the places of R54. -/

def ctlDiePage (d : Nat) : Nat := diePage d 0x000
def clkPage (d : Nat) : Nat := diePage d 0x001
def timPage (d : Nat) : Nat := diePage d 0x002
def mshPage (d : Nat) : Nat := diePage d 0x003
def f2fPage (d : Nat) : Nat := diePage d 0x004
/-- Page of LPDDR6 device `n`, 0 to 11. -/
def memPage (n : Nat) : Nat := diePage (n / 3) (0x005 + n % 3)
def pwrDiePage (d : Nat) : Nat := diePage d 0x008
def ctrDiePage (d : Nat) : Nat := diePage d 0x009
/-- Page of optical engine `e`, 0 to 15. -/
def engPage (e : Nat) : Nat := diePage (e / 4) (0x010 + e % 4)
/-- Page of physical optical port `p`, 0 to 511. -/
def portPage (p : Nat) : Nat := diePage (p / 128) (0x100 + p % 128)
def bypPage (e : Nat) : Nat := diePage (e / 4) (0x018 + e % 4)
/-- Page of pipeline `n`, 0 to 31. -/
def swpPage (n : Nat) : Nat := diePage (n / 8) (0x020 + n % 8)
def fwdPage (d : Nat) : Nat := diePage d 0x028
def bufPage (d : Nat) : Nat := diePage d 0x029
def schDiePage (d : Nat) : Nat := diePage d 0x02A
def schPage (p : Nat) : Nat := diePage (p / 128) (0x200 + p % 128)
def galPage (d : Nat) : Nat := diePage d 0x02B
def lndPage (d : Nat) : Nat := diePage d 0x030
def grpPage (d : Nat) : Nat := diePage d 0x031
def trgPage (d : Nat) : Nat := diePage d 0x032
/-- Page of combine core `c`, 0 to 31. -/
def cmbPage (c : Nat) : Nat := diePage (c / 8) (0x040 + c % 8)
def arrPage (c : Nat) : Nat := diePage (c / 8) (0x048 + c % 8)
def vecPage (c : Nat) : Nat := diePage (c / 8) (0x050 + c % 8)
def xsePage (c : Nat) : Nat := diePage (c / 8) (0x058 + c % 8)
/-- Page of management port `m`, M0 to M3: M0 and M1 on die 0, M2 and M3 on die 3 (R47, R74). -/
def mgtPage (m : Nat) : Nat := diePage (m / 2 * 3) (0x060 + m % 2)
def ctlPkgPage : Nat := pkgPage 0x000
def bootPage : Nat := pkgPage 0x001
def secPage : Nat := pkgPage 0x002
def pwrPkgPage : Nat := pkgPage 0x003
def ctrPkgPage : Nat := pkgPage 0x004
def mgtPkgPage : Nat := pkgPage 0x008

/-- Register block of command ring `r` (R60). -/
def ringBlock (r : Nat) : Nat := pkgPage (0x100 + r / 32) + 0x100 + r % 32 * 0x70

/-- Page that holds the register block of command ring `r`. -/
def ringPage (r : Nat) : Nat := pkgPage (0x100 + r / 32)

/-- Register block of event ring `e` (R67). -/
def evrBlock (e : Nat) : Nat := pkgPage (0x010 + e / 32) + 0x100 + e % 32 * 0x70

/-- Page that holds the register block of event ring `e`. -/
def evrPage (e : Nat) : Nat := pkgPage (0x010 + e / 32)

/-- Ring memory of command ring `r` (R51). -/
def ringMem (r : Nat) : Nat := 0x100000000 + r * 0x400000

/-- Staging window of session `s` (R51). -/
def stagingBase (s : Nat) : Nat := 0x800000000 + s * 0x4000000

/-- Length of one staging window: 64 MiB. -/
def stagingSize : Nat := 0x4000000

/-- Telemetry region of die `d` (R51, R461). -/
def telemetryBase (d : Nat) : Nat := 0xC00000000 + d * 0x100000000

/-! What each die owns (R35, R78). -/

/-- Die of physical port `p`. -/
def dieOfPort (p : Nat) : Nat := p / 128
/-- Engine of physical port `p`. -/
def engOfPort (p : Nat) : Nat := p / 32
/-- Pipeline of physical port `p`. -/
def pipeOfPort (p : Nat) : Nat := p / 16
/-- Physical port of logical port `l`. -/
def physOf (l : Nat) : Nat := l / 4
/-- Die of combine core `c`. -/
def dieOfCore (c : Nat) : Nat := c / 8
/-- Cluster (of the package) of combine core `c`. -/
def clusterOfCore (c : Nat) : Nat := c / 2

/-- The kind of block a mapped page holds, from its RDMA address; `none` where no page is mapped (R51, R54). -/
def blkOfPage (a : Nat) : Option Blk :=
  let n := a / 0x1000
  if 0x10000 ≤ n then none
  else if 0xF000 ≤ n then
    let p := n - 0xF000
    if p = 0 then some .ctlPkg
    else if p = 1 then some .boot
    else if p = 2 then some .sec
    else if p = 3 then some .pwrPkg
    else if p = 4 then some .ctrPkg
    else if p = 8 then some .mgtPkg
    else if 0x010 ≤ p ∧ p < 0x018 then some .ctlEvr
    else if 0x100 ≤ p ∧ p < 0x180 then some .ctlRing
    else none
  else
    let d := n / 0x4000
    let p := n % 0x4000
    if p = 0 then some .ctlDie
    else if p = 1 then some .clk
    else if p = 2 then some .tim
    else if p = 3 then some .msh
    else if p = 4 then some .f2f
    else if 5 ≤ p ∧ p ≤ 7 then some .mem
    else if p = 8 then some .pwrDie
    else if p = 9 then some .ctrDie
    else if 0x010 ≤ p ∧ p < 0x014 then some .optEng
    else if 0x018 ≤ p ∧ p < 0x01C then some .byp
    else if 0x020 ≤ p ∧ p < 0x028 then some .swp
    else if p = 0x028 then some .fwd
    else if p = 0x029 then some .buf
    else if p = 0x02A then some .schDie
    else if p = 0x02B then some .gal
    else if p = 0x030 then some .lnd
    else if p = 0x031 then some .grp
    else if p = 0x032 then some .trg
    else if 0x040 ≤ p ∧ p < 0x048 then some .cmb
    else if 0x048 ≤ p ∧ p < 0x050 then some .arr
    else if 0x050 ≤ p ∧ p < 0x058 then some .vec
    else if 0x058 ≤ p ∧ p < 0x060 then some .xse
    else if 0x060 ≤ p ∧ p < 0x062 ∧ (d = 0 ∨ d = 3) then some .mgtPort
    else if 0x100 ≤ p ∧ p < 0x180 then some .optPort
    else if 0x200 ≤ p ∧ p < 0x280 then some .schPort
    else none

/-- The address is that of a mapped page. -/
def isPage (a : Nat) : Bool := a % 0x1000 == 0 && (blkOfPage a).isSome

/-- Block type code of PG_ID (R54). -/
def Blk.code : Blk → Nat
  | .ctlDie | .ctlPkg | .ctlRing | .ctlEvr => 0x01
  | .clk => 0x02 | .tim => 0x03 | .msh => 0x04 | .f2f => 0x05 | .mem => 0x06
  | .pwrDie | .pwrPkg => 0x07
  | .optEng | .optPort => 0x08
  | .byp => 0x09 | .swp => 0x0A | .fwd => 0x0B | .buf => 0x0C
  | .schDie | .schPort => 0x0D
  | .gal => 0x0E | .lnd => 0x0F | .grp => 0x10 | .trg => 0x11 | .cmb => 0x12 | .arr => 0x13 | .vec => 0x14 | .xse => 0x15
  | .ctrDie | .ctrPkg => 0x16
  | .mgtPort | .mgtPkg => 0x17
  | .boot => 0x18 | .sec => 0x19
  | .hdr | .ctrs => 0x00

/-- Die named by PG_ID: 0 to 3, or 7 for package pages (R55). -/
def dieOfPage (a : Nat) : Nat := if 0xF000000 ≤ a then 7 else a / 0x4000000

/-- Global instance number of PG_ID (R54). -/
def instOfPage (a : Nat) : Nat :=
  let d := dieOfPage a
  let p := if 0xF000000 ≤ a then (a - 0xF000000) / 0x1000 else a % 0x4000000 / 0x1000
  match blkOfPage a with
  | some .mem => 3 * d + (p - 5)
  | some .optEng => 4 * d + (p - 0x10)
  | some .optPort => 128 * d + (p - 0x100)
  | some .byp => 4 * d + (p - 0x18)
  | some .swp => 8 * d + (p - 0x20)
  | some .schPort => 128 * d + (p - 0x200)
  | some .cmb => 8 * d + (p - 0x40)
  | some .arr => 8 * d + (p - 0x48)
  | some .vec => 8 * d + (p - 0x50)
  | some .xse => 8 * d + (p - 0x58)
  | some .mgtPort => d / 3 * 2 + (p - 0x60)
  | some .ctlEvr => p - 0x10
  | some .ctlRing => p - 0x100
  | some .ctlPkg | some .boot | some .sec | some .pwrPkg | some .ctrPkg | some .mgtPkg => 0
  | _ => d

/-- The page is the package PWR page, the one page with banked fields (R396; every other page has banked = 0). -/
def pageBanked (a : Nat) : Bool := a == pwrPkgPage

/-- Page address bits [27:12], as event entries and counter records carry a page (R67, R458). -/
def pageCode (a : Nat) : Nat := a / 0x1000 % 0x10000

/-- The mapped page addresses of die `d`, in ascending order (R54). -/
def diePages (d : Nat) : List Nat := ((List.range 0x280).map (diePage d)).filter fun a => (blkOfPage a).isSome

/-- The mapped package page addresses, in ascending order (R54). -/
def pkgPages : List Nat := ((List.range 0x180).map pkgPage).filter fun a => (blkOfPage a).isSome

end Sys2Proof.Machine
end

