-- ==== Sys2Proof/Machine/Sparse.lean ====
section
/-! DEFINITION. Sparse maps: plain data for everything the package holds many of (registers, table entries, contexts,
bytes). A map is a list of key and value pairs with strictly rising keys; an unlisted key holds a default. -/

namespace Sys2Proof.Machine

/-- A sparse map from numbers. -/
abbrev Sparse (α : Type) := List (Nat × α)

namespace Sparse

variable {α : Type}

/-- The value at key `k`, `d` where the map lists none. -/
def get (d : α) : Sparse α → Nat → α
  | [], _ => d
  | (i, v) :: m, k => if k = i then v else get d m k

/-- The map lists key `k`. -/
def has : Sparse α → Nat → Bool
  | [], _ => false
  | (i, _) :: m, k => if k = i then true else has m k

/-- The map with key `k` set to `v`. -/
def set : Sparse α → Nat → α → Sparse α
  | [], k, v => [(k, v)]
  | (i, w) :: m, k, v =>
    if k < i then (k, v) :: (i, w) :: m
    else if k = i then (k, v) :: m
    else (i, w) :: set m k v

/-- The map without key `k`. -/
def del : Sparse α → Nat → Sparse α
  | [], _ => []
  | (i, w) :: m, k => if k = i then del m k else (i, w) :: del m k

/-- The map without the keys that satisfy `p`. -/
def delIf (m : Sparse α) (p : Nat → Bool) : Sparse α := m.filter fun e => !p e.1

/-- The value at key `k` changed by `f`. -/
def upd (d : α) (m : Sparse α) (k : Nat) (f : α → α) : Sparse α := set m k (f (get d m k))

/-- Every listed value changed by `f`, which also sees the key. -/
def mapv (m : Sparse α) (f : Nat → α → α) : Sparse α := m.map fun e => (e.1, f e.1 e.2)

/-- Keys are strictly rising. -/
def sorted : Sparse α → Bool
  | [] => true
  | [_] => true
  | a :: b :: m => decide (a.1 < b.1) && sorted (b :: m)

end Sparse

end Sys2Proof.Machine
end

