-- ==== Sys2Proof/Machine/State.lean ====
section
/-! DEFINITION. The state of the package as plain data: every register, table, queue, buffer, counter, mode and pin the spec
gives it, and the queue of waiting commands. Register fields live in one sparse map, `regs`, keyed by address and bit; a
field it does not list holds its reset value. Each other structure holds what the registers do not. -/

namespace Sys2Proof.Machine

/-- Why a command stops the machine. -/
inductive Fault where
  /-- The command is not one the table admits: an operand lies outside its range (Sys2Proof.Instr.wellFormed is false).
  Raised by the meanings of the rows with a range to check. Safe: no such command reaches the part. -/
  | illFormed
  deriving DecidableEq, Repr

/-- Why a command is refused. -/
inductive Refusal where
  /-- The command has no meaning in this model yet. Raised by arms of `exec` alone. Safe: nothing is claimed of it. -/
  | notModelled (mnemonic : String)
  deriving DecidableEq, Repr

/-- What a step shows at the package boundary. -/
inductive Output where
  /-- A frame leaves on a logical port (R204). -/
  | frame (lport : Nat) (bytes : List Byte)
  /-- An RDMA WRITE by the device on data queue pair `q` of management port `m` (R49). -/
  | rdmaWrite (m q rkey addr : Nat) (data : List Byte)
  /-- A SEND by the device (R66). -/
  | send (m q : Nat) (data : List Byte)
  /-- An acknowledgement of a host request. -/
  | ack (m q : Nat)
  /-- NAK Invalid Request (R49). -/
  | nakInvalid (m q : Nat)
  /-- NAK Remote Access Error (R51, R52). -/
  | nakAccess (m q : Nat)
  /-- NAK Remote Operational Error (R363). -/
  | nakOperational (m q : Nat)
  /-- The answer of an RDMA READ. -/
  | readResponse (m q : Nat) (data : List Byte)
  /-- A connection REP with its private data (R427). -/
  | cmRep (m hostQpn qpn : Nat) (data : List Byte)
  /-- A connection REJ (R427). -/
  | cmRej (m hostQpn : Nat)
  /-- A Neighbor Advertisement for the port's own address (R47). -/
  | neighborAdvert (m addr : Nat)
  /-- A write to a laser module register over I3C (R82). -/
  | i3cWrite (engine addr value : Nat)
  /-- Local fault ordered sets start on a logical port (R88, R91). -/
  | localFault (lport : Nat)
  /-- The frame in transmission on a logical port ends here, with an inverted FCS (R176). -/
  | cut (lport : Nat)
  deriving DecidableEq, Repr

/-! ### Management ports (R47 to R50, R427) -/

/-- State of a data queue pair. -/
inductive QpMode where
  | free | connecting | ready | error
  deriving DecidableEq, Repr

/-- A request the device has sent and no answer has settled. -/
structure Request where
  isSend : Bool
  rkey : Nat
  addr : Nat
  data : List Byte
  deriving DecidableEq, Repr

/-- A data queue pair. -/
structure Qp where
  mode : QpMode
  /-- Session that holds it; 0xFF for none. -/
  session : Nat
  hostQpn : Nat
  /-- Requests sent and not yet acknowledged, oldest first. -/
  unacked : List Request
  /-- Retries of the oldest request after an ACK timeout. -/
  retries : Nat
  /-- Retries of the oldest request after an RNR NAK. -/
  rnrRetries : Nat
  /-- An RNR NAK arrived and its timer runs. -/
  rnrWait : Bool
  /-- Connection exchange: host nonce, device nonce. -/
  hostNonce : List Byte
  devNonce : List Byte
  /-- The last frame it passed was not protected (R426). -/
  plain : Bool
  deriving DecidableEq, Repr

/-- A queue pair no exchange has taken. -/
def Qp.none : Qp := ⟨.free, 0xFF, 0, [], 0, 0, false, [], [], false⟩

/-- A session (R50). -/
structure Session where
  /-- Admitted and not ended. -/
  active : Bool
  /-- Number taken by an exchange that has not ended. -/
  reserved : Bool
  /-- The credential is an ephemeral key, of a session admitted while UNOWNED (R427). -/
  ephemeral : Bool
  /-- Credential slot 1 to 15, or 0 under an ephemeral key. -/
  slot : Nat
  /-- Ephemeral public key, or 0. -/
  key : Nat
  /-- rkeys of page windows, ring memory, staging window and telemetry (R51, R427). -/
  rkeys : List Nat
  /-- Time of the last packet on any of its queue pairs, in ns of `State.now`. -/
  last : Nat
  deriving DecidableEq, Repr

/-- A session number no admission has taken. -/
def Session.none : Session := ⟨false, false, false, 0, 0, [], 0⟩

/-- A fetched command descriptor: its index and quadwords D0 to D7 (R62). -/
structure Descriptor where
  index : Nat
  d : List Nat
  /-- Owner of the ring when it was fetched, and whether the opcode and the job were within that session's rights then (R428). -/
  owner : Nat
  allowed : Bool
  /-- Roles of that session then, as its word of permission table 0, and its credential: an ephemeral key or a slot (R428, R430). -/
  roles : Nat
  cred : Bool × Nat
  /-- It was read with an uncorrectable error, so it completes with HW_ERROR (R363). -/
  bad : Bool
  /-- Its ring stopped with QP_NOT_READY after it was fetched, so its completion is discarded (R61). -/
  mute : Bool
  deriving DecidableEq, Repr

/-- What a command ring holds beside its registers. -/
structure Ring where
  /-- Last producer index recorded by a doorbell. -/
  producer : Nat
  /-- Index of the next completion. -/
  cplIndex : Nat
  /-- Descriptors fetched and not completed, oldest first. -/
  inflight : List Descriptor
  /-- The oldest one has started and waits for an event of its own. -/
  waiting : Bool
  deriving DecidableEq, Repr

/-- A ring at its enable (R70). -/
def Ring.fresh : Ring := ⟨0, 0, [], false⟩

/-- A pending dual-controlled item (R58, R65, R430). -/
structure DualItem where
  ticket : Nat
  /-- Page whose commit is pending, or 0 for an opcode. -/
  page : Nat
  /-- Commit sequence of a page item. -/
  seq : Nat
  /-- Opcode of an opcode item. -/
  opcode : Nat
  /-- D1 to D7 of an opcode item. -/
  words : List Nat
  /-- Digest of the staged record, for KEY_ENROL. -/
  digest : Nat
  /-- First session and its credential. -/
  session : Nat
  ephemeral : Bool
  cred : Nat
  /-- First session's command ring, 0x1000 for none. -/
  ring : Nat
  deriving DecidableEq, Repr

/-- Management ports, sessions, rings and dual control. -/
structure Mgmt where
  /-- Data queue pairs, key 64 m + q. -/
  qps : Sparse Qp
  sessions : Sparse Session
  rings : Sparse Ring
  /-- Event sequence of the next entry of an event ring (R67). -/
  evrSeq : Sparse Nat
  dual : List DualItem
  /-- Ticket issued last (R430); tickets count from 1. -/
  lastTicket : Nat
  /-- Times of failed exchanges in the last second, key port (R427). -/
  failTimes : Sparse (List Nat)
  /-- Cipher applied at the last key installation of a port (R48, R74): 0 GCM-AES-256, 1 GCM-AES-XPN-256. -/
  cipher : Sparse Nat
  /-- Next packet number expected on the receive channel of a port, unlisted 1 (R48). -/
  nextPn : Sparse Nat
  /-- RoCEv2 frames for the own service 0x02 that wait for the RoCEv2 engine of M0, oldest first (R130). -/
  relayed : List (List Byte)
  deriving DecidableEq, Repr

/-! ### Power (R383 to R394) -/

/-- The 48 V stage, the rails and the power pins. -/
structure Power where
  /-- VIN48 has met the start threshold and not fallen below 38.0 V since. -/
  supplied : Bool
  /-- Steps of R385 done; 6 with PWR_OK high. -/
  step : Nat
  pwrOk : Bool
  /-- Failed power-on runs since the supply came. -/
  failures : Nat
  /-- A second failure keeps the stage off until VIN48 falls below 38.0 V (R385). -/
  lockedOff : Bool
  /-- The stage holds its last setpoints (R384). -/
  held : Bool
  /-- Causes of PWR_FAULT bits that have not ended (R393). -/
  causes : Nat
  /-- THERM_N is high. -/
  thermN : Bool
  /-- FAULT_N is high (R393). -/
  faultN : Bool
  /-- SYSCLK is lost, and forwarding stopped, until a cold or warm reset (R40). -/
  stopped : Bool
  /-- VCMB of each die's clusters that are not gated, in 10 mV (R42, R437). -/
  vcmb : Sparse Nat
  deriving DecidableEq, Repr

/-! ### Reset, boot and persistence (R397 to R414) -/

/-- One port record of the Afelo plan (R408). -/
structure PortRec where
  role : Nat
  breakout : Nat
  fibre : Nat
  leaf : Nat
  uplink : Nat
  group : Nat
  peer : Nat
  partner : Nat
  serial : Nat
  deriving DecidableEq, Repr

/-- The record of an UNUSED port. -/
def PortRec.unused : PortRec := ⟨3, 0, 0, 0, 0, 0, 0, 0, 0⟩

/-- The Afelo plan (R27, R408). -/
structure Plan where
  n : Nat
  hall : Nat
  rail : Nat
  spine : Nat
  plane : Nat
  seq : Nat
  /-- The 96-bit fabric prefix. -/
  pfx : Nat
  digest : Nat
  ports : List PortRec
  deriving DecidableEq, Repr

/-- Identity of the device (configuration record type 1, R402). -/
structure Identity where
  macBase : Nat
  mgtMacs : List Nat
  mgtAddrs : List Nat
  sysName : List Byte
  deriving DecidableEq, Repr

/-- An endpoint table entry (R142, R143, R156). -/
structure EpEntry where
  valid : Bool
  fea : Nat
  static : Bool
  hit : Bool
  stale : Bool
  /-- The entry names a logical port, beside a leaf. -/
  portValid : Bool
  leaf : Nat
  lport : Nat
  /-- Insertion stamp and move count. -/
  stamp : Nat
  moves : Nat
  deriving DecidableEq, Repr

/-- An LPM entry: prefix, length, value quadword and insertion stamp (R151, R156, R158). -/
structure LpmEntry where
  addr : Nat
  len : Nat
  value : Nat
  stamp : Nat
  /-- Slots that insertions have moved it out of, with the insertion counter at each move, oldest first (R152). -/
  was : List (Nat × Nat)
  deriving DecidableEq, Repr

/-- The active configuration copy, or the content of a configuration image (R402). -/
structure CfgCopy where
  seq : Nat
  /-- The image's digest field (R401). -/
  digest : Nat
  identity : Identity
  plan : Option Plan
  /-- Record type 3: register field keys and values. -/
  fields : Sparse Nat
  statics : List EpEntry
  lpm : List LpmEntry
  /-- Record type 5: circuits as (engine, port a, port b), engine-local ports with a < b. -/
  circuits : List (Nat × Nat × Nat)
  /-- Record type 5: switching counts, key 64 engine + 2 port + side. -/
  counts : Sparse Nat
  deriving DecidableEq, Repr

/-- A configuration image in flash: valid or not, and its content. -/
structure CfgImage where
  valid : Bool
  copy : CfgCopy
  deriving DecidableEq, Repr

/-- A firmware image in flash: what the ROM's checks read of it (R401, R419). -/
structure FwImage where
  /-- Magic, version, length and digest are right (R401). -/
  valid : Bool
  seq : Nat
  /-- The root key of the boot header, accepted by the ROM, signs bytes 0 to 71 of the block (R419). -/
  rootOk : Bool
  /-- The signing key signs the image (R419). -/
  signOk : Bool
  /-- Security version, and the lowest one the signing key may sign. -/
  secVersion : Nat
  secLowest : Nat
  /-- SM3 of the signature block, for M1 (R423). -/
  blockDigest : Nat
  deriving DecidableEq, Repr

/-- Boot and flash. -/
structure Boot where
  fwA : FwImage
  fwB : FwImage
  cfgA : CfgImage
  cfgB : CfgImage
  /-- SM3 of the boot header, for M0 (R423). -/
  headerDigest : Nat
  /-- The active configuration copy (R402). -/
  copy : CfgCopy
  /-- Plan active in the device; its record is in the copy too. -/
  plan : Option Plan
  /-- Control cores running, bit k for core k (R73). -/
  cores : Nat
  /-- The cold boot sequence has reached step 8 (R406). -/
  coldDone : Bool
  /-- A package warm reset is in progress, from its entry to step 9 of R406. -/
  warm : Bool
  /-- The warm reset waits for its release, steps 1 and 2 done. -/
  warmHeld : Bool
  /-- Dies whose LPDDR6 is not used (R360), bit d. -/
  lpUnused : Nat
  /-- Temperature of each LPDDR6 device at its last training, in 0.1 °C (R361); absent until the first reading after a boot, reset or
  self-refresh training. -/
  trainTemp : Sparse Nat
  /-- A save without a command is due (R403, R442). -/
  saveDue : Bool
  /-- The image that a save in progress is writing, B or A, and the ring of its CONFIG_SAVE, 0x1000 for firmware's own save (R403). -/
  writing : Option (Bool × Nat)
  /-- Time of PWR_OK rising or of the release, for BOOT_STATUS.boot_ms. -/
  startedAt : Nat
  deriving DecidableEq, Repr

/-! ### Security (R418 to R430) -/

/-- The sealed part of a security region copy, with its sequence (R420). -/
structure SecCopy where
  valid : Bool
  seq : Nat
  /-- Key slots, key slot number: the 64-byte key, or the 32-byte root in slot 0; 0 for an empty slot. -/
  keys : Sparse Nat
  table0 : Sparse Nat
  table1 : Sparse Nat
  seq0 : Nat
  seq1 : Nat
  floor : Nat
  deriving DecidableEq, Repr

/-- Keys, permission tables, measurements. -/
structure Sec where
  copyA : SecCopy
  copyB : SecCopy
  /-- Contents in use: key slots, active and shadow tables (R425, R428). -/
  keys : Sparse Nat
  active0 : Sparse Nat
  shadow0 : Sparse Nat
  active1 : Sparse Nat
  shadow1 : Sparse Nat
  /-- Measurement registers M0 to M7 (R423). -/
  meas : Sparse Nat
  /-- Extensions of M5 since the last reset (R424). -/
  m5Count : Nat
  deriving DecidableEq, Repr

/-! ### Time (R367 to R379) -/

/-- The servo and liveness state of one domain (R374, R375). -/
structure Domain where
  /-- Servo frequency and integral, signed, in 2^-32 ns per ns. -/
  freq : Int
  integ : Int
  /-- Offsets in a row below lock_ns. -/
  lockRun : Nat
  /-- Offset writes, or PPS edges, in succession while LOST. -/
  succRun : Nat
  /-- Time of the last offset write or PPS edge, in ns of `State.now`; none before the first. -/
  lastAt : Option Nat
  /-- Live since, in ns of `State.now`. -/
  liveSince : Option Nat
  deriving DecidableEq, Repr

/-- A domain at reset. -/
def Domain.fresh : Domain := ⟨0, 0, 0, 0, none, none⟩

/-- A time message that firmware was handed: its logical port, its stamps in T0 and T1, and the message (R370, R371). -/
structure RxStamp where
  lport : Nat
  t0 : Nat
  t1 : Nat
  message : List Byte
  deriving DecidableEq, Repr

/-- An entry of a TX stamp queue (R373). -/
structure TxStamp where
  t0 : Nat
  t1 : Nat
  sub : Nat
  domain : Nat
  msgType : Nat
  seqId : Nat
  deriving DecidableEq, Repr

/-- The time base. Counters are in units of 2^-32 ns, modulo 2^48 seconds (R367). -/
structure Time where
  t0 : Nat
  t1 : Nat
  dom0 : Domain
  dom1 : Domain
  /-- Difference between SYSCLK x 40 and TIME_REF x 100 last measured (R377), in 2^-32 ns per ns. -/
  refDiff : Int
  /-- The difference is applied: TIME_REF is lost. -/
  refApplied : Bool
  /-- PPS_OUT level. -/
  ppsOut : Bool
  /-- When PPS_OUT last rose, and the second whose edge is past: raised, or stepped over (R379). -/
  ppsRise : Nat
  ppsLast : Option Int
  /-- TX stamp queues, key physical port, oldest first, and their overflow flags. -/
  txq : Sparse (List TxStamp)
  txqOverflow : Sparse Bool
  /-- Time messages handed to firmware with their RX stamps, oldest first (R371). -/
  inbox : List RxStamp
  deriving DecidableEq, Repr

/-! ### Optical ports (R75 to R95) and discovery (R133 to R138, R410 to R413) -/

/-- What a sub-port's lanes carry (R88, R91, R95). -/
inductive TxMode where
  | dark | localFault | remoteFault | idle
  /-- The pattern generator drives them with OPT_PRBS.gen_pattern. -/
  | pattern (n : Nat)
  /-- Unmodulated light, which the shutter of an unpowered engine passes. -/
  | cw
  deriving DecidableEq, Repr

/-- What follows when a sub-port's local fault time has passed and its shutter closes (R91): it stays dark, starts at step 5, or
starts with the rest of its port once all of it is dark (R80). -/
inductive AfterDark where
  | stay | restart | rejoin
  deriving DecidableEq, Repr

/-- Discovery state of a sub-port (R410). -/
inductive Disc where
  | notUp | unaccepted | accepted | held
  deriving DecidableEq, Repr

/-- A neighbour as its last valid HELLO shows it (R133, R410). -/
structure Neighbour where
  role : Nat
  hall : Nat
  rail : Nat
  plane : Nat
  spine : Nat
  leaf : Nat
  port : Nat
  gou : Nat
  serial : Nat
  deriving DecidableEq, Repr

/-- No neighbour. -/
def Neighbour.none : Neighbour := ⟨0, 0, 0, 0, 0, 0, 0, 0, 0⟩

/-- One sub-port, by logical port. -/
structure SubPort where
  tx : TxMode
  rxValid : Bool
  rxFault : RxFault
  after : AfterDark
  /-- Removed from spray sets and egress selection. -/
  disc : Disc
  holdReason : Nat
  cablingSwap : Bool
  byCommand : Bool
  twoWay : Bool
  /-- Destination MAC learned from HELLO (R114). -/
  nbrMac : Nat
  nbr : Neighbour
  /-- A valid HELLO has been received. -/
  heard : Bool
  helloSeq : Nat
  /-- Sequence of the neighbour's last HELLO. -/
  nbrSeq : Nat
  lldp : List Byte
  lldpTruncated : Bool
  deriving DecidableEq, Repr

/-- A sub-port at reset. -/
def SubPort.fresh : SubPort :=
  ⟨.dark, false, .none, .stay, .notUp, 0, false, false, false, 0, Neighbour.none, false, 0, 0, [], false⟩

/-- A laser source module as the device keeps it (R81, R84), by engine. -/
structure Module where
  /-- Found by ENTDAA with a strap that names the engine. -/
  associated : Bool
  /-- Failures of the transfer in progress. -/
  failed : Nat
  /-- Outputs commanded on. -/
  outEn : Nat
  /-- The engine's SRAM holds calibration coefficients (R85, R414). -/
  coeffs : Bool
  /-- Start of the calibration or verification in progress, in ns of `State.now`. -/
  calStart : Nat
  deriving DecidableEq, Repr

/-- A module not discovered. -/
def Module.absent : Module := ⟨false, 0, 0, false, 0⟩

/-! ### Bypass circuits (R96 to R109) -/

/-- A port draining under R101: its record until the drain ends, and whether its queues are empty and it sends local fault. -/
structure Draining where
  was : PortRec
  closing : Bool
  deriving DecidableEq, Repr

/-- A switching waiting or in progress: four cells of one circuit to CROSS or to BAR. -/
structure Switching where
  cross : Bool
  a : Nat
  b : Nat
  /-- Ring whose command waits for it. -/
  ring : Nat
  deriving DecidableEq, Repr

/-- A BYPASS_ENABLE that waits for its engine to cool (R102, check 5). -/
structure HotWait where
  engine : Nat
  a : Nat
  b : Nat
  ring : Nat
  deriving DecidableEq, Repr

/-- Cross-connects. Cells are keyed 64 engine + 2 port + side (0 receive, 1 transmit): 0 BAR, 1 CROSS, 2 UNCERTAIN. -/
structure Bypass where
  cells : Sparse Nat
  /-- Paths of the switch fabric, key 32 engine + port: the partner plus 1 (R96). -/
  paths : Sparse Nat
  counts : Sparse Nat
  /-- Switchings of an engine, the one in progress first when BYP_STATUS.switching is 1. -/
  queue : Sparse (List Switching)
  hot : List HotWait
  /-- Ports draining under R101, key physical port. -/
  draining : Sparse Draining
  /-- Cells differ from the circuit record, by engine. -/
  drift : Sparse Bool
  deriving DecidableEq, Repr

/-! ### Reliability (R433 to R448) -/

/-- An arithmetic or landing record kept for correlation (R441). -/
structure CoreErr where
  at_ : Nat
  signature : Nat
  unit : Nat
  engine : Nat
  landing : Bool
  tempBand : Nat
  clockMhz : Nat
  deriving DecidableEq, Repr

/-- Health of a physical port as firmware scores it (R446 to R448). -/
structure Health where
  /-- Penalties of the last 60 s: time and amount. -/
  penalties : List (Nat × Nat)
  score : Nat
  h : Nat
  quarantined : Bool
  capped : Bool
  /-- Evaluations in a row at or above the bound to rise. -/
  rising : Nat
  deriving DecidableEq, Repr

/-- Health at reset. -/
def Health.fresh : Health := ⟨[], 1000, 8, false, false, 0⟩

/-- Error records, correlation, health. -/
structure Rel where
  /-- Records, key die x 2^24 + (i mod 2^24): eight quadwords (R437). -/
  records : Sparse (List Nat)
  /-- Record index firmware reads next, by die. -/
  readTo : Sparse Nat
  /-- Records, by key, whose LPDDR6 was last found uncorrectable and has not been written since (R363). -/
  badRecords : List Nat
  history : Sparse (List CoreErr)
  health : Sparse Health
  /-- Times at which quarantines began (R448). -/
  begun : List Nat
  deriving DecidableEq, Repr

/-- The central reader (R457). -/
structure Reader where
  /-- Sweep number of the next sweep. -/
  sweepNo : Nat
  /-- Selects written since the reader last read the page, key page address. -/
  changed : Sparse Nat
  deriving DecidableEq, Repr

/-! ### Forwarding tables (R140 to R160) -/

/-- A queued learn action (R146): source FEA, arrival leaf and arrival logical port. -/
structure LearnAct where
  fea : Nat
  leaf : Nat
  lport : Nat
  deriving DecidableEq, Repr

/-- An FEA in the foyer (R147, R149). -/
structure FoyerFea where
  fea : Nat
  hit : Bool
  stale : Bool
  deriving DecidableEq, Repr

/-- The forwarding tables. -/
structure Tables where
  /-- Endpoint table copies, key die x 2^19 + slot. -/
  ep : Sparse EpEntry
  /-- The foyer, held alike in every copy. -/
  foyer : List FoyerFea
  /-- LPM memory, key slot, longest prefixes in the lowest slots (R151); every copy holds the same. -/
  lpm : Sparse LpmEntry
  /-- Up-route banks: value quadword by bank x 1024 + set x 128 + slot. -/
  up : Sparse Nat
  /-- Gallery route banks: value quadword by bank x 64 + hall. -/
  gr : Sparse Nat
  /-- Learn actions of each arrival die, oldest first. -/
  learnQ : Sparse (List LearnAct)
  deriving DecidableEq, Repr

/-! ### The switch (R162 to R218) -/

/-- A frame in treads. -/
structure Frame where
  /-- Bytes without tag and FCS. -/
  bytes : List Byte
  /-- Receiving logical port; 0xFFFF for a frame of the device. -/
  src : Nat
  /-- Die that holds the treads. -/
  die : Nat
  pool : Pool
  treads : Nat
  cls : Nat
  job : Nat
  /-- Queues and waits that hold the frame (R174). -/
  refs : Nat
  /-- The device originated it: Hop Limit and hop count leave as they stand. -/
  own : Bool
  /-- It is an HJT frame, so hop_count rises at S7 (R124). -/
  hjt : Bool
  /-- It counts in the ingress count of its sub-port and class (R168). -/
  counted : Bool
  /-- It is a RESULT of the device, so its discarded copies are reported (R284). -/
  result : Bool
  deriving DecidableEq, Repr

/-- What S7 writes into one copy (R278, R283): the destination FEA, and for a RESULT the member and its address. -/
structure CopyHdr where
  fea : Nat
  result : Option (Nat × Nat)
  deriving DecidableEq, Repr

/-- A frame's place in an egress queue. -/
structure QEntry where
  id : Nat
  /-- Time of enqueue, in ns of `State.now`. -/
  at_ : Nat
  /-- One of several copies (R174, R175). -/
  mc : Bool
  /-- Eligible for escape (R193). -/
  eligible : Bool
  /-- NO_ESCAPE has been counted for it (R195). -/
  noEscape : Bool
  /-- Destination hall, in a job-slot queue. -/
  hall : Nat
  hdr : Option CopyHdr
  deriving DecidableEq, Repr

/-- An egress queue to be entered. -/
structure Target where
  key : Nat
  mc : Bool
  hall : Nat
  hdr : Option CopyHdr
  deriving DecidableEq, Repr

/-- Why a frame waits in its treads. -/
inductive WaitKind where
  /-- Admitted: treads of the egress die are reserved as frame `copy`, and mesh credit is awaited (R173). -/
  | mesh (copy : Nat)
  /-- Hold class: treads of the egress die are awaited (R173). -/
  | intake
  /-- Hold class at S5: an open member or a ring queue is awaited (R193). -/
  | eligible
  /-- On the banister: room to continue is awaited (R192). -/
  | ring
  /-- S5 selection is held by a route drain (R199). -/
  | held
  deriving DecidableEq, Repr

/-- A frame that waits. -/
structure Wait where
  id : Nat
  kind : WaitKind
  /-- Egress die of `mesh` and `intake`. -/
  die : Nat
  targets : List Target
  /-- Destination hall and copy header of a selection still to be made. -/
  hall : Nat
  hdr : Option CopyHdr
  mc : Bool
  /-- NO_ESCAPE has been counted for it (R195). -/
  noEscape : Bool
  deriving DecidableEq, Repr

/-- The frame that left last on a sub-port: when its last byte goes, in ns of `State.now`, and what a cut of it must report (R176). -/
structure Sending where
  stop : Nat
  result : Bool
  bytes : List Byte
  deriving DecidableEq, Repr

/-- A route drain, running or waiting for the one before it (R199, R200). -/
structure Drain where
  /-- Table 2 or 3. -/
  table : Nat
  seq : Nat
  /-- Ring of its command; 0x1000 for firmware's own under PLAN_LOAD. -/
  ring : Nat
  started : Bool
  /-- Logical ports whose gallery queues, and whose ring queues, are affected. -/
  ports : List Nat
  rings : List Nat
  expired : Bool
  startedAt : Nat
  deriving DecidableEq, Repr

/-- A gate list, times in ns (R211). -/
structure GateList where
  enable : Bool
  defaults : Nat
  length : Nat
  cycle : Nat
  base : Nat
  /-- Entries: states x 2^32 + interval. -/
  entries : Sparse Nat
  deriving DecidableEq, Repr

/-- The operational list at reset: disabled. -/
def GateList.fresh : GateList := ⟨false, 0xFF, 0, 1000000, 0, []⟩

/-- Buffers, queues, schedulers and gates. -/
structure Switch where
  nextId : Nat := 0
  frames : Sparse Frame := []
  /-- Queues, key (8 l + c) x 66 + slot: job slots 0 to 63, 64 the single FIFO, 65 the ring queue. -/
  queues : Sparse (List QEntry) := []
  /-- Waiting frames, oldest first. -/
  waits : List Wait := []
  /-- Mesh credits in use: (source die x 4 + egress die) x 4 + pool, and the time at which each comes back (R36). -/
  meshBusy : List (Nat × Nat) := []
  /-- Ingress counts of hold classes in treads, key 8 l + c (R168). -/
  ingress : Sparse Nat := []
  /-- XOFF stands toward the partner, key 8 l + c. -/
  xoff : Sparse Bool := []
  /-- Pause received and not run out, key 8 l + c (R169). -/
  paused : Sparse Bool := []
  /-- Headroom treads in use, key logical port (R170). -/
  headUse : Sparse Nat := []
  /-- Deep treads in use as headroom and as overflow, by die. -/
  deepHeadUse : Sparse Nat := []
  overflowUse : Sparse Nat := []
  /-- Recent assignments A_i and rotating pointers, by die and set (R184). -/
  spray : Sparse Nat := []
  sprayPtr : Sparse Nat := []
  /-- DWRR credits of classes, key 8 l + c, and pointers, key l (R206). -/
  credit : Sparse Int := []
  classPtr : Sparse Nat := []
  /-- DWRR credits of job slots, key (8 l + c) x 64 + slot, and pointers, key 8 l + c (R197). -/
  slotCredit : Sparse Int := []
  slotPtr : Sparse Nat := []
  /-- Tokens in 2^-16 byte: shapers 8 l + c, policers 16384 + 8 l + c, slot shapers 32768 + 64 p + slot. An unlisted
  bucket is full (R207). -/
  buckets : Sparse Int := []
  /-- Rates, as added per update, that a write has replaced and that apply until the next update, keyed as `buckets` (R210). -/
  rates : Sparse Nat := []
  /-- Weights that a write has replaced and that apply until the next round: classes 8 l + c, slots 16384 + (8 l + c) x 64 + slot (R210). -/
  weights : Sparse Nat := []
  /-- Operational gate lists, key physical port. -/
  gates : Sparse GateList := []
  /-- The list that a pending change makes operational, and its change time in ns, key physical port (R213, R214). -/
  nextGates : Sparse (GateList × Nat) := []
  /-- Frames that leave on sub-ports, key logical port. -/
  sending : Sparse Sending := []
  drains : List Drain := []
  /-- Ring-queue size applied at the last plan activation, by die (R192). -/
  ringTreads : Sparse Nat := []
  /-- Deep region applied at the last die or wider reset, in GiB, by die (R172). -/
  deepGib : Sparse Nat := []
  deriving DecidableEq, Repr

/-! ### Landings, groups and collectives (R263 to R292, R338 to R349) -/

/-- A local member of a group (R264). -/
structure GroupMember where
  index : Nat
  fea : Nat
  /-- Host address of the result image of chunk 0. -/
  base : Nat
  deriving DecidableEq, Repr

/-- A group entry, its member list and its event ring (R263 to R265), and how many of its residual areas lie in the DRAM region
of each die (R344). -/
structure Group where
  /-- G0 to G7. -/
  q : List Nat
  /-- Members in each of 64 halls. -/
  halls : List Nat
  members : List GroupMember
  ring : Nat
  areas : List Nat
  deriving DecidableEq, Repr

/-- A group never written. -/
def Group.none : Group := ⟨[0, 0, 0, 0, 0, 0, 0, 0], [], [], 0x100, [0, 0, 0, 0]⟩

/-- An endpoint contribution as the directory keeps it: what R132 echoes, its check or token (R257, R259), the members it stands
for (R245) and its T0 stamp (R287). -/
structure Accepted where
  member : Nat
  src : Nat
  seq : Nat
  remote : Nat
  check : Nat
  token : Nat
  wp : Nat
  at_ : Nat
  last : Bool
  /-- An identity contribution (R129, R245). -/
  identity : Bool
  deriving DecidableEq, Repr

/-- A spine partial fragment as the directory keeps it. -/
structure Fragment where
  hall : Nat
  /-- First element and the chunk element count it carries. -/
  first : Nat
  count : Nat
  check : Nat
  token : Nat
  wp : Nat
  deriving DecidableEq, Repr

/-- A fragment that waits in its treads for the hall stage (R276), with the cluster of its arrival port. -/
structure HeldFragment where
  id : Nat
  cluster : Nat
  deriving DecidableEq, Repr

/-- Kinds of landing (R270). -/
inductive LandingKind where
  | head | die | relay
  deriving DecidableEq, Repr

/-- States of a landing that is not FREE (R272); ABANDONED and INCOMPLETE pass within one step of the model. -/
inductive LandingState where
  | open_ | merge | gallery | emit
  deriving DecidableEq, Repr

/-- Where a head stands with its residual area (R345). -/
inductive AreaStage where
  /-- It needs no area, or the HALL event has been raised. -/
  | none
  /-- It waits for the area. -/
  | waiting
  /-- It holds the area and the copy to the staging slot is under way. -/
  | copying
  /-- It holds the area and the staging slot serves HALL. -/
  | held
  /-- HALL has ended and the slot is to be written back. -/
  | writeBack
  deriving DecidableEq, Repr

/-- A landing. -/
structure Landing where
  kind : LandingKind
  die : Nat
  core : Nat
  state : LandingState
  /-- SRAM reserved in KiB, and RESULT treads of the reservation not yet written. -/
  kib : Nat
  treads : Nat
  /-- Contributions dispatched to the landing, and activations of them that have not ended. -/
  dispatched : Nat
  open_ : Nat
  /-- The HALL event, and the EMIT event, has been raised. -/
  hallRaised : Bool
  emitRaised : Bool
  /-- The landing window (R318), its size in bytes, and the accumulator positions written since the claim (R325). -/
  window : List Host.Cell
  size : Nat
  written : Nat
  /-- Running values of MIN and MAX of MX elements, by position: 256 x scale byte + element code (R249). -/
  runs : Sparse Nat
  /-- The staging slot (R345), the bytes of it that hold a stated value as a bit map, and its stage. -/
  area : List Host.Cell
  areaSet : Nat
  stage : AreaStage
  deriving DecidableEq, Repr

/-- A directory entry, live or a tombstone (R267 to R269, R277 to R282). -/
structure Entry where
  key : Key
  job : Nat
  /-- Time of the first acceptance, in ns of `State.now`. -/
  born : Nat
  /-- member_count recorded at its creation (R248). -/
  members : Nat
  /-- Element count fixed by the first non-identity acceptance. -/
  count : Option Nat
  contribs : List Accepted
  fragments : List Fragment
  pass : Bool
  /-- The claim of R280 was refused, so partials go to the endpoints. -/
  deliver : Bool
  downgraded : Bool
  landings : List Landing
  heldFrags : List HeldFragment
  /-- Hall stage complete, and a partial frame has been sent (R289). -/
  hallDone : Bool
  sent : Bool
  /-- RESULT frames, or a relay's partial, have been written. -/
  written : Bool
  /-- End of the tombstone's life, in ns of `State.now`. -/
  tomb : Option Nat
  deriving DecidableEq, Repr

/-- A trigger (R285, R286): state 0 IDLE, 1 ARMED, 2 FIRED. -/
structure Trigger where
  state : Nat
  rearm : Bool
  source : Nat
  action : Nat
  tag : Nat
  count : Nat
  deriving DecidableEq, Repr

/-- A trigger never armed. -/
def Trigger.idle : Trigger := ⟨0, false, 0, 0, 0, 0⟩

/-- A residual area that has left its fresh state, or is held (R344, R345). -/
structure Area where
  fresh : Bool
  next : Nat
  /-- Bank Y is current. -/
  cur : Bool
  prevValid : Bool
  held : Bool
  x : List Host.Cell
  y : List Host.Cell
  deriving DecidableEq, Repr

/-- A fresh area. -/
def Area.new : Area := ⟨true, 0, false, false, false, [], []⟩

/-- The collective controllers. -/
structure Coll where
  groups : Sparse Group
  /-- Replication sets, key die x 16384 + set: 512-bit maps (R267). -/
  repl : Sparse Nat
  dir : List Entry
  /-- Quotas by job: contexts and KiB (R271). -/
  quotas : Sparse (Nat × Nat)
  triggers : Sparse Trigger
  /-- Spill region in force by die, in GiB (R353, R359). -/
  spillGib : Sparse Nat
  /-- Residual areas, key group x 2^32 + chunk. -/
  areas : Sparse Area
  deriving DecidableEq, Repr

/-! ### Combine cores (R293 to R337) -/

/-- A flight slot (R312). -/
structure FlightSlot where
  words : List Nat
  job : Nat
  crc : Nat
  deriving DecidableEq, Repr

/-- An event of a landing that waits for a context (R315). -/
structure FlightEvent where
  key : Key
  die : Nat
  /-- 0 CLAIM, 1 CONTRIB, 2 MERGE, 3 HALL, 4 FRAGMENT, 5 EMIT, and s1 to s3. -/
  code : Nat
  s1 : Nat
  s2 : Nat
  s3 : Nat
  /-- The frame that carries the input, and the input with its format. -/
  frame : Option Nat
  input : List Byte
  fmt : Nat
  mx : Bool
  /-- The input is accumulator words. -/
  acc : Bool
  /-- Running values that a MERGE event carries, as in `Landing.runs`. -/
  runs : Sparse Nat
  deriving DecidableEq, Repr

/-- Spaces a stream port may lie in. -/
inductive Space where
  | window | area | input | out
  deriving DecidableEq, Repr

/-- A configured stream port (R319, R320). -/
structure Stream where
  space : Space
  fmt : Nat
  mx : Bool
  /-- Elements are accumulator words. -/
  acc : Bool
  /-- Byte offset of the start, elements passed since, and for WP streams bytes passed. -/
  off : Nat
  pos : Nat
  bytes : Nat
  base : Nat
  deriving DecidableEq, Repr

/-- An activation in a context (R315 to R317). -/
structure Activation where
  event : FlightEvent
  slot : Nat
  pc : Nat
  /-- Scalar registers, vector registers as lanes, tile descriptors of bound handles, stream ports. -/
  s : Sparse Nat
  v : Sparse (List Nat)
  t : Sparse Nat
  sp : Sparse Stream
  /-- Bytes written to sp7 since the previous FSEND, and their elements. -/
  out : List Byte
  outCount : Nat
  /-- Formats of the writes to sp7 since the previous FSEND. -/
  outFmts : List (Nat × Bool)
  steps : Nat
  /-- A chain is open (R330). -/
  chain : Bool
  /-- Payload bytes of the RESULT frames sent, the offset of the next one in a WP result image (R283). -/
  sent : Nat
  deriving DecidableEq, Repr

/-- Operand variants of the sub-passes of R302 and R303. -/
inductive Part where
  | plain | hi | lo | re | im | reIm | imRe | negReIm
  deriving DecidableEq, Repr

/-- A pass in an array's queue or in a bank (R296, R300 to R304). -/
structure PassReq where
  /-- The landing and the context that issued it. -/
  key : Key
  die : Nat
  ctx : Nat
  /-- Index and word of the PASS instruction, and the number of instructions its activation had issued before it. -/
  pc : Nat
  word : Nat
  op : Nat
  tag : Nat
  m : Nat
  n : Nat
  k : Nat
  /-- Tile descriptors of A and B (real and imaginary in COMPLEX), the constant of B, and how each operand is taken. -/
  a0 : Nat
  a1 : Nat
  b0 : Nat
  b1 : Nat
  bconst : Nat
  partA : Part
  partB : Part
  chained : Bool
  /-- 0 STORE, 1 ADD, 2 CONVERT, 3 NONE, and the destinations' tile descriptors. -/
  drain : Nat
  dests : List Nat
  outFmt : Nat
  outMx : Bool
  rounding : Nat
  overflow : Bool
  deriving DecidableEq, Repr

/-- State of a bank (ARR_STATUS). -/
inductive BankState where
  | free | accumulating | chainHeld | draining
  deriving DecidableEq, Repr

/-- A bank of an array: its tag, the pass in it, the values of its cells, key 128 row + column, and the stream cycles that the array has run
since the bank's last stream cycle (R300). -/
structure Bank where
  state : BankState
  tag : Nat
  pass : Option PassReq
  values : Sparse Nat
  since : Nat
  deriving DecidableEq, Repr

/-- A bank at reset. -/
def Bank.fresh : Bank := ⟨.free, 0, none, [], 0⟩

/-- A matrix array. -/
structure Array_ where
  queue : List PassReq
  bank0 : Bank
  bank1 : Bank
  /-- Bank of the last pass that was not chained, and the pass sequence number. -/
  last : Nat
  seq : Nat
  /-- Start of the gap, in ns of `State.now` (R308, R309). -/
  gapAt : Option Nat
  /-- Flight slot of the last pass started. -/
  lastSlot : Option Nat
  deriving DecidableEq, Repr

/-- An array at reset. -/
def Array_.fresh : Array_ := ⟨[], Bank.fresh, Bank.fresh, 1, 0, none, none⟩

/-- A combine core: slots, waiting events, the four contexts, the array and the armed injections (R262). -/
structure Core where
  slots : Sparse FlightSlot
  /-- Activations of each slot, whatever image it holds (CMB_SLOT_USE.activations). -/
  uses : Sparse Nat
  events : List FlightEvent
  ctxs : Sparse Activation
  array : Array_
  /-- Armed injections: engine and unit; row, column and unit; engine, lane and unit. -/
  xseArm : List (Nat × Nat)
  arrArm : List (Nat × Nat × Nat)
  vecArm : List (Nat × Nat × Nat)
  deriving DecidableEq, Repr

/-- A core at reset. -/
def Core.fresh : Core := ⟨[], [], [], [], Array_.fresh, [], [], []⟩

/-- The state of the package. -/
structure State where
  /-- Commands waiting, first in, first out. -/
  pending : List Instr
  /-- Outputs at the boundary of the latest command, oldest first (the model's own field). -/
  out : List Output
  /-- Time since power-up in ns, advanced by the tick (the model's own field). -/
  now : Nat
  /-- Count of free values taken (the model's own field). -/
  freeCtr : Nat
  /-- Register fields that do not hold their reset value by default, keyed by Fld.key. -/
  regs : Sparse Nat
  /-- Shadow bank of the package PWR page, keyed as `regs` (R57, R396). -/
  shadow : Sparse Nat
  /-- Writes to banked fields held while commit_busy is 1: page offset, value (R57). -/
  heldWrites : List (Nat × Nat)
  /-- Commit sequence of the swap in progress. -/
  commitSeq : Nat
  /-- Ring memory, staging windows and telemetry, by RDMA address. -/
  mem : List Host.Cell
  power : Power
  boot : Boot
  sec : Sec
  mgmt : Mgmt
  time : Time
  /-- Sub-ports by logical port, modules by engine. -/
  subs : Sparse SubPort
  modules : Sparse Module
  byp : Bypass
  rel : Rel
  reader : Reader
  tables : Tables
  sw : Switch
  coll : Coll
  /-- Combine cores, key core. -/
  cores : Sparse Core
  deriving DecidableEq, Repr

/-! ### Reset

The values that hold once everything volatile is lost. -/

/-- No identity. -/
def Identity.none : Identity := ⟨0, [], [], []⟩

/-- A configuration copy with nothing in it: every held field at its reset value (R405). -/
def CfgCopy.none : CfgCopy := ⟨0, 0, Identity.none, .none, [], [], [], [], []⟩

/-- A configuration image never written. -/
def CfgImage.none : CfgImage := ⟨false, CfgCopy.none⟩

/-- A firmware image never written. -/
def FwImage.none : FwImage := ⟨false, 0, false, false, 0, 0, 0⟩

/-- The firmware image that flash image A holds at delivery (notes/assumptions/6.md). -/
def FwImage.delivered : FwImage := ⟨true, 1, true, true, 0, 0, 0⟩

/-- A security region copy never written. -/
def SecCopy.none : SecCopy := ⟨false, 0, [], [], [], 0, 0, 0⟩

def Power.off : Power := ⟨false, 0, false, 0, false, false, 0, true, true, false, []⟩

def Mgmt.fresh : Mgmt := ⟨[], [], [], [], [], 0, [], [], [], []⟩

def Time.fresh : Time := ⟨0, 0, Domain.fresh, Domain.fresh, 0, false, false, 0, none, [], [], []⟩

def Rel.fresh : Rel := ⟨[], [], [], [], [], []⟩

def Tables.fresh : Tables := ⟨[], [], [], [], [], []⟩

/-- The switch core with nothing in it: every field at the value its declaration gives. -/
def Switch.fresh : Switch := {}

def Coll.fresh : Coll := ⟨[], [], [], [], [], [], []⟩

/-- Security with nothing loaded, over these two region copies. -/
def Sec.fresh (a b : SecCopy) : Sec := ⟨a, b, [], [], [], [], [], [], 0⟩

/-- Boot before PWR_OK, over these flash images. -/
def Boot.fresh (a b : FwImage) (c d : CfgImage) (h : Nat) : Boot :=
  ⟨a, b, c, d, h, CfgCopy.none, .none, 0, false, false, false, 0, [], false, .none, 0⟩

/-- The package before power comes: every register field at its reset value, PWR_OK low, every cell BAR, no configuration image, no
security region, no command waiting. -/
def State.reset : State where
  pending := []
  out := []
  now := 0
  freeCtr := 0
  regs := []
  shadow := []
  heldWrites := []
  commitSeq := 0
  mem := []
  power := Power.off
  boot := Boot.fresh FwImage.delivered FwImage.none CfgImage.none CfgImage.none 0
  sec := Sec.fresh SecCopy.none SecCopy.none
  mgmt := Mgmt.fresh
  time := Time.fresh
  subs := []
  modules := []
  byp := ⟨[], [], [], [], [], [], []⟩
  rel := Rel.fresh
  reader := ⟨0, []⟩
  tables := Tables.fresh
  sw := Switch.fresh
  coll := Coll.fresh
  cores := []

end Sys2Proof.Machine
end

