-- ==== Sys2Proof/Machine/Mem.lean ====
section
/-! DEFINITION. Device memory that RDMA reaches (R51): ring memory, staging windows and telemetry regions, as a list of
(address, byte) pairs in one canonical form. A byte that nothing has written reads as zero (notes/assumptions/2.md). -/

namespace Sys2Proof.Machine

/-- What an unlisted address reads as. -/
def Memory.empty : Byte := 0

/-- The byte at address `a`. -/
def Memory.read : List Host.Cell → Nat → Byte
  | [], _ => Memory.empty
  | (k, v) :: m, a => if a = k then v else Memory.read m a

/-- The memory with the byte at `a` set to `b`; zero bytes are not listed. -/
def Memory.write : List Host.Cell → Nat → Byte → List Host.Cell
  | [], a, b => if b = Memory.empty then [] else [(a, b)]
  | (k, v) :: m, a, b =>
    if a < k then (if b = Memory.empty then (k, v) :: m else (a, b) :: (k, v) :: m)
    else if a = k then (if b = Memory.empty then m else (a, b) :: m)
    else (k, v) :: Memory.write m a b

/-- Every listed key is above `lo`, keys rise strictly and no listed byte is zero. -/
def Memory.wfFrom : Nat → List Host.Cell → Bool
  | _, [] => true
  | lo, (k, v) :: m => decide (lo ≤ k) && decide (v ≠ Memory.empty) && Memory.wfFrom (k + 1) m

/-- The canonical form: addresses strictly rising, no entry equal to what an unlisted address reads as. -/
def Memory.wf (m : List Host.Cell) : Bool := Memory.wfFrom 0 m

/-- The `n` bytes from address `a`. -/
def Memory.readN (m : List Host.Cell) (a : Nat) : Nat → List Byte
  | 0 => []
  | n + 1 => Memory.read m a :: Memory.readN m (a + 1) n

/-- The memory with `bs` written from address `a`. -/
def Memory.writeN (m : List Host.Cell) (a : Nat) : List Byte → List Host.Cell
  | [] => m
  | b :: bs => Memory.writeN (Memory.write m a b) (a + 1) bs

/-- The little-endian quadword at address `a` (R7). -/
def Memory.quad (m : List Host.Cell) (a : Nat) : Nat := leNat (Memory.readN m a 8)

/-- `n` little-endian quadwords from address `a`. -/
def Memory.quads (m : List Host.Cell) (a n : Nat) : List Nat := (List.range n).map fun i => Memory.quad m (a + 8 * i)

/-- Bytes of a list of quadwords, little-endian. -/
def quadBytes (l : List Nat) : List Byte := l.flatMap (natLe 8)

end Sys2Proof.Machine
end

