-- ==== Sys2Proof/Machine/Ops.lean ====
section
/-! DEFINITION. The operations every family shares: register fields, free values, outputs, page interrupts and error latches
(R55, R56), page counters (R453, R454), event rings (R67, R68), completions (R66), requests of the device (R49), error
records (R436 to R440). -/

namespace Sys2Proof.Machine

/-! ### Register fields -/

/-- Field `f` (instance `i`) of the block at byte address `a`, within its width. -/
def State.rd (s : State) (f : Fld) (a : Nat) (i : Nat := 0) : Nat := Sparse.get (f.reset i) s.regs (f.key a i) % 2 ^ f.w

/-- The state with field `f` of the block at `a` set to `v` modulo its width. -/
def State.wr (s : State) (f : Fld) (a v : Nat) (i : Nat := 0) : State :=
  { s with regs := Sparse.set s.regs (f.key a i) (v % 2 ^ f.w) }

/-- A one-bit field as a truth value. -/
def State.flag (s : State) (f : Fld) (a : Nat) (i : Nat := 0) : Bool := s.rd f a i != 0

/-- Add `n` to a field, wrapping at its width. -/
def State.inc (s : State) (f : Fld) (a : Nat) (n : Nat := 1) (i : Nat := 0) : State := s.wr f a (s.rd f a i + n) i

/-- Add `n` to a field, saturating at its largest value. -/
def State.incSat (s : State) (f : Fld) (a : Nat) (n : Nat := 1) (i : Nat := 0) : State :=
  s.wr f a (min (s.rd f a i + n) (2 ^ f.w - 1)) i

/-- Subtract `n` from a field, stopping at 0. -/
def State.dec (s : State) (f : Fld) (a : Nat) (n : Nat := 1) (i : Nat := 0) : State := s.wr f a (s.rd f a i - n) i

/-- `f` applied when `b` holds. -/
def State.iff (s : State) (b : Bool) (f : State → State) : State := if b then f s else s

/-- `f` applied for each element of `l`, in order. -/
def State.each {α : Type} (s : State) (l : List α) (f : α → State → State) : State := l.foldl (fun s a => f a s) s

/-! ### Free values -/

/-- The next free value of 64 bits (notes/assumptions/3.md). -/
def State.free (s : State) : Nat := (Config.freeBits s.freeCtr).toNat

/-- The free value counter after one use. -/
def State.tickFree (s : State) (n : Nat := 1) : State := { s with freeCtr := s.freeCtr + n }

/-- `n` free quadwords, as one number. -/
def State.freeWide (s : State) (n : Nat) : Nat :=
  (List.range n).foldl (fun a i => a * 2 ^ 64 + (Config.freeBits (s.freeCtr + i)).toNat) 0

/-! ### Time stamps (R367) -/

/-- One nanosecond in counter units of 2^-32 ns. -/
def nsUnit : Nat := 4294967296

/-- Counter value at which seconds wrap. -/
def timeWrap : Nat := 281474976710656 * 1000000000 * 4294967296

/-- Seconds of a counter. -/
def secOf (t : Nat) : Nat := t / (1000000000 * nsUnit)

/-- Nanoseconds of a counter. -/
def nsOf (t : Nat) : Nat := t / nsUnit % 1000000000

/-- Visible fraction of a counter, 2^-16 ns. -/
def fracOf (t : Nat) : Nat := t / 65536 % 65536

/-- Stamp word: seconds, low 34 bits, in [63:30] and nanoseconds in [29:0]. -/
def stampOf (t : Nat) : Nat := secOf t % 2 ^ 34 * 2 ^ 30 + nsOf t

/-- T0's stamp word. -/
def State.stamp (s : State) : Nat := stampOf s.time.t0

/-! ### Page counters (R453, R454) -/

/-- A counter of page `a` adds `n`, wrapping at 2^48 and noting the wrap. -/
def State.ctrAdd (s : State) (a k n : Nat) : State :=
  let v := s.rd CTR_VALUE.count a k + n
  (s.wr CTR_VALUE.count a v k).iff (decide (2 ^ 48 ≤ v)) fun s => s.wr CTR_VALUE.wrapped a 1 k

/-- Counter `k` of page `a` counts event `code` for instance `inst` (R454): enabled, mode EVENTS, event selected,
qualifier all or this instance. -/
def State.ctrSelects (s : State) (a k code inst : Nat) : Bool :=
  s.flag CTR_SEL.enable a k && s.rd CTR_SEL.mode a k == 0 && s.rd CTR_SEL.event a k == code
    && (s.rd CTR_SEL.qualifier a k == 0x1FF || s.rd CTR_SEL.qualifier a k == inst)

/-- Event `code` of instance `inst` happens on page `a` with amount `n`: every counter that selects it adds `n`. -/
def State.count (s : State) (a code : Nat) (inst : Nat := 0) (n : Nat := 1) : State :=
  s.each (List.range 16) fun k s => s.iff (s.ctrSelects a k code inst) fun s => s.ctrAdd a k n

/-- Frames that an output sends on a management port, whose path MTU is 4,096 bytes (R49). -/
def Output.mgtFrames : Output → Option (Nat × Nat)
  | .rdmaWrite m _ _ _ l | .readResponse m _ l => some (m, max 1 (cdiv l.length 4096))
  | .send m _ _ | .ack m _ | .nakInvalid m _ | .nakAccess m _ | .nakOperational m _ | .cmRep m _ _ _ | .cmRej m _
  | .neighborAdvert m _ => some (m, 1)
  | .frame _ _ | .i3cWrite _ _ _ | .localFault _ | .cut _ => none

/-- An output appears at the boundary; frames sent on a management port are counted (R455). -/
def State.emit (s : State) (o : Output) : State :=
  let s := { s with out := s.out ++ [o] }
  match o.mgtFrames with
  | some (m, n) => s.count (mgtPage m) 0x81 0 n
  | none => s

/-! ### Queue pairs and the device's requests (R49, R66, R67) -/

/-- Queue pair `q` of management port `m`. -/
def State.qp (s : State) (m q : Nat) : Qp := Sparse.get Qp.none s.mgmt.qps (64 * m + q)

/-- The state with a queue pair replaced. -/
def State.setQp (s : State) (m q : Nat) (x : Qp) : State :=
  { s with mgmt := { s.mgmt with qps := Sparse.set s.mgmt.qps (64 * m + q) x } }

/-- A session. -/
def State.session (s : State) (n : Nat) : Session := Sparse.get Session.none s.mgmt.sessions n

/-- The state with a session replaced. -/
def State.setSession (s : State) (n : Nat) (x : Session) : State :=
  { s with mgmt := { s.mgmt with sessions := Sparse.set s.mgmt.sessions n x } }

/-- What ring `r` holds beside its registers. -/
def State.ring (s : State) (r : Nat) : Ring := Sparse.get Ring.fresh s.mgmt.rings r

/-- The state with a ring's own data replaced. -/
def State.setRing (s : State) (r : Nat) (x : Ring) : State :=
  { s with mgmt := { s.mgmt with rings := Sparse.set s.mgmt.rings r x } }

/-- Offset of the ring number in a drain that firmware runs for the PLAN_LOAD of a ring (R409). -/
def planRing : Nat := 0x2000

/-- Ring of a wait whose command has already completed. -/
def noRing : Nat := 0x1001

/-- What waits for the command of ring `r` no longer does: its drain or switching goes on, its wait for a cool engine ends. -/
def State.orphan (s : State) (r : Nat) : State :=
  let b := s.byp
  let q := Sparse.mapv b.queue fun _ l => l.map fun x => if x.ring = r then { x with ring := noRing } else x
  { s with
    byp := { b with queue := q, hot := b.hot.filter fun x => x.ring != r }
    sw := { s.sw with drains := s.sw.drains.map fun x =>
      if x.ring = r then { x with ring := noRing } else if x.ring = planRing + r then { x with ring := planRing + noRing } else x } }

/-- The queue pair named by an 8-bit qp field is ready and held by session `o` (R61, R67). -/
def State.qpUsable (s : State) (qpField o : Nat) : Bool :=
  let x := s.qp (qpField / 64) (qpField % 64)
  decide (x.mode = .ready) && x.session == o && o != 0xFF

/-- The device sends an RDMA WRITE or a SEND on a queue pair and keeps it until it is acknowledged. -/
def State.request (s : State) (qpField : Nat) (x : Request) : State :=
  let m := qpField / 64
  let q := qpField % 64
  let p := s.qp m q
  (s.setQp m q { p with unacked := p.unacked ++ [x] }).emit
    (if x.isSend then .send m q x.data else .rdmaWrite m q x.rkey x.addr x.data)

/-! ### Event rings (R67, R68) -/

/-- Entries of event ring `e`. -/
def State.evrSize (s : State) (e : Nat) : Nat := 2 ^ (6 + s.rd CTL_EVR_CFG.log2_entries (evrBlock e))

/-- Event ring `e` holds as many unread entries as it has slots. -/
def State.evrFull (s : State) (e : Nat) : Bool :=
  decide (s.evrSize e ≤ sub32 (s.rd CTL_EVR_STATE.producer (evrBlock e)) (s.rd CTL_EVR_HEAD.consumed (evrBlock e)))

/-- The queue pair of event ring `e` is ready and held by the ring's owner. -/
def State.evrQpOk (s : State) (e : Nat) : Bool :=
  s.qpUsable (s.rd CTL_EVR_CFG.qp (evrBlock e)) (s.rd CTL_EVR_CFG.owner (evrBlock e))

/-- Phase of index `i` in a ring of `n` slots: 1 on the first pass, toggled on each wrap (R66). -/
def phaseOf (i n : Nat) : Nat := 1 - i / n % 2

/-- The entry words of an event: E0 to E3 (R67). -/
def eventWords (code sev page d0 stamp d1 seq phase : Nat) : List Nat :=
  [code % 65536 * 2 ^ 48 + sev % 16 * 2 ^ 44 + page % 65536 * 2 ^ 28 + d0 % 2 ^ 28, stamp, d1 % 2 ^ 64,
   seq % 2 ^ 32 * 2 ^ 32 + phase]

/-- One entry is placed in event ring `e` in its next slot; the ring has room and its queue pair may be used. An entry takes its event
sequence number here, so that dropped and withheld entries take none (DESIGN CHOICE, notes/assumptions/54.md). -/
def State.evrPut (s : State) (e code sev page d0 d1 : Nat) : State :=
  let a := evrBlock e
  let i := s.rd CTL_EVR_STATE.producer a
  let n := s.evrSize e
  let q := Sparse.get 0 s.mgmt.evrSeq e
  let w := eventWords code sev page d0 s.stamp d1 q (phaseOf i n)
  let s := s.request (s.rd CTL_EVR_CFG.qp a)
    ⟨false, s.rd CTL_EVR_CFG.rkey a, (s.rd CTL_EVR_ADDR.address a + i % n * 32) % 2 ^ 64, quadBytes w⟩
  let s := { s with mgmt := { s.mgmt with evrSeq := Sparse.set s.mgmt.evrSeq e (q + 1) } }
  (s.inc CTL_EVR_STATE.producer a).count (evrPage e) 0x80 (e % 32)

/-- Entries dropped while event ring `e` was full are reported once it can be written (R67): EVENT_OVERFLOW with the count,
whatever the severity floor, then dropped is cleared. -/
def State.evrOverflow (s : State) (e : Nat) : State :=
  let a := evrBlock e
  s.iff (s.flag CTL_EVR_CFG.enable a && s.rd CTL_EVR_STATE.dropped a != 0 && !s.evrFull e && s.evrQpOk e) fun s =>
    (s.evrPut e 0x00FF 1 (pageCode (evrPage e)) 0 (s.rd CTL_EVR_STATE.dropped a)).wr CTL_EVR_STATE.dropped a 0

/-- An event is offered to event ring `e` (R67): nothing on a ring that is not enabled or whose floor withholds it; dropped
and counted when the ring is full or its queue pair may not be used; written otherwise. -/
def State.event (s : State) (e code sev page d0 d1 : Nat) : State :=
  let a := evrBlock e
  if s.flag CTL_EVR_CFG.enable a = false ∨ sev < s.rd CTL_EVR_CFG.severity_floor a then s
  else
    let s := s.evrOverflow e
    if s.evrFull e || !s.evrQpOk e then
      (s.incSat CTL_EVR_STATE.dropped a).count (evrPage e) 0x81 (e % 32)
    else s.evrPut e code sev page d0 d1

/-- The alarm rings: the enabled event rings with alarms set to 1 (R68). -/
def State.alarmRings (s : State) : List Nat :=
  (List.range 256).filter fun e => s.flag CTL_EVR_CFG.alarms (evrBlock e) && s.flag CTL_EVR_CFG.enable (evrBlock e)

/-- An event goes to every alarm ring, in ascending ring order (R68). -/
def State.alarm (s : State) (code sev page d0 d1 : Nat) : State :=
  s.each s.alarmRings fun e s => s.event e code sev (pageCode page) d0 d1

/-! ### Page interrupts and error latches (R55, R56) -/

/-- PG_IRQ_PEND of page `a`: RAW and MASK (R55). -/
def State.irqPend (s : State) (a : Nat) : Nat :=
  Nat.land (s.rd PG_IRQ_RAW.block_irq a) (s.rd PG_IRQ_MASK.block_irq a) * 16
    + s.rd PG_IRQ_RAW.guard_denied a * s.rd PG_IRQ_MASK.guard_denied a * 8
    + s.rd PG_IRQ_RAW.dual_timeout a * s.rd PG_IRQ_MASK.dual_timeout a * 4
    + s.rd PG_IRQ_RAW.commit_done a * s.rd PG_IRQ_MASK.commit_done a * 2
    + s.rd PG_IRQ_RAW.err_latched a * s.rd PG_IRQ_MASK.err_latched a

/-- A change `f` of page `a`'s interrupt bits: when PG_IRQ_PEND goes from zero to non-zero with irq_enable 1, one PAGE_IRQ
entry is written to the page's event ring (R56, R68). -/
def State.irqEdge (s : State) (a : Nat) (f : State → State) : State :=
  let t := f s
  t.iff (s.irqPend a == 0 && t.irqPend a != 0 && t.flag PG_CTRL.irq_enable a) fun t =>
    t.event (t.rd PG_CTRL.event_ring a) 0x0001 0 (pageCode a) 0 (t.irqPend a)

/-- Bit `b` of PG_IRQ_RAW (numbered in the register, 4 and above) is set on page `a`. -/
def State.irq (s : State) (a b : Nat) : State :=
  s.irqEdge a fun s => s.wr PG_IRQ_RAW.block_irq a (Nat.lor (s.rd PG_IRQ_RAW.block_irq a) (2 ^ (b - 4)))

/-- guard_denied is set on page `a` (R59). -/
def State.irqGuard (s : State) (a : Nat) : State := s.irqEdge a fun s => s.wr PG_IRQ_RAW.guard_denied a 1

/-- dual_timeout is set on page `a` (R58). -/
def State.irqDual (s : State) (a : Nat) : State := s.irqEdge a fun s => s.wr PG_IRQ_RAW.dual_timeout a 1

/-- commit_done is set on page `a` (R57). -/
def State.irqCommit (s : State) (a : Nat) : State := s.irqEdge a fun s => s.wr PG_IRQ_RAW.commit_done a 1

/-- Page `a` counts an error in PG_ERR_COUNT and, if the latch is free, latches code, session and detail, and sets
err_latched (R55, R439). -/
def State.pageError (s : State) (a code session detail : Nat) : State :=
  let s := s.incSat PG_ERR_COUNT.count a
  if s.flag PG_ERR_FIRST.valid a then s
  else
    (((s.wr PG_ERR_FIRST.code a code).wr PG_ERR_FIRST.session a session).wr PG_ERR_FIRST.detail a detail).irqEdge a
      fun s => (s.wr PG_ERR_FIRST.valid a 1).wr PG_IRQ_RAW.err_latched a 1

/-- Codes 0x0001 to 0x000D hold the register offset in detail bits [39:28], that is bits [23:12] of the field (R440). -/
def offDetail (off : Nat) : Nat := off % 4096 * 4096

/-! ### Completions (R61, R66) -/

/-- Descriptors of ring `r`: 2^(6 + log2_entries). -/
def State.ringSize (s : State) (r : Nat) : Nat := 2 ^ (6 + s.rd CTL_RING_CFG.log2_entries (ringBlock r))

/-- Completion slots of ring `r`. -/
def State.cqSize (s : State) (r : Nat) : Nat := 2 ^ (6 + s.rd CTL_RING_CQ_CFG.log2_entries (ringBlock r))

/-- Completion words C0 to C3 (R66). -/
def completionWords (tag opcode status c1 c2 index ring phase : Nat) : List Nat :=
  [tag % 2 ^ 32 * 2 ^ 32 + opcode % 4096 * 2 ^ 20 + status % 256 * 2 ^ 12, c1 % 2 ^ 64, c2 % 2 ^ 64,
   index % 2 ^ 32 * 2 ^ 32 + ring % 4096 * 2 ^ 20 + phase]

/-- Ring `r` enters STOPPED with a reason, and RING_STOPPED goes to its event ring (R60, R61, R68). -/
def State.ringStop (s : State) (r reason : Nat) : State :=
  let a := ringBlock r
  ((s.wr CTL_RING_STATE.state a 2).wr CTL_RING_STATE.stop_reason a reason).event
    (s.rd CTL_RING_CFG.event_ring a) 0x0060 1 (pageCode (ringPage r)) r reason

/-- The completion of ring `r` that falls due is discarded, with the notification that would follow it, and both are counted in the
ring's page (R61): in PG_ERR_COUNT, without a code of PG_ERR_FIRST (DESIGN CHOICE, notes/assumptions/54.md). -/
def State.discardCompletion (s : State) (r : Nat) : State :=
  let x := s.ring r
  let k := s.rd CTL_RING_CQ_CFG.notify_every (ringBlock r)
  let n := if k != 0 && (x.cplIndex + 1) % k == 0 then 2 else 1
  (s.incSat PG_ERR_COUNT.count (ringPage r) n).setRing r { x with cplIndex := (x.cplIndex + 1) % 2 ^ 32 }

/-- Ring `r` enters STOPPED with QP_NOT_READY: the completions of what it has fetched are discarded as they fall due (R61). -/
def State.ringMute (s : State) (r : Nat) : State :=
  let x := s.ring r
  (s.setRing r { x with inflight := x.inflight.map fun e => { e with mute := true } }).ringStop r 4

/-- The oldest descriptor in flight of ring `r` completes: it leaves the ring, and unless it is quiet and OK its completion
is written, followed by a notification SEND after every notify_every completions (R61, R66). When the queue pair does not
meet R61, the ring enters STOPPED with QP_NOT_READY, and from then on the completions of fetched commands are discarded. A ring that is
STOPPED already keeps its reason, and a discarded completion takes its completion index (DESIGN CHOICE, notes/assumptions/54.md). -/
def State.complete (s : State) (r status c1 c2 : Nat) : State :=
  let x := s.ring r
  match x.inflight with
  | [] => s
  | e :: rest =>
    let a := ringBlock r
    let d0 := e.d.getD 0 0
    let s := s.setRing r { x with inflight := rest, waiting := false }
    if bit d0 50 && status == 0 then s
    else if e.mute then s.discardCompletion r
    else if !s.qpUsable (s.rd CTL_RING_CQ_CFG.qp a) (s.rd CTL_RING_CFG.owner a) then
      let s := s.discardCompletion r
      if s.rd CTL_RING_STATE.state a = 2 then s else s.ringMute r
    else
      let i := x.cplIndex
      let n := s.cqSize r
      let w := completionWords d0 (bits d0 52 12) status c1 c2 e.index r (phaseOf i n)
      let s := s.request (s.rd CTL_RING_CQ_CFG.qp a)
        ⟨false, s.rd CTL_RING_CQ_CFG.rkey a, (s.rd CTL_RING_CQ_ADDR.address a + i % n * 32) % 2 ^ 64, quadBytes w⟩
      let s := (s.setRing r { s.ring r with cplIndex := (i + 1) % 2 ^ 32 }).count (ringPage r) 0x81 (r % 32)
      let k := s.rd CTL_RING_CQ_CFG.notify_every a
      s.iff (k != 0 && (i + 1) % k == 0) fun s =>
        (s.request (s.rd CTL_RING_CQ_CFG.qp a) ⟨true, 0, 0, natLe 8 (r * 2 ^ 32 + i)⟩).count (ringPage r) 0x82 (r % 32)

/-! Completion status codes (R66). -/

def stOk : Nat := 0x00
def stNotFound : Nat := 0x01
def stTableFull : Nat := 0x02
def stPermission : Nat := 0x03
def stInvalid : Nat := 0x04
def stBusy : Nat := 0x05
def stUnsupported : Nat := 0x06
def stDualPending : Nat := 0x07
def stDualTimeout : Nat := 0x08
def stDigestFail : Nat := 0x09
def stQuota : Nat := 0x0A
def stHwError : Nat := 0x0B
def stCommitSeq : Nat := 0x0C

/-- Die `d`'s bonded DRAM is initialised: the package has power, and the die is in no reset (R365). -/
def State.dramReady (s : State) (d : Nat) : Bool := s.power.pwrOk && s.rd CTL_DIE_STATE.state (ctlDiePage d) != 2

/-! ### Error records (R436 to R440) -/

/-- What an error record says beside the readings the device adds (R437). -/
structure ErrRec where
  die : Nat
  kind : Nat
  memory : Nat
  block : Nat
  core : Nat
  lane : Nat
  unit : Nat
  format : Nat
  uncorrectable : Bool
  rail : Nat
  signature : Nat
  residues : Nat
  addr : Nat
  job : Nat
  group : Nat
  step : Nat
  chunk : Nat
  detail : Nat
  deriving DecidableEq, Repr

/-- A record with nothing known: kind, die and the markers of R437 for what is absent. -/
def ErrRec.of (die kind : Nat) : ErrRec :=
  ⟨die, kind, 0, 0xFF, 0x3F, 0, 0, 0, false, 1, 0, 0, 0, 0xFFFF, 0, 0, 0, 0⟩

/-- Index of the next record of die `d`. -/
def State.errIndex (s : State) (d : Nat) : Nat := s.rd CTL_ERR_PRODUCER.producer ctlPkgPage d

/-- Quadwords of a record (R437): T0, kind and place, temperature, rail voltage, clock and power as read now. Rail `rail` is
an index of PWR_RAIL, in 10 mV units there and in mV here; rail 3 is the VCMB of the core's own cluster. -/
def State.errWords (s : State) (e : ErrRec) (i : Nat) : List Nat :=
  let cl := if e.block ≠ 3 ∧ e.core < 32 then s.rd CLK_CMB_FREQ.mhz (clkPage (e.core / 8)) (e.core % 8 / 2) else 0
  let mv := if e.rail = 3 then (if bit (s.rd PWR_DIE_STATUS.gated (pwrDiePage e.die)) (e.core % 8 / 2) then 0 else Sparse.get 85 s.power.vcmb e.die)
    else s.rd PWR_RAIL.rail (pwrDiePage e.die) e.rail
  [s.stamp,
   e.kind % 65536 * 2 ^ 48 + e.memory % 256 * 2 ^ 40 + e.block % 256 * 2 ^ 32 + e.core % 64 * 2 ^ 26 + e.lane % 128 * 2 ^ 19
     + e.unit % 128 * 2 ^ 12 + e.format % 16 * 2 ^ 8 + b2n e.uncorrectable * 2 ^ 7,
   s.rd PWR_DIE_STATUS.hot_temp (pwrDiePage e.die) * 2 ^ 48 + mv * 10 % 65536 * 2 ^ 32
     + cl * 2 ^ 16 + s.rd PWR_PKG_STATUS.power_w pwrPkgPage,
   e.signature % 2 ^ 32 * 2 ^ 32 + e.residues % 2 ^ 32,
   e.addr % 2 ^ 64,
   e.job % 65536 * 2 ^ 48 + e.group % 65536 * 2 ^ 32 + e.step % 65536 * 2 ^ 16,
   e.chunk % 2 ^ 32 * 2 ^ 32 + e.detail % 2 ^ 32,
   i % 2 ^ 62 * 4 + e.die % 4]

/-- The record is written in the error-record region of its die, index i mod 2^24, unless that die's LPDDR6 is not in use
(R436), and ERROR_RECORDS is offered to the package CTL page (R452). -/
def State.errRecord (s : State) (e : ErrRec) : State :=
  let i := s.errIndex e.die
  if bit s.boot.lpUnused e.die then s
  else
    let k := e.die * 2 ^ 24 + i % 2 ^ 24
    let s := { s with rel := { s.rel with
      records := Sparse.set s.rel.records k (s.errWords e i), badRecords := s.rel.badRecords.filter fun j => j != k } }
    (s.inc CTL_ERR_PRODUCER.producer ctlPkgPage 1 e.die).count ctlPkgPage 0x80

/-- Detail 1 of an event that names record `i` of die `d` (R436). -/
def recDetail (d i : Nat) : Nat := d % 4 * 2 ^ 62 + i % 2 ^ 62

/-- The order of R439 for one error: the record; the detecting page's count, latch and block_irq bit; the event to the alarm
rings (code 0 for none); the counter event (0xFFFF for none). -/
def State.hwError (s : State) (e : ErrRec) (page irqBit event sev d0 ctr inst : Nat) : State :=
  let i := s.errIndex e.die
  let s := s.errRecord e
  let s := s.pageError page e.kind 0xFF (i % 2 ^ 24)
  let s := s.iff (irqBit != 0) fun s => s.irq page irqBit
  let s := s.iff (event != 0) fun s => s.alarm event sev page d0 (recDetail e.die i)
  s.iff (ctr != 0xFFFF) fun s => s.count page ctr inst

/-! ### Staging windows (R63) -/

/-- `len` bytes at staging offset `off` lie in the window (R63). -/
def stagingOk (off len : Nat) : Bool := decide (off + len ≤ stagingSize)

/-- Bytes of session `n`'s staging window. -/
def State.staged (s : State) (n off len : Nat) : List Byte := Memory.readN s.mem (stagingBase n + off) len

/-- Bytes written to session `n`'s staging window. -/
def State.stage (s : State) (n off : Nat) (l : List Byte) : State :=
  { s with mem := Memory.writeN s.mem (stagingBase n + off) l }

end Sys2Proof.Machine
end

