-- ==== Sys2Proof/Machine/Sm2.lean ====
section
/-! DEFINITION. Verification of SM2 signatures (R418): the curve and the relation of GB/T 32918, PRESUMED from the standard the spec names, and
what is signed (notes/assumptions/75.md). -/

namespace Sys2Proof.Machine

/-- The field prime of the SM2 curve. -/
def sm2P : Nat := 0xFFFFFFFEFFFFFFFFFFFFFFFFFFFFFFFFFFFFFFFF00000000FFFFFFFFFFFFFFFF

/-- The order of its base point. -/
def sm2N : Nat := 0xFFFFFFFEFFFFFFFFFFFFFFFFFFFFFFFF7203DF6B21C6052B53BBF40939D54123

/-- The coefficient b; a is the prime less 3. -/
def sm2B : Nat := 0x28E9FA9E9D9F5E344D5A9E4BCF6509A7F39789F515AB8F92DDBCBD414D940E93

/-- The base point. -/
def sm2Gx : Nat := 0x32C4AE2C1F1981195F9904466A39C9948FE30BBFF2660BE1715A4589334C74C7
def sm2Gy : Nat := 0xBC3736A2F4F6779C59BDCEE36B692153D0A9877CC62A474002DF32E52139F0A0

/-- A point in Jacobian coordinates: (x / z², y / z³), the point at infinity where z is 0. -/
structure EcPoint where
  x : Nat
  y : Nat
  z : Nat
  deriving DecidableEq, Repr

/-- Product and difference in the field. -/
def fMul (a b : Nat) : Nat := a * b % sm2P
def fSub (a b : Nat) : Nat := (a + (sm2P - b % sm2P)) % sm2P

/-- Twice a point. -/
def EcPoint.twice (p : EcPoint) : EcPoint :=
  let d := fMul p.z p.z
  let g := fMul p.y p.y
  let b := fMul p.x g
  let a := fMul 3 (fMul (fSub p.x d) (p.x + d))
  let x := fSub (fMul a a) (8 * b)
  ⟨x, fSub (fMul a (fSub (4 * b) x)) (8 * fMul g g), fMul (2 * p.y) p.z⟩

/-- Sum of two points. -/
def EcPoint.add (p q : EcPoint) : EcPoint :=
  if p.z = 0 then q
  else if q.z = 0 then p
  else
    let pp := fMul p.z p.z
    let qq := fMul q.z q.z
    let u := fMul p.x qq
    let v := fMul p.y (fMul qq q.z)
    let h := fSub (fMul q.x pp) u
    let r := fSub (fMul q.y (fMul pp p.z)) v
    if h = 0 then (if r = 0 then p.twice else ⟨1, 1, 0⟩)
    else
      let hh := fMul h h
      let hhh := fMul hh h
      let w := fMul u hh
      let x := fSub (fSub (fMul r r) hhh) (2 * w)
      ⟨x, fSub (fMul r (fSub w x)) (fMul v hhh), fMul h (fMul p.z q.z)⟩

/-- [s]P + [t]Q, for multipliers of 256 bits. -/
def EcPoint.combine (s t : Nat) (p q : EcPoint) : EcPoint :=
  let pq := p.add q
  (List.range 256).foldl (fun r i =>
    let r := r.twice
    match bit s (255 - i), bit t (255 - i) with
    | true, true => r.add pq
    | true, false => r.add p
    | false, true => r.add q
    | false, false => r) ⟨1, 1, 0⟩

/-- The relation of GB/T 32918 between public key (x, y), hash e and signature (r, s). -/
def sm2Relation (x y e r s : Nat) : Bool :=
  let t := (r + s) % sm2N
  let c := EcPoint.combine s t ⟨sm2Gx, sm2Gy, 1⟩ ⟨x, y, 1⟩
  let v := (r + (sm2N - e % sm2N)) % sm2N
  let zz := fMul c.z c.z
  decide (0 < r ∧ r < sm2N ∧ 0 < s ∧ s < sm2N ∧ t ≠ 0 ∧ x < sm2P ∧ y < sm2P) && fMul y y == (fMul x (fMul x x) + (sm2P - 3) * x + sm2B) % sm2P
    && c.z != 0 && (fMul v zz == c.x % sm2P || (decide (v + sm2N < sm2P) && fMul (v + sm2N) zz == c.x % sm2P))

/-- The Z value of a public key: the identifier "1234567812345678" with its length in bits, the curve, the base point and the key (R418). -/
def sm2Z (key : Nat) : Nat :=
  sm3 (natBe 2 128 ++ [0x31, 0x32, 0x33, 0x34, 0x35, 0x36, 0x37, 0x38, 0x31, 0x32, 0x33, 0x34, 0x35, 0x36, 0x37, 0x38]
    ++ natBe 32 (sm2P - 3) ++ natBe 32 sm2B ++ natBe 32 sm2Gx ++ natBe 32 sm2Gy ++ natBe 64 key)

/-- Signature `sig`, r then s, over the SM3 digest `digest` holds under public key `key`, x then y, each in network byte order (R418). The
message signed is the digest's 32 bytes (DEDUCED, notes/assumptions/75.md). -/
def sm2Verify (key digest sig : Nat) : Bool :=
  sm2Relation (key / 2 ^ 256) (key % 2 ^ 256) (sm3 (natBe 32 (sm2Z key) ++ natBe 32 digest)) (sig / 2 ^ 256) (sig % 2 ^ 256)

end Sys2Proof.Machine
end

