-- ==== Sys2Proof/Machine/Mgmt.lean ====
section
/-! DEFINITION. Management ports, queue pairs and sessions: R47 to R51, R69, R74 (ports, MACsec policy, RoCEv2 rules), R427
(admission), R428 and R429 (roles and rights). -/

namespace Sys2Proof.Machine

/-! ### Sessions -/

/-- The owner state: OWNED while slot 0 holds the MACsec root (R426). -/
def State.owned (s : State) : Bool := Sparse.get 0 s.sec.keys 0 != 0

/-- Queue pairs held by session `n`, as (port, index) pairs, those of an exchange under way included. -/
def State.qpsOf (s : State) (n : Nat) : List (Nat × Nat) :=
  (s.mgmt.qps.filter fun e => e.2.session == n && decide (e.2.mode ≠ .free)).map fun e => (e.1 / 64, e.1 % 64)

/-- Session `n` holds a queue pair in the ready state. -/
def State.hasReady (s : State) (n : Nat) : Bool :=
  s.mgmt.qps.any fun e => e.2.session == n && decide (e.2.mode = .ready)

/-- Entry of permission table 0 that speaks for session `n`; every role while UNOWNED is ADMIN (R428). -/
def State.rolesWord (s : State) (n : Nat) : Nat :=
  if !s.owned then 2 ^ 63 + 2 ^ 62
  else Sparse.get 0 s.sec.active0 (s.session n).slot

/-- A word of permission table 0 gives ADMIN, JOB, OBSERVE. -/
def wordAdmin (w : Nat) : Bool := bit w 63 && bit w 62
def wordJob (w : Nat) : Bool := bit w 63 && bit w 61
def wordObserve (w : Nat) : Bool := bit w 63 && bit w 60

/-- Session `n` holds ADMIN. -/
def State.isAdmin (s : State) (n : Nat) : Bool := wordAdmin (s.rolesWord n)
/-- Session `n` holds JOB. -/
def State.isJob (s : State) (n : Nat) : Bool := wordJob (s.rolesWord n)
/-- Session `n` holds OBSERVE. -/
def State.isObserve (s : State) (n : Nat) : Bool := wordObserve (s.rolesWord n)

/-- Session `n` may act for job `j`: ADMIN for any, another session for the jobs table 1 grants its slot (R428, R429). -/
def State.mayJob (s : State) (n j : Nat) : Bool :=
  s.isAdmin n || s.sec.active1.any fun e =>
    bit e.2 63 && bits e.2 56 4 == (s.session n).slot && decide (bits e.2 0 16 ≤ j) && decide (j ≤ bits e.2 32 16)

/-- Two credentials are the same (R427): the slot, or the ephemeral key while UNOWNED. -/
def sameCred (e1 : Bool) (c1 : Nat) (e2 : Bool) (c2 : Nat) : Bool := e1 == e2 && c1 == c2

/-- The credential of session `n`: its slot, or its ephemeral key. -/
def State.credOf (s : State) (n : Nat) : Nat := if (s.session n).ephemeral then (s.session n).key else (s.session n).slot

/-- The credential of session `n` with its kind: ephemeral or a slot. -/
def State.credential (s : State) (n : Nat) : Bool × Nat := ((s.session n).ephemeral, s.credOf n)

/-! ### Rights of a session on registers (R53, R69, R429) -/

/-- Register offsets of the selectors of each kind of page (R429, R402: every *_SEL register and SCH_GATE_VIEW; CTR_SELn on
the CTR pages). -/
def isSelector (b : Blk) (off : Nat) : Bool :=
  match b with
  | .lnd => off == LND_JOB_SEL.job.off
  | .grp => off == GRP_ENTRY_SEL.group.off || off == GRP_REPL_SEL.set.off
  | .trg => off == TRG_SEL.index.off
  | .cmb => off == CMB_SLOT_SEL.slot.off
  | .ctrDie | .ctrPkg => decide (0xF80 ≤ off)
  | .gal => off == GAL_RES_SEL.group.off
  | .tim => off == TIM_TXQ_SEL.port.off
  | .ctlDie => off == CTL_DISC_SEL.port.off
  | .ctlPkg => off == CTL_ERR_SEL.index.off || off == CTL_HEALTH_SEL.port.off
  | .sec => off == SEC_MEAS_SEL.index.off || off == SEC_PT_SEL.index.off
  | .mgtPkg => off == MGT_SESS_SEL.session.off
  | .schPort => off == SCH_GATE_VIEW.view.off
  | _ => false

/-- The command ring or event ring whose register block holds offset `off` of page `a`, with its owner; `none` outside the
blocks (R60, R67, R69). -/
def State.ringOwnerAt (s : State) (a off : Nat) : Option Nat :=
  let k := (off - 0x100) / 0x70
  if off < 0x100 ∨ 0xF00 ≤ off then none
  else match blkOfPage a with
    | some .ctlRing => some (s.rd CTL_RING_CFG.owner (ringBlock (instOfPage a * 32 + k)))
    | some .ctlEvr => some (s.rd CTL_EVR_CFG.owner (evrBlock (instOfPage a * 32 + k)))
    | _ => none

/-- A session `n` with the roles of `w` may read the register at offset `off` of mapped page `a` (R69, R429). -/
def State.mayReadAs (s : State) (w n a off : Nat) : Bool :=
  wordAdmin w || wordObserve w || s.ringOwnerAt a off == some n ||
  (wordJob w && match blkOfPage a with
    | some .lnd | some .grp | some .trg | some .cmb | some .arr | some .vec | some .xse | some .ctrDie | some .ctrPkg
    | some .tim | some .boot | some .sec => true
    | some .ctlPkg => decide (off < 0x60) || off == CTL_PKG_ID.part.off || off == CTL_PKG_SERIAL.serial.off
    | _ => false)

/-- Session `n` may read the register at offset `off` of mapped page `a`. -/
def State.mayRead (s : State) (n a off : Nat) : Bool := s.mayReadAs (s.rolesWord n) n a off

/-- A session `n` with the roles of `w` may write the register at offset `off` of mapped page `a` (R69, R429); PG_CTRL holds the selector
field read_shadow of every page (R402), and `State.writeHdr` keeps its other fields from a session without ADMIN. With the own-ring checks
of `ringOwnerAt` and `State.ownsRings`, `ownStaging`, `stagingOk`, `State.badQp`, `State.maySubmit` and `Descriptor.cred`, this keeps what
a host error may change within the reach of R72. -/
def State.mayWriteAs (s : State) (w n a off : Nat) : Bool :=
  match s.ringOwnerAt a off with
  | some o => o == n
  | none =>
    wordAdmin w ||
    (match blkOfPage a with
      | some b =>
        let sel := isSelector b off || off == PG_CTRL.read_shadow.off
        (wordObserve w && sel) ||
        (wordJob w && sel && (b == .lnd || b == .grp || b == .trg || b == .cmb || b == .ctrDie || b == .ctrPkg)) ||
        (b == .sec && (wordJob w || wordObserve w) && decide (SEC_QUOTE_NONCE.nonce.off ≤ off) &&
          decide (off ≤ SEC_QUOTE_STATUS.quotes.off)) ||
        (off == PG_GUARD.owner.off && s.mayReadAs w n a off)
      | none => false)

/-- Session `n` may write the register at offset `off` of mapped page `a`. -/
def State.mayWrite (s : State) (n a off : Nat) : Bool := s.mayWriteAs (s.rolesWord n) n a off

/-- Session `n` may submit opcode `op` (R429). -/
def State.mayOpcode (s : State) (n op : Nat) : Bool :=
  let common := [0x000, 0x020, 0x021, 0x080]
  s.isAdmin n || (s.isJob n && (common ++ [0x050, 0x051, 0x052, 0x053]).contains op) || (s.isObserve n && common.contains op)

/-- An access of session `n` is refused under R53: counted in the package MGT page, the first one recorded there. -/
def State.refuseAccess (s : State) (n : Nat) (mapped : Bool) (off : Nat) : State :=
  (s.pageError mgtPkgPage (if mapped then 0x0003 else 0x0004) n (offDetail off)).count mgtPkgPage 0x80 n

/-! ### End of a session (R50, R59, R60, R69) -/

/-- Every page guard held by session `n` returns to 0xFF. -/
def State.releaseGuards (s : State) (n : Nat) : State :=
  { s with regs := Sparse.mapv s.regs fun k v => if k % (4096 * 64) = 0x58 * 64 + 8 ∧ v % 256 = n then 0xFF else v }

/-- The rings that session `n` owns stop with reason SESSION_ENDED, enabled or not (R60, R68). -/
def State.stopRings (s : State) (n : Nat) : State :=
  s.each (List.range 64) fun i s =>
    let r := 64 * n + i
    s.iff (s.rd CTL_RING_CFG.owner (ringBlock r) == n) fun s => s.ringStop r 2

/-- Session `n` ends: its guards are released, its rings stop, its queue pairs leave it and SESSION_ENDED goes to the alarm
rings (R50). -/
def State.endSession (s : State) (n : Nat) : State :=
  if (s.session n).active = false then s
  else
    let s := s.setSession n Session.none
    let s := s.releaseGuards n
    let s := s.stopRings n
    let s := { s with mgmt := { s.mgmt with qps := s.mgmt.qps.filter fun e => e.2.session != n } }
    (s.alarm 0x0061 0 mgtPkgPage n 0).count mgtPkgPage 0x81 n

/-- A session with no ready queue pair left ends (R50). -/
def State.endIfDead (s : State) (n : Nat) : State := s.iff ((s.session n).active && !s.hasReady n) fun s => s.endSession n

/-- Queue pair `q` of port `m` enters the error state; its session ends if that was its last ready one (R49, R50). -/
def State.qpError (s : State) (m q : Nat) : State :=
  let x := s.qp m q
  (s.setQp m q { x with mode := .error, unacked := [] }).endIfDead x.session

/-- The queue pairs of management port `m` are lost with the frames relayed to it, and the sessions that had no other end (R50). -/
def State.loseQps (s : State) (m : Nat) : State :=
  let lost := (s.mgmt.qps.filter fun e => e.1 / 64 == m).map fun e => e.2.session
  let s := { s with mgmt := { s.mgmt with
    qps := s.mgmt.qps.filter fun e => e.1 / 64 != m
    relayed := if m = 0 then [] else s.mgmt.relayed } }
  s.each lost.eraseDups fun n s => s.endIfDead n

/-- A packet of the session arrives: its idle time starts again (R50). -/
def State.touch (s : State) (n : Nat) : State := s.setSession n { s.session n with last := s.now }

/-- Next packet number that port `m` expects. -/
def State.nextPn (s : State) (m : Nat) : Nat := Sparse.get 1 s.mgmt.nextPn m

/-- A frame received at port `m` passes its MACsec checks (R48): one that is protected, unless its packet number lies below the replay
window, and an unprotected one while the policy is OFF. -/
def State.passes (s : State) (m : Nat) (via : Via) : Bool :=
  match via with
  | .secured n => decide (s.nextPn m ≤ n.toNat + s.rd MGT_MACSEC_CFG.replay_window (mgtPage m))
  | .plain | .relayed => !s.flag MGT_MACSEC_CFG.policy (mgtPage m)

/-- A protected frame has passed: the packet number expected next lies above its own. -/
def State.sawPn (s : State) (m : Nat) (via : Via) : State :=
  match via with
  | .secured n => { s with mgmt := { s.mgmt with nextPn := Sparse.set s.mgmt.nextPn m (max (s.nextPn m) (n.toNat + 1)) } }
  | .plain | .relayed => s

/-- A frame that came so is not protected. -/
def Via.isPlain (via : Via) : Bool :=
  match via with
  | .secured _ => false
  | .plain | .relayed => true

/-- The queue pair of a frame that has passed at port `m`, and whether it runs unprotected frames. -/
def State.sawVia (s : State) (m : Nat) (qp : Option Nat) (via : Via) : State :=
  match qp with
  | some q => s.iff (decide ((s.qp m q).mode ≠ .free)) fun s => s.setQp m q { s.qp m q with plain := via.isPlain }
  | none => s

/-- A frame that came as `via` is discarded: an unprotected one on a ready queue pair that still runs unprotected frames puts it in error
(R426). -/
def State.unprotected (s : State) (m : Nat) (qp : Option Nat) (via : Via) : State :=
  match qp with
  | some q => s.iff (via.isPlain && decide ((s.qp m q).mode = .ready) && (s.qp m q).plain) fun s => s.qpError m q
  | none => s

/-- The oldest frame relayed over the fabric reaches the RoCEv2 engine of M0, where `f` acts on it; under REQUIRED it is discarded and
counted (R130). The frame has not arrived at the port, so neither the port's link nor its frame counter matters. What is read in it are
the command's operands (notes/assumptions/58.md). -/
def State.relayedFrame (s : State) (m : Nat) (qp : Option Nat) (f : State → State) : State :=
  match s.mgmt.relayed with
  | _ :: rest =>
    if m ≠ 0 then s
    else
      let s := { s with mgmt := { s.mgmt with relayed := rest } }
      if s.passes 0 .relayed then f (s.sawVia 0 qp .relayed) else (s.count (mgtPage 0) 0x82).unprotected 0 qp .relayed
  | [] => s

/-- A frame arrives at management port `m` with its link up, or by the relay of R130: `f` acts if the policy lets it pass, and it is
discarded and counted otherwise (R48); `qp` is the data queue pair it is for. -/
def State.mgtFrame (s : State) (m : Nat) (via : Via) (f : State → State) (qp : Option Nat := none) : State :=
  if via = .relayed then s.relayedFrame m qp f
  else if !s.flag MGT_PORT_STATUS.link_up (mgtPage m) then s
  else
    let s := s.count (mgtPage m) 0x80
    if s.passes m via then f ((s.sawPn m via).sawVia m qp via) else (s.count (mgtPage m) 0x82).unprotected m qp via

/-! ### Rows -/

/-- HOST_SEND: a SEND from a host is answered with NAK Invalid Request and its queue pair enters error (R49). -/
def hostSend (m q : Nat) (via : Via) (s : State) : State :=
  s.mgtFrame m via (qp := some q) fun s =>
    if (s.qp m q).mode = .ready then
      (((s.touch (s.qp m q).session).emit (.nakInvalid m q)).count (mgtPage m) 0x83 q).qpError m q
    else s

/-- The unacknowledged requests of a queue pair are sent again, oldest first. -/
def State.resend (s : State) (m q : Nat) : State :=
  (s.each (s.qp m q).unacked fun x s =>
    s.emit (if x.isSend then .send m q x.data else .rdmaWrite m q x.rkey x.addr x.data)).count (mgtPage m) 0x84 q (s.qp m q).unacked.length

/-- LOCAL_ACK_TIMEOUT: the requests are sent again, up to 7 times; then the queue pair enters error (R49). -/
def localAckTimeout (m q : Nat) (s : State) : State :=
  let x := s.qp m q
  if x.mode ≠ .ready ∨ x.unacked = [] then s
  else if x.retries < 7 then (s.setQp m q { x with retries := x.retries + 1 }).resend m q
  else s.qpError m q

/-- RNR_RETRY_TIMER: after a receiver-not-ready answer the requests are sent again, up to 7 times; then the queue pair enters
error (R49). -/
def rnrRetryTimer (m q : Nat) (s : State) : State :=
  let x := s.qp m q
  if x.mode ≠ .ready ∨ x.rnrWait = false then s
  else if x.rnrRetries < 7 then (s.setQp m q { x with rnrRetries := x.rnrRetries + 1, rnrWait := false }).resend m q
  else s.qpError m q

/-- ROCEV2_ACK_RECEIVE: an answer of the host settles, repeats or fails the oldest requests (R49). -/
def roceAck (m q : Nat) (k : RoceAnswer) (via : Via) (s : State) : State :=
  s.mgtFrame m via (qp := some q) fun s =>
    let x := s.qp m q
    if x.mode ≠ .ready then s
    else
      let s := s.touch x.session
      match k with
      | .ack n => s.setQp m q { x with unacked := x.unacked.drop n, retries := 0, rnrRetries := 0, rnrWait := false }
      | .nakSequence =>
        if x.unacked = [] then s
        else if x.retries < 7 then (s.setQp m q { x with retries := x.retries + 1 }).resend m q
        else s.qpError m q
      | .nakError => if x.unacked = [] then s else s.qpError m q
      | .rnr => if x.unacked = [] then s else s.setQp m q { x with rnrWait := true }

/-- NEIGHBOR_DISCOVERY: a solicitation for the port's own address is answered (R47). It is no RoCEv2 frame, so none is relayed. -/
def neighborDiscovery (m target : Nat) (via : Via) (s : State) : State :=
  if via = .relayed then s
  else s.mgtFrame m via fun s =>
    s.iff (target == s.boot.copy.identity.mgtAddrs.getD m 0) fun s => s.emit (.neighborAdvert m target)

/-- MGT_LINK_CHANGE: a port's link comes up after training, or goes down (R47, R74). -/
def mgtLinkChange (m : Nat) (up : Bool) (s : State) : State :=
  let a := mgtPage m
  if s.power.pwrOk = false ∨ (up = true ∧ s.flag MGT_PORT_STATUS.training a = false) ∨
      (up = false ∧ s.flag MGT_PORT_STATUS.link_up a = false ∧ s.flag MGT_PORT_STATUS.training a = false) then s
  else
    let changed := s.flag MGT_PORT_STATUS.link_up a != up
    let s := (s.wr MGT_PORT_STATUS.link_up a (b2n up)).wr MGT_PORT_STATUS.training a (b2n (!up))
    let s := s.iff (!up) fun s => s.wr MGT_MACSEC_STATUS.mka_live a 0
    s.iff changed fun s => s.irq a 4

/-- MKA_KEY_INSTALL: firmware MKA installs a key under association number `an` and applies the port's cipher (R48, R74). Packet numbers
start again at 1 under a new key (IEEE 802.1AE; PRESUMED, notes/assumptions/64.md). -/
def mkaKeyInstall (m an : Nat) (s : State) : State :=
  let a := mgtPage m
  if s.flag MGT_MACSEC_CFG.policy a = false ∨ s.flag MGT_PORT_STATUS.link_up a = false ∨ s.boot.cores = 0 then s
  else
    let s := (s.inc MGT_MACSEC_STATUS.sak_installs a).wr MGT_MACSEC_STATUS.mka_live a 1
    let s := (s.wr MGT_MACSEC_STATUS.rx_an a an).wr MGT_MACSEC_STATUS.tx_an a an
    { s with mgmt := { s.mgmt with
      cipher := Sparse.set s.mgmt.cipher m (s.rd MGT_MACSEC_CFG.cipher a)
      nextPn := Sparse.del s.mgmt.nextPn m } }

/-- MKA_TIMEOUT: under REQUIRED no key is installed 10 s after link up, so mka_fail is set (R74). -/
def mkaTimeout (m : Nat) (s : State) : State :=
  let a := mgtPage m
  if s.flag MGT_MACSEC_CFG.policy a && s.flag MGT_PORT_STATUS.link_up a && !s.flag MGT_MACSEC_STATUS.mka_live a then
    s.irq a 5
  else s

/-- SESSION_IDLE_TIMEOUT: 30 s without a packet end the session (R50). -/
def sessionIdle (n : Nat) (s : State) : State := s.endSession n

/-- RING_OWNER_RELEASE: firmware sets the owner fields of an ended session's rings back to 0xFF (R60, R69). -/
def ringOwnerRelease (n : Nat) (s : State) : State :=
  if (s.session n).active ∨ (s.session n).reserved ∨ s.boot.cores = 0 then s
  else
    let s := s.each (List.range 64) fun i s => s.wr CTL_RING_CFG.owner (ringBlock (64 * n + i)) 0xFF
    s.each (List.range 4) fun i s => s.wr CTL_EVR_CFG.owner (evrBlock (4 * n + i)) 0xFF

/-! ### Admission (R427, R69) -/

/-- A failed exchange is counted: SEC_ADMIT.failures, ADMIT_FAIL, admit_fail, and the port's rate. -/
def State.admitFail (s : State) (m : Nat) : State :=
  let recent := (Sparse.get [] s.mgmt.failTimes m).filter fun t => decide (s.now < t + 1000000000)
  let s := { s with mgmt := { s.mgmt with failTimes := Sparse.set s.mgmt.failTimes m (s.now :: recent) } }
  ((s.inc SEC_ADMIT.failures secPage).count secPage 0x81).irq secPage 6

/-- Failed exchanges of port `m` in the last second. -/
def State.recentFails (s : State) (m : Nat) : Nat :=
  ((Sparse.get [] s.mgmt.failTimes m).filter fun t => decide (s.now < t + 1000000000)).length

/-- The lowest session number not in use. -/
def State.freeSession (s : State) : Option Nat :=
  (List.range 64).find? fun n => !(s.session n).active && !(s.session n).reserved

/-- The lowest free data queue pair of a port. -/
def State.freeQp (s : State) (m : Nat) : Option Nat := (List.range 64).find? fun q => decide ((s.qp m q).mode = .free)

/-- The registers of an admitted session's rings: owner `n`, disabled, every other register at its reset value (R69). -/
def State.ownRings (s : State) (n : Nat) : State :=
  let s := s.each (List.range 64) fun i s =>
    let a := ringBlock (64 * n + i)
    ({ s with regs := Sparse.delIf s.regs fun k => decide (a * 64 ≤ k) && decide (k < (a + 0x70) * 64) }.wr
      CTL_RING_CFG.owner a n).setRing (64 * n + i) Ring.fresh |>.orphan (64 * n + i)
  s.each (List.range 4) fun i s =>
    let a := evrBlock (4 * n + i)
    { s with regs := Sparse.delIf s.regs fun k => decide (a * 64 ≤ k) && decide (k < (a + 0x70) * 64) }.wr
      CTL_EVR_CFG.owner a n

/-- Private data of a REP (R427): device nonce, identity-key signature, session, rkeys. -/
def repData (devNonce hostNonce : List Byte) (hostQpn devQpn : Nat) (n : Nat) (rkeys : List Nat) : List Byte :=
  let d := sm3 (hostNonce ++ devNonce ++ natLe 4 hostQpn ++ natLe 4 devQpn ++ natLe 8 Config.packageSerial.toNat)
  devNonce ++ natBe 64 (Config.sm2Sign (BitVec.ofNat 256 d)).toNat ++ [byte n, 0, 0, 0] ++ rkeys.flatMap (natLe 4)

/-- CM_REQ: the exchange is dropped by the rate limit, refused with REJ, or answered with REP, a session and a queue pair
taken for it (R427). -/
def cmReq (m hostQpn : Nat) (priv : List Byte) (via : Via) (s : State) : State :=
  s.mgtFrame m via fun s =>
    let slotByte := leAt priv 4 1
    let join := leAt priv 5 1
    let key := beAt priv 24 64
    let reject := fun (s : State) => (s.emit (.cmRej m hostQpn)).admitFail m
    if 16 ≤ s.recentFails m then (s.inc SEC_ADMIT.failures secPage).count secPage 0x82
    else if leAt priv 0 4 ≠ 0x57584144 ∨ s.flag SEC_STATE.identity_ok secPage = false then reject s
    else
      let eph := !s.owned
      let slot := if eph then 0 else slotByte
      let badSlot := if eph then slotByte != 0xFF
        else slotByte == 0 || decide (15 < slotByte) || Sparse.get 0 s.sec.keys slotByte == 0
      let cred := if eph then key else slot
      let badJoin := join != 0xFF && (decide (64 ≤ join) || !(s.session join).active ||
        !sameCred (s.session join).ephemeral (s.credOf join) eph cred || decide (16 ≤ (s.qpsOf join).length))
      if badSlot || badJoin then reject s
      else match s.freeQp m, (if join = 0xFF then s.freeSession else some join) with
        | some q, some n =>
          let nonce := natBe 16 (s.freeWide 2)
          let s := s.tickFree 2
          let s := s.iff (join == 0xFF) fun s =>
            let rk := (List.range 4).map fun i => (Config.freeBits (s.freeCtr + i)).toNat % 2 ^ 32
            ((s.setSession n ⟨false, true, eph, slot, if eph then key else 0, rk, s.now⟩).tickFree 4).ownRings n
          let s := s.setQp m q { Qp.none with mode := .connecting, session := n, hostQpn := hostQpn,
                                              hostNonce := slice priv 8 16, devNonce := nonce }
          s.emit (.cmRep m hostQpn (0x40 + q)
            (repData nonce (slice priv 8 16) hostQpn (0x40 + q) n (s.session n).rkeys))
        | _, _ => reject s

/-- The digest an RTU signs (R427). -/
def rtuDigest (x : Qp) (q : Nat) : Nat :=
  sm3 (x.devNonce ++ x.hostNonce ++ natLe 4 x.hostQpn ++ natLe 4 (0x40 + q) ++ natLe 8 Config.packageSerial.toNat)

/-- CM_RTU: a valid signature admits the queue pair to its session; an invalid one ends the exchange with REJ, and so does an exchange
whose credential no longer stands: an ephemeral key once OWNED, or an emptied slot (R427). -/
def cmRtu (m q : Nat) (sig : List Byte) (via : Via) (s : State) : State :=
  s.mgtFrame m via (qp := some q) fun s =>
    let x := s.qp m q
    if x.mode ≠ .connecting then s
    else
      let y := s.session x.session
      let key := if y.ephemeral then y.key else Sparse.get 0 s.sec.keys y.slot
      if y.ephemeral != s.owned && (y.ephemeral || key != 0) && sm2Verify key (rtuDigest x q) (beAt sig 0 64) then
        let s := s.setQp m q { x with mode := .ready }
        let s := s.setSession x.session { y with active := true, reserved := false, last := s.now }
        let s := (s.inc SEC_ADMIT.admissions secPage).count secPage 0x80
        s.each (List.range 4) fun i s => s.evrOverflow (4 * x.session + i)
      else
        let s := s.setQp m q Qp.none
        let s := s.iff y.reserved fun s =>
          let s := s.setSession x.session Session.none
          let s := s.each (List.range 64) fun i s => s.wr CTL_RING_CFG.owner (ringBlock (64 * x.session + i)) 0xFF
          s.each (List.range 4) fun i s => s.wr CTL_EVR_CFG.owner (evrBlock (4 * x.session + i)) 0xFF
        (s.emit (.cmRej m x.hostQpn)).admitFail m

end Sys2Proof.Machine
end

