-- ==== Sys2Proof/Machine/Tables.lean ====
section
/-! DEFINITION. Forwarding tables: the active plan's port roles, the endpoint table, learning and the foyer (R142 to R149), flushes
(R150), the LPM memory (R151 to R153), the route banks and their checks (R154, R155), keys and values (R156), walks (R158). -/

namespace Sys2Proof.Machine

/-! ### The plan in force -/

/-- The record that the active plan gives physical port `p`; UNUSED without a plan (R27). -/
def State.planRec (s : State) (p : Nat) : PortRec :=
  match s.boot.plan with
  | none => PortRec.unused
  | some x => x.ports.getD p PortRec.unused

/-- A cross-connect cell of engine-local port `j` (R96): 0 BAR, 1 CROSS, 2 UNCERTAIN. -/
def State.cell (s : State) (e j side : Nat) : Nat := Sparse.get 0 s.byp.cells (64 * e + 2 * j + side)

/-- Both cells of physical port `p` are BAR, so its fibres reach its own receiver and modulator (R105, R109). -/
def State.cellsBar (s : State) (p : Nat) : Bool := s.cell (p / 32) (p % 32) 0 == 0 && s.cell (p / 32) (p % 32) 1 == 0

/-- The record in effect on physical port `p`: while it drains into bypass, the one it had before (R101); with a cell that is not BAR, the
plan's with the role BYPASS, as which it is treated whatever the plan says (R105, R109). -/
def State.portRec (s : State) (p : Nat) : PortRec :=
  let r := s.planRec p
  (Sparse.get ⟨if s.cellsBar p then r else { r with role := 2 }, false⟩ s.byp.draining p).was

def roleDown : Nat := 0
def roleGallery : Nat := 1
def roleBypass : Nat := 2
def roleUnused : Nat := 3

def State.role (s : State) (p : Nat) : Nat := (s.portRec p).role

/-- Number of sub-ports a breakout gives (R78). -/
def subCount (breakout : Nat) : Nat := if breakout = 2 then 4 else if breakout = 1 then 2 else 1

/-- The breakout of its port gives logical port `l` a sub-port (R78). -/
def State.lportUsed (s : State) (l : Nat) : Bool := decide (l % 4 < subCount (s.portRec (l / 4)).breakout)

/-- Rate of logical port `l` in Gb/s (R78). -/
def State.lportRate (s : State) (l : Nat) : Nat := 800 / subCount (s.portRec (l / 4)).breakout

/-- A sub-port by logical port. -/
def State.sub (s : State) (l : Nat) : SubPort := Sparse.get SubPort.fresh s.subs l

/-- The state with a sub-port replaced. -/
def State.setSub (s : State) (l : Nat) (x : SubPort) : State := { s with subs := Sparse.set s.subs l x }

/-- OPT_PORT_STATE.state of logical port `l` (R94). -/
def State.linkState (s : State) (l : Nat) : Nat := s.rd OPT_PORT_STATE.state (portPage (l / 4)) (l % 4)

/-- Logical port `l` is UP. -/
def State.isUp (s : State) (l : Nat) : Bool := s.linkState l == 6

/-- Logical port `l` is in service (R182): UP, accepted, used by its breakout, not draining toward a bypass (R101), and
forwarding not stopped by a SYSCLK loss (R40). -/
def State.inService (s : State) (l : Nat) : Bool :=
  s.isUp l && decide ((s.sub l).disc = .accepted) && s.lportUsed l && !Sparse.has s.byp.draining (l / 4) && !s.power.stopped

/-- The hall a link group leads to from hall `h` of a 2^n cube (R18); none where the group does not exist. -/
def groupHall (n h g : Nat) : Option Nat :=
  if g < n then some (Nat.xor h (2 ^ g))
  else if g = n ∧ 2 ≤ n then some (Nat.xor h (2 ^ n - 1))
  else none

/-- dist(x) of R155. -/
def cubeDist (n x : Nat) : Nat :=
  let p := popCount 6 x
  if 2 ≤ n then min p (n + 1 - p) else p

/-! ### Counting on the FWD page -/

/-- FWD events without drop code, in the order of R161 (R455). -/
def evLearn : Nat := 0x80
def evMove : Nat := 0x81
def evLearnDrop : Nat := 0x82
def evLearnFail : Nat := 0x83
def evStaticConflict : Nat := 0x84
def evAged : Nat := 0x85
def evFlood : Nat := 0x86
def evFoyerFull : Nat := 0x87
def evLpmParity : Nat := 0x88
def evEpUncorrected : Nat := 0x89

/-- Bank bit and sequence of route table 2 or 3, as every die reads them (R154). -/
def State.routeBank (s : State) (t : Nat) : Nat :=
  if t = 2 then s.rd FWD_UR_SEQ.active_bank (fwdPage 0) else s.rd FWD_GR_SEQ.active_bank (fwdPage 0)

def State.routeSeq (s : State) (t : Nat) : Nat :=
  if t = 2 then s.rd FWD_UR_SEQ.active_seq (fwdPage 0) else s.rd FWD_GR_SEQ.active_seq (fwdPage 0)

/-! ### Endpoint table (R142, R143) -/

/-- Home die of an FEA. -/
def homeDie (fea : Nat) : Nat := Nat.xor (bits fea 14 2) (bits fea 8 2)

/-- The two buckets of an FEA. -/
def epBuckets (fea : Nat) : Nat × Nat :=
  let h := crc32c (natBe 4 fea)
  (bits h 0 17, bits h 15 17)

/-- Slot `i` of die `d`'s copy. -/
def State.ep? (s : State) (d i : Nat) : Option EpEntry :=
  if Sparse.has s.tables.ep (d * 2 ^ 19 + i) then
    some (Sparse.get ⟨false, 0, false, false, false, false, 0, 0, 0, 0⟩ s.tables.ep (d * 2 ^ 19 + i))
  else none

/-- The four slots of a bucket. -/
def bucketSlots (b : Nat) : List Nat := [4 * b, 4 * b + 1, 4 * b + 2, 4 * b + 3]

/-- The slot of an FEA in die `d`'s copy. -/
def State.epFind (s : State) (d fea : Nat) : Option Nat :=
  (bucketSlots (epBuckets fea).1 ++ bucketSlots (epBuckets fea).2).find? fun i =>
    match s.ep? d i with
    | some e => e.fea == fea
    | none => false

/-- Free slots of a bucket in die `d`'s copy, lowest way first. -/
def State.freeWays (s : State) (d b : Nat) : List Nat := (bucketSlots b).filter fun i => (s.ep? d i).isNone

/-- The slot an insertion takes (R142): the bucket with more free ways, the first on a tie. -/
def State.epPlace (s : State) (d fea : Nat) : Option Nat :=
  let a := s.freeWays d (epBuckets fea).1
  let b := s.freeWays d (epBuckets fea).2
  if b.length ≤ a.length then a.head? else b.head?

/-- A slot written in all four copies. -/
def State.epSetAll (s : State) (i : Nat) (e : EpEntry) : State :=
  let f := fun (m : Sparse EpEntry) d => Sparse.set m (d * 2 ^ 19 + i) e
  { s with tables := { s.tables with ep := (List.range 4).foldl f s.tables.ep } }

/-- A slot freed in all four copies. -/
def State.epDelAll (s : State) (i : Nat) : State :=
  { s with tables := { s.tables with ep := s.tables.ep.filter fun e => e.1 % 2 ^ 19 != i } }

/-- The insertion counter of a copy. -/
def State.insertCount (s : State) (d : Nat) : Nat := s.rd FWD_EP_STAMP.insert_counter (fwdPage d)

/-- Every copy's insertion counter increments (R158). -/
def State.countInsert (s : State) : State := s.each (List.range 4) fun d s => s.inc FWD_EP_STAMP.insert_counter (fwdPage d)

/-- A new entry placed in every copy, stamped; `none` where insertion fails (R142). -/
def State.epInsert (s : State) (e : EpEntry) : Option State :=
  let h := homeDie e.fea
  match s.epPlace h e.fea with
  | none => none
  | some i => some ((s.epSetAll i { e with stamp := s.insertCount h }).countInsert)

/-- An uncorrectable error in die `d`'s endpoint entry for `fea` (R160): counted and recorded; the entry goes from every copy
when `d` is the home die, and is refetched otherwise. -/
def State.epError (s : State) (d fea : Nat) : State :=
  match s.epFind d fea with
  | none => s
  | some i =>
    let e := { ErrRec.of d 0x0101 with memory := 3, uncorrectable := true, rail := 2, signature := s.free, addr := i }
    let s := s.tickFree.hwError e (fwdPage d) 8 0x0031 3 (3 + d * 256) evEpUncorrected 0
    s.iff (d == homeDie fea) fun s => s.epDelAll i

/-! ### The foyer (R147) -/

def State.inFoyer (s : State) (fea : Nat) : Bool := s.tables.foyer.any fun x => x.fea == fea

def State.setFoyer (s : State) (l : List FoyerFea) : State := { s with tables := { s.tables with foyer := l } }

/-- FOYER_PLACE: a failed learn insertion on home die `h` from arrival die `d` (R147). -/
def State.foyerPlace (s : State) (h d fea : Nat) : State :=
  let s := s.count (fwdPage h) evLearnFail
  if s.flag FWD_LEARN_CFG.flood_enable (fwdPage d) = false ∨ s.inFoyer fea then s
  else if 256 ≤ s.tables.foyer.length then (s.count (fwdPage h) evFoyerFull).irq (fwdPage h) 4
  else s.setFoyer (s.tables.foyer ++ [⟨fea, true, false⟩])

/-! ### Learning (R144 to R146) -/

/-- Die `d` is in reset or standby, entering it or leaving it (R389, R407). -/
def State.dieAway (s : State) (d : Nat) : Bool :=
  s.rd PWR_DIE_STATUS.state (pwrDiePage d) != 0 || s.rd CTL_DIE_STATE.state (ctlDiePage d) != 0

def State.setLearnQ (s : State) (d : Nat) (l : List LearnAct) : State :=
  let s := { s with tables := { s.tables with learnQ := Sparse.set s.tables.learnQ d l } }
  let s := s.wr FWD_LEARN_QUEUE.occupancy (fwdPage d) l.length
  s.iff (decide (s.rd FWD_LEARN_QUEUE.high_water (fwdPage d) < l.length)) fun s =>
    s.wr FWD_LEARN_QUEUE.high_water (fwdPage d) l.length

/-- The hit bit of a slot in one copy. -/
def State.setHit (s : State) (d i : Nat) : State :=
  match s.ep? d i with
  | none => s
  | some e => { s with tables := { s.tables with ep := Sparse.set s.tables.ep (d * 2 ^ 19 + i) { e with hit := true } } }

/-- An arrival from an FEA without entry inserts one (R145): away from its own leaf, with learn_all, or again for an FEA that die `d` holds
in the foyer (R147). -/
def State.learnNew (s : State) (d fea leaf : Nat) : Bool :=
  leaf != feaLeaf fea || s.flag FWD_LEARN_CFG.learn_all (fwdPage d) ||
    (s.flag FWD_LEARN_CFG.flood_enable (fwdPage d) && s.inFoyer fea)

/-- Learn actions that die `d` has queued are dropped where `gone` holds of the FEA: counted, with their interrupt (R146). -/
def State.dropLearn (s : State) (d : Nat) (gone : Nat → Bool) : State :=
  let q := Sparse.get [] s.tables.learnQ d
  let n := (q.filter fun a => gone a.fea).length
  s.iff (decide (0 < n)) fun s =>
    ((s.setLearnQ d (q.filter fun a => !gone a.fea)).count (fwdPage d) evLearnDrop 0 n).irq (fwdPage d) 5

/-- LEARN_QUEUE: an eligible frame of source `fea` arrived on logical port `l` of arrival leaf `leaf` (R145, R146). A hit on
an unchanged entry and the foyer's arrival are noted at once; a change is queued, or dropped when the queue is full. -/
def State.learnArrival (s : State) (fea l leaf : Nat) : State :=
  let d := l / 512
  let a := fwdPage d
  let s := s.setFoyer (s.tables.foyer.map fun x => if x.fea = fea then { x with hit := true } else x)
  if s.flag FWD_LEARN_CFG.learn_enable a = false then s
  else
    let queue := fun (s : State) =>
      let q := Sparse.get [] s.tables.learnQ d
      if 4096 ≤ q.length then (s.count a evLearnDrop).irq a 5 else s.setLearnQ d (q ++ [⟨fea, leaf, l⟩])
    match s.epFind d fea with
    | none => if s.learnNew d fea leaf then queue s else s
    | some i =>
      match s.ep? d i with
      | none => s
      | some e =>
        if e.static then s.iff (e.leaf != leaf) fun s => s.count a evStaticConflict
        else if e.leaf = leaf then s.setHit d i
        else queue s

/-- LEARN_APPLY: the oldest action of die `d`'s queue is applied on the home die and then in the other copies (R145, R146).
`ecc`: the home die's copy of the entry reads with an uncorrectable error (R160). -/
def learnApply (d : Nat) (ecc : Bool) (s : State) : State :=
  match Sparse.get [] s.tables.learnQ d with
  | [] => s
  | a :: rest =>
    let h := homeDie a.fea
    let all := s.flag FWD_LEARN_CFG.learn_all (fwdPage d)
    let s := s.setLearnQ d rest
    if s.dieAway h then (s.count (fwdPage d) evLearnDrop).irq (fwdPage d) 5
    else
    let s := s.iff ecc fun s => s.epError h a.fea
    match s.epFind h a.fea with
    | none =>
      if s.learnNew d a.fea a.leaf = false then s
      else match s.epInsert ⟨true, a.fea, false, true, false, true, a.leaf, a.lport, 0, 0⟩ with
        | some s => (s.setFoyer (s.tables.foyer.filter fun x => x.fea != a.fea)).count (fwdPage h) evLearn
        | none => s.foyerPlace h d a.fea
    | some i =>
      match s.ep? h i with
      | none => s
      | some e =>
        if e.static then s.iff (e.leaf != a.leaf) fun s => s.count (fwdPage h) evStaticConflict
        else if e.leaf = a.leaf then s.setHit d i
        else if a.leaf = feaLeaf a.fea ∧ all = false then (s.epDelAll i).count (fwdPage h) evMove
        else (s.epSetAll i { e with leaf := a.leaf, lport := a.lport, portValid := true, hit := true,
                                    moves := min (e.moves + 1) 0xFFFF }).count (fwdPage h) evMove

/-! ### Aging (R149) and flushes (R150) -/

/-- One slot of a sweep: the home die ORs the four hit bits and clears, marks or removes. -/
def State.sweepSlot (s : State) (i : Nat) : State :=
  match s.ep? 0 i with
  | none => s
  | some e0 =>
    let h := homeDie e0.fea
    let hit := (List.range 4).any fun d => match s.ep? d i with
      | some e => e.hit
      | none => false
    if e0.static then s
    else if hit then s.epSetAll i { e0 with hit := false, stale := false }
    else if e0.stale then (s.epDelAll i).count (fwdPage h) evAged
    else s.epSetAll i { e0 with stale := true }

/-- The foyer's part of a sweep. -/
def State.sweepFoyer (s : State) : State :=
  let s := s.each s.tables.foyer fun x s => s.iff (!x.hit && x.stale) fun s => s.count (fwdPage (homeDie x.fea)) evAged
  s.setFoyer ((s.tables.foyer.filter fun x => x.hit || !x.stale).map fun x => { x with hit := false, stale := !x.hit })

/-- AGING_SWEEP: every listed slot and the foyer, in the copies of every die in service; nothing while the interval is 0 (R149) or in package standby (R414). -/
def agingSweep (s : State) : State :=
  if s.rd FWD_AGE_CFG.interval_ms (fwdPage 0) = 0 ∨ s.flag PWR_PKG_STATUS.pkg_standby pwrPkgPage = true then s
  else
    let slots := ((s.tables.ep.filter fun e => e.1 / 2 ^ 19 == 0).map fun e => e.1).eraseDups
    let s := (s.each slots fun i s => s.sweepSlot i).sweepFoyer
    s.each ((List.range 4).filter fun d => !s.dieAway d) fun d s =>
      (s.wr FWD_AGE_STATUS.slot (fwdPage d) 0).inc FWD_AGE_STATUS.sweeps (fwdPage d)

/-- Dynamic entries that a mask of local ports of die `d` matches (R150). -/
def State.flushSlots (s : State) (d mask : Nat) : List Nat :=
  (s.tables.ep.filter fun e => e.1 / 2 ^ 19 == 0 && !e.2.static && e.2.portValid && e.2.lport / 4 / 128 == d &&
    bit mask (e.2.lport / 4 % 128)).map fun e => e.1

/-- FLUSH_BY_PORT on table 0: the entries go from every copy; their number is the result. -/
def State.flushByPort (s : State) (d mask : Nat) : State × Nat :=
  let l := s.flushSlots d mask
  (s.each l fun i s => s.epDelAll i, l.length)

/-- Every dynamic entry and every foyer FEA goes (R409). -/
def State.dropDynamic (s : State) : State :=
  { s with tables := { s.tables with ep := s.tables.ep.filter (fun e => e.2.static), foyer := [] } }

/-! ### LPM memory (R151 to R153) -/

def LpmEntry.blank : LpmEntry := ⟨0, 0, 0, 0, []⟩

/-- The prefix of an entry covers an address. -/
def LpmEntry.covers (e : LpmEntry) (addr : Nat) : Bool := addr / 2 ^ (128 - e.len) == e.addr / 2 ^ (128 - e.len)

/-- The first matching entry: the longest, since the slots run from the longest prefixes down (R151). -/
def State.lpmFind (s : State) (addr : Nat) : Option (Nat × LpmEntry) := s.tables.lpm.find? fun e => e.2.covers addr

/-- Slot of a prefix and length. -/
def State.lpmSlot (s : State) (addr len : Nat) : Option Nat :=
  (s.tables.lpm.find? fun e => e.2.addr == addr && e.2.len == len).map fun e => e.1

/-- The lowest unlisted key of a map with rising keys, from `k`. -/
def Sparse.firstFree {α : Type} : Sparse α → Nat → Nat
  | [], k => k
  | (i, _) :: m, k => if i = k then Sparse.firstFree m (k + 1) else Sparse.firstFree m k

/-- The LPM memory replaced, with the entry count of every die's page. -/
def State.setLpm (s : State) (m : Sparse LpmEntry) : State :=
  let t := { s with tables := { s.tables with lpm := m } }
  t.each (List.range 4) fun d s => s.wr FWD_LPM_STATUS.entries (fwdPage d) m.length

/-- The highest unlisted key below `k + 1`, of a map's entries in falling order below it. -/
def lastFree {α : Type} : List (Nat × α) → Nat → Nat
  | [], k => k
  | (i, _) :: m, k => if i = k then lastFree m (k - 1) else k

/-- The first entry of each length group in a list of entries, behind a group of length `k`. -/
def groupHeads : Nat → List (Nat × LpmEntry) → List (Nat × LpmEntry)
  | _, [] => []
  | k, x :: l => if x.2.len = k then groupHeads k l else x :: groupHeads x.2.len l

/-- A new entry's slot among entries `m`, and the moves that free it, each an entry and its new slot (R152): the lowest free slot of its own
length group, or else one entry of each group toward the nearest free slot, above if there is one, moves to the far end of its group. The
spec does not say which slots a group leaves free (notes/assumptions/59.md). -/
def lpmRoom (m : Sparse LpmEntry) (len : Nat) : Nat × List ((Nat × LpmEntry) × Nat) :=
  let lo := m.foldl (fun k e => if len < e.2.len then max k (e.1 + 1) else k) 0
  let up := Sparse.firstFree m lo
  let heads := fun (run : List (Nat × LpmEntry)) (free : Nat) =>
    let h := groupHeads len run
    ((h.map Prod.fst ++ [free]).headD free, h.zip ((h.map Prod.fst).tail ++ [free]))
  if up < 16384 then heads (m.filter fun e => decide (lo ≤ e.1 ∧ e.1 < up)) up
  else
    let below := (m.filter fun e => decide (e.1 < lo)).reverse
    let down := lastFree below (lo - 1)
    heads (below.filter fun e => decide (down < e.1)) down

/-- A new prefix enters the memory: each moved entry is copied to its new slot before the old one is freed, the entry takes the slot that
remains, and every copy counts the insertion (R152, R158). -/
def State.lpmInsert (s : State) (addr len value : Nat) : State :=
  let n := s.insertCount 0
  let x := lpmRoom s.tables.lpm len
  let m := x.2.foldr (fun mv m => Sparse.set (Sparse.del m mv.1.1) mv.2 { mv.1.2 with was := mv.1.2.was ++ [(n, mv.1.1)] }) s.tables.lpm
  (s.setLpm (Sparse.set m x.1 ⟨addr, len, value, n, []⟩)).countInsert

/-- Parity failed on a lookup of slot `i` at die `d` (R153, R433): the shadow copy repairs the entry, or with both copies
failing it is deleted everywhere. -/
def State.lpmParity (s : State) (d i : Nat) (both : Bool) : State :=
  if Sparse.has s.tables.lpm i = false then s
  else
    let e := { ErrRec.of d 0x0106 with memory := 4, uncorrectable := both, rail := 2, signature := s.free, addr := i }
    let s := s.tickFree.hwError e (fwdPage d) 7 (if both then 0x0031 else 0x0030) (if both then 3 else 0) (4 + d * 256) evLpmParity 0
    s.iff both fun s => s.setLpm (Sparse.del s.tables.lpm i)

/-- LPM_SCRUB: a pass over die `d`'s entries, repairing those whose parity fails, `bad` (R153). -/
def lpmScrub (d : Nat) (bad : List (Nat × Bool)) (s : State) : State :=
  if s.rd FWD_LPM_SCRUB.period_ms (fwdPage d) = 0 then s
  else (s.each bad fun b s => s.lpmParity d b.1 b.2).inc FWD_LPM_STATUS.scrub_passes (fwdPage d)

/-! ### Route banks (R154 to R156) -/

/-- Value quadword of up-route set `g`, slot `k` of bank `b`. -/
def State.upSlot (s : State) (b g k : Nat) : Nat := Sparse.get 0 s.tables.up (b * 1024 + g * 128 + k)

/-- Value quadword of the gallery entry for hall `h` in bank `b`. -/
def State.grEntry (s : State) (b h : Nat) : Nat := Sparse.get 0 s.tables.gr (b * 64 + h)

/-- The valid slots of set `g` in bank `b`, as (slot, port, base weight). -/
def State.upMembers (s : State) (b g : Nat) : List (Nat × Nat × Nat) :=
  ((s.tables.up.filter fun e => e.1 / 128 == b * 8 + g && bit e.2 63).map fun e => (e.1 % 128, bits e.2 0 9, bits e.2 16 8))

/-- A refusal of ROUTE_DRAIN: index, slot, reason (R155, FWD_ROUTE_REFUSAL). -/
structure RouteRefusal where
  index : Nat
  slot : Nat
  reason : Nat
  deriving DecidableEq, Repr

/-- Check of one up-route slot of the shadow bank: PORT_ROLE 1, PORT_GROUP 2. -/
def State.upCheck (s : State) (g k port : Nat) : Option RouteRefusal :=
  let r := s.portRec port
  if g = 7 then (if r.role = roleGallery then none else some ⟨7, k, 1⟩)
  else if r.role = roleGallery ∧ r.group = g then none
  else some ⟨g, k, 2⟩

/-- Check of one gallery entry of the shadow bank. -/
def State.grCheck (s : State) (pl : Plan) (b h : Nat) : Option RouteRefusal :=
  let v := s.grEntry b h
  let x := Nat.xor h pl.hall
  if h = pl.hall then (if bit v 63 then some ⟨h, 0, 6⟩ else none)
  else if 2 ^ pl.n ≤ h then (if bit v 63 then some ⟨h, 0, 7⟩ else none)
  else if bit v 63 = false ∨ bits v 40 4 ≠ cubeDist pl.n x then some ⟨h, 0, 4⟩
  else if bits v 48 7 = 0 ∨ (List.range 7).any (fun g => bit v (48 + g) && match groupHall pl.n pl.hall g with
      | none => true
      | some k => cubeDist pl.n (Nat.xor h k) + 1 != cubeDist pl.n x) then some ⟨h, 0, 3⟩
  else if (groupHall pl.n pl.hall (bits v 32 3)).isNone then some ⟨h, 0, 5⟩
  else none

/-- The first failing check of the shadow bank of table `t` (R155). Without a plan nothing conforms: PORT_ROLE or OWN_HALL. -/
def State.routeCheck (s : State) (t : Nat) : Option RouteRefusal :=
  let b := 1 - s.routeBank t
  if t = 2 then
    (List.range 8).findSome? fun g => (s.upMembers b g).findSome? fun m => s.upCheck g m.1 m.2.1
  else match s.boot.plan with
    | none => (List.range 64).findSome? fun h => if bit (s.grEntry b h) 63 then some ⟨h, 0, 6⟩ else none
    | some pl => (List.range 64).findSome? fun h => s.grCheck pl b h

/-- The shadow bank of table `t` becomes active in every copy with sequence `seq`, and the former active bank is refilled
(R155, step 5 of R199). -/
def State.routeSwap (s : State) (t seq : Nat) : State :=
  let b := 1 - s.routeBank t
  let o := 1 - b
  if t = 2 then
    let keep := s.tables.up.filter fun e => e.1 / 1024 == b
    let copy := (keep.map fun e => (o * 1024 + e.1 % 1024, e.2))
    let up := if o = 0 then copy ++ keep else keep ++ copy
    ({ s with tables := { s.tables with up := up } }).each (List.range 4) fun d s =>
      (s.wr FWD_UR_SEQ.active_bank (fwdPage d) b).wr FWD_UR_SEQ.active_seq (fwdPage d) seq
  else
    let keep := s.tables.gr.filter fun e => e.1 / 64 == b
    let copy := (keep.map fun e => (o * 64 + e.1 % 64, e.2))
    let gr := if o = 0 then copy ++ keep else keep ++ copy
    ({ s with tables := { s.tables with gr := gr } }).each (List.range 4) fun d s =>
      (s.wr FWD_GR_SEQ.active_bank (fwdPage d) b).wr FWD_GR_SEQ.active_seq (fwdPage d) seq

/-- The escape group a conforming gallery entry holds (R191): the successor's group when the ascending ring reaches hall `h`
in at most half the ring, else the predecessor's. -/
def grayHall (i : Nat) : Nat := Nat.xor i (i / 2)

/-- Ring position of a hall (R190). -/
def ringPos (n hall : Nat) : Nat := ((List.range (2 ^ n)).find? fun i => grayHall i == hall).getD 0

/-- Index of the lowest set bit. -/
def lowBit (n : Nat) : Nat := ((List.range 8).find? fun i => bit n i).getD 0

/-- Link group of the step out of ring position `i` (R190). -/
def ringGroup (n i : Nat) : Nat := if i + 1 < 2 ^ n then lowBit (i + 1) else n - 1

/-- Successor's and predecessor's link groups of a hall. -/
def succGroup (n hall : Nat) : Nat := ringGroup n (ringPos n hall)
def predGroup (n hall : Nat) : Nat := ringGroup n ((ringPos n hall + 2 ^ n - 1) % 2 ^ n)

/-- The ascending ring is the direction from `hall` to `h` (R191). -/
def ascends (n hall h : Nat) : Bool :=
  decide (2 * ((ringPos n h + 2 ^ n - ringPos n hall) % 2 ^ n) ≤ 2 ^ n)

/-- The gallery entry firmware derives for hall `h` (R154, R155): every group one hop closer, the distance, the escape
group. -/
def derivedGr (pl : Plan) (h : Nat) : Nat :=
  let x := Nat.xor h pl.hall
  let mask := (List.range 7).foldl (fun m g => match groupHall pl.n pl.hall g with
    | none => m
    | some k => if cubeDist pl.n (Nat.xor h k) + 1 = cubeDist pl.n x then m + 2 ^ g else m) 0
  let esc := if pl.n = 1 ∨ ascends pl.n pl.hall h then succGroup pl.n pl.hall else predGroup pl.n pl.hall
  2 ^ 63 + mask * 2 ^ 48 + cubeDist pl.n x * 2 ^ 40 + esc * 2 ^ 32

/-- The banister ports firmware selects from a plan: the spec lets it choose, and this model takes the lowest GALLERY port of
the successor's group and of the predecessor's group (notes/assumptions/20.md). -/
def banisterPorts (pl : Plan) : List Nat :=
  if pl.n = 0 then []
  else
    let first := fun g => (List.range 512).find? fun p =>
      (pl.ports.getD p PortRec.unused).role == roleGallery && (pl.ports.getD p PortRec.unused).group == g
    let a := first (succGroup pl.n pl.hall)
    let b := first (predGroup pl.n pl.hall)
    match a, b with
    | some x, some y => if x = y then [x] else if x < y then [x, y] else [y, x]
    | some x, none => [x]
    | none, some y => [y]
    | none, none => []

/-- GALLERY ports of link group `g` in a plan, ascending. -/
def groupPorts (pl : Plan) (g : Nat) : List Nat :=
  (List.range 512).filter fun p =>
    (pl.ports.getD p PortRec.unused).role == roleGallery && (pl.ports.getD p PortRec.unused).group == g

/-- The up-route slots firmware derives for set `g`, from slot 0, base weight 64 (R154). -/
def derivedUp (pl : Plan) (b g : Nat) : Sparse Nat :=
  let l := if g = 7 then banisterPorts pl else groupPorts pl g
  (List.range (min l.length 128)).map fun k => (b * 1024 + g * 128 + k, 2 ^ 63 + 64 * 2 ^ 16 + l.getD k 0)

/-- Firmware writes the bank of table `t` that a plan derives into the shadow bank (R154). -/
def State.deriveTable (s : State) (pl : Plan) (t : Nat) : State :=
  let b := 1 - s.routeBank t
  if t = 2 then
    let up := (List.range 8).flatMap fun g => derivedUp pl b g
    let keep := s.tables.up.filter fun e => e.1 / 1024 != b
    { s with tables := { s.tables with up := if b = 0 then up ++ keep else keep ++ up } }
  else
    let gr := ((List.range (2 ^ pl.n)).filter fun h => h != pl.hall).map fun h => (b * 64 + h, derivedGr pl h)
    let keep := s.tables.gr.filter fun e => e.1 / 64 != b
    { s with tables := { s.tables with gr := if b = 0 then gr ++ keep else keep ++ gr } }

/-! ### Keys, values and the table opcodes (R156 to R158) -/

/-- Value quadwords of an endpoint entry. -/
def EpEntry.value (e : EpEntry) : Nat × Nat :=
  (b2n e.valid * 2 ^ 63 + b2n e.static * 2 ^ 62 + b2n e.hit * 2 ^ 61 + b2n e.stale * 2 ^ 60 + b2n e.portValid * 2 ^ 59
    + e.leaf % 1024 * 2 ^ 32 + e.lport % 2048 * 2 ^ 16, e.stamp % 2 ^ 32 * 2 ^ 32 + e.moves % 2 ^ 16 * 2 ^ 16)

/-- A key is in the ranges of R156: D2 to D5 in `k`. -/
def keyOk (t : Nat) (k : List Nat) : Bool :=
  let d2 := k.getD 0 0
  let d3 := k.getD 1 0
  let d4 := k.getD 2 0
  let d5 := k.getD 3 0
  match t with
  | 0 => decide (d2 < 2 ^ 32) && d3 == 0 && d4 == 0 && d5 == 0
  | 1 => decide (d4 ≤ 128) && d5 == 0 && (d3 * 2 ^ 64 + d2) % 2 ^ (128 - d4) == 0
  | 2 => d3 == 0 && d4 == 0 && d5 == 0 && bits d2 3 5 == 0 && decide (d2 < 2 ^ 15)
  | 3 => d3 == 0 && d4 == 0 && d5 == 0 && decide (d2 < 64)
  | _ => false

/-- The key of an LPM prefix. -/
def lpmAddr (k : List Nat) : Nat := k.getD 1 0 * 2 ^ 64 + k.getD 0 0

/-- TABLE_SEARCH: the value of a key in die `d`'s copy, bank 0 active or 1 shadow. -/
def State.tableSearch (s : State) (t d bank : Nat) (k : List Nat) : Option (Nat × Nat) :=
  let pick := fun (tb : Nat) => if bank = 0 then s.routeBank tb else 1 - s.routeBank tb
  match t with
  | 0 => match s.epFind d (k.getD 0 0) with
    | none => none
    | some i => (s.ep? d i).map EpEntry.value
  | 1 => (s.lpmSlot (lpmAddr k) (k.getD 2 0)).map fun i =>
      ((Sparse.get LpmEntry.blank s.tables.lpm i).value, 0)
  | 2 =>
    let v := s.upSlot (pick 2) (bits (k.getD 0 0) 0 3) (bits (k.getD 0 0) 8 7)
    if bit v 63 then some (v, 0) else none
  | _ =>
    let v := s.grEntry (pick 3) (k.getD 0 0)
    if bit v 63 then some (v, 0) else none

/-- TABLE_INSERT: status and state. `static` is D1[16], `v` is D6. Reserved bits of a value of tables 1 to 3 are stored and returned, LPM
action 3 is INVALID, and an endpoint entry that a host inserts starts with hit and stale 0, D7 ignored (DESIGN CHOICE,
notes/assumptions/77.md). -/
def State.tableInsert (s : State) (t : Nat) (static : Bool) (k : List Nat) (v : Nat) : Nat × State :=
  if keyOk t k = false then (stInvalid, s)
  else match t with
  | 0 =>
    let fea := k.getD 0 0
    if bit v 63 = false then (stInvalid, s)
    else match s.epFind (homeDie fea) fea with
      | some i =>
        match s.ep? (homeDie fea) i with
        | some e => (stOk, s.epSetAll i { e with static := static, hit := false, stale := false, portValid := bit v 59,
                                                  leaf := bits v 32 10, lport := bits v 16 11 })
        | none => (stOk, s)
      | none =>
        match s.epInsert ⟨true, fea, static, false, false, bit v 59, bits v 32 10, bits v 16 11, 0, 0⟩ with
        | some s => (stOk, s.setFoyer (s.tables.foyer.filter fun x => x.fea != fea))
        | none => (stTableFull, s)
  | 1 =>
    let act := bits v 48 2
    let hallBad := act == 2 && match s.boot.plan with
      | some pl => bits v 0 6 == pl.hall
      | none => false
    if bit v 63 = false ∨ act = 3 ∨ hallBad then (stInvalid, s)
    else match s.lpmSlot (lpmAddr k) (k.getD 2 0) with
      | some i => (stOk, s.setLpm (Sparse.upd LpmEntry.blank s.tables.lpm i fun e => { e with value := v }))
      | none =>
        if 16384 ≤ s.tables.lpm.length then (stTableFull, s)
        else (stOk, s.lpmInsert (lpmAddr k) (k.getD 2 0) v)
  | 2 =>
    let i := (1 - s.routeBank 2) * 1024 + bits (k.getD 0 0) 0 3 * 128 + bits (k.getD 0 0) 8 7
    let up := if bit v 63 then Sparse.set s.tables.up i v else Sparse.del s.tables.up i
    (stOk, { s with tables := { s.tables with up := up } })
  | _ =>
    let i := (1 - s.routeBank 3) * 64 + k.getD 0 0
    let gr := if bit v 63 then Sparse.set s.tables.gr i v else Sparse.del s.tables.gr i
    (stOk, { s with tables := { s.tables with gr := gr } })

/-- TABLE_DELETE: status and state. -/
def State.tableDelete (s : State) (t : Nat) (k : List Nat) : Nat × State :=
  if keyOk t k = false then (stInvalid, s)
  else match t with
  | 0 => match s.epFind (homeDie (k.getD 0 0)) (k.getD 0 0) with
    | some i => (stOk, s.epDelAll i)
    | none => (stNotFound, s)
  | 1 => match s.lpmSlot (lpmAddr k) (k.getD 2 0) with
    | some i => (stOk, s.setLpm (Sparse.del s.tables.lpm i))
    | none => (stNotFound, s)
  | _ => match s.tableSearch t 0 1 k with
    | some _ => s.tableInsert t false k 0
    | none => (stNotFound, s)

/-- The 48-byte record of a walk (R156). -/
def walkRecord (k : List Nat) (v : Nat × Nat) : List Byte := quadBytes (k ++ [v.1, v.2])

/-- An insertion stamp precedes a walk's start count (R158): it is none of the insertions from `start` up to the counter `now`. However long
before the start an entry was inserted, it is earlier. -/
def stampEarly (now start stamp : Nat) : Bool := sub32 now stamp == 0 || decide (sub32 now start < sub32 now stamp)

/-- The slot of an entry at `i` when a walk began: where the first move since then took it from. So no move makes the walk return an entry
twice or pass it over (R158; notes/assumptions/59.md). -/
def LpmEntry.slotAt (e : LpmEntry) (now start i : Nat) : Nat :=
  match e.was.find? fun x => !stampEarly now start x.1 with
  | some x => x.2
  | none => i

/-- The LPM entries that a walk with this start count visits, in the order of their slots at its start. -/
def State.lpmWalk (s : State) (now start : Nat) : Sparse LpmEntry :=
  (s.tables.lpm.filter fun e => stampEarly now start e.2.stamp).foldr (fun e m => Sparse.set m (e.2.slotAt now start e.1) e.2) []

/-- What TABLE_NEXT answers (R158): `none` for INVALID, otherwise the records, the next cursor, and whether the walk ended. -/
def State.tableNext (s : State) (t d bank cursor n : Nat) : Option (List (List Byte) × Nat × Bool) :=
  if t ≤ 1 then
    let now := s.insertCount d
    let start := if cursor = 0 then now else bits cursor 32 32
    let from_ := bits cursor 0 32
    if 2 ^ 31 ≤ sub32 now start then none
    else
      let all : List (Nat × List Byte) :=
        if t = 0 then (s.tables.ep.filter fun e => e.1 / 2 ^ 19 == d && decide (from_ ≤ e.1 % 2 ^ 19) && stampEarly now start e.2.stamp).map
          fun e => (e.1 % 2 ^ 19, walkRecord [e.2.fea, 0, 0, 0] e.2.value)
        else ((s.lpmWalk now start).filter fun e => decide (from_ ≤ e.1)).map
          fun e => (e.1, walkRecord [e.2.addr % 2 ^ 64, e.2.addr / 2 ^ 64, e.2.len, 0] (e.2.value, 0))
      let got := all.take n
      if n = 0 then some ([], cursor, false)
      else
        let next := match got.getLast? with
          | some x => x.1 + 1
          | none => if t = 0 then 2 ^ 19 else 16384
        let done := decide (all.length ≤ n)
        some (got.map fun x => x.2, start * 2 ^ 32 + (if done then (if t = 0 then 2 ^ 19 else 16384) else next), done)
  else
    let b := if bank = 0 then s.routeBank t else 1 - s.routeBank t
    let all : List (Nat × List Byte) :=
      if t = 2 then (s.tables.up.filter fun e => e.1 / 1024 == b && decide (cursor ≤ e.1 % 1024) && bit e.2 63).map
        fun e => (e.1 % 1024, walkRecord [e.1 % 1024 / 128 + e.1 % 128 * 256, 0, 0, 0] (e.2, 0))
      else (s.tables.gr.filter fun e => e.1 / 64 == b && decide (cursor ≤ e.1 % 64) && bit e.2 63).map
        fun e => (e.1 % 64, walkRecord [e.1 % 64, 0, 0, 0] (e.2, 0))
    if n = 0 then some ([], cursor, false)
    else
      let done := decide (all.length ≤ n)
      let got := all.take n
      let next := match got.getLast? with
        | some x => x.1 + 1
        | none => 0
      some (got.map fun x => x.2, if done then (if t = 2 then 1024 else 64) else next, done)

end Sys2Proof.Machine
end

