-- ==== Sys2Proof/Machine/Switch.lean ====
section
/-! DEFINITION. Treads, pools and queues of the packet buffers: R165 to R177 (pools, thresholds, PFC, headroom, deep treads,
references, discards, flushes), R284 (UNDELIVERED). -/

namespace Sys2Proof.Machine

/-- The hold classes are fixed: TC2, TC6, TC7 (R167). -/
def isHold (c : Nat) : Bool := c == 2 || c == 6 || c == 7

/-- Treads of a frame of `n` bytes (R165). -/
def treadsOf (n : Nat) : Nat := cdiv n 256

/-- Length on the wire of a stored frame: its bytes, padding to 60, and the FCS (R112). -/
def wireLen (u : List Byte) : Nat := max u.length 60 + 4

/-! ### Headroom (R170) -/

/-- Treads reserved for a port of fibre class `k` at 800 Gb/s. -/
def headroomOf (k : Nat) : Nat :=
  if k = 0 then 2344 else if k = 1 then 5469 else if k = 2 then 9375 else 17188

/-- Headroom reservation of logical port `l`: in proportion to its rate, none for BYPASS or UNUSED ports. -/
def State.headroom (s : State) (l : Nat) : Nat :=
  let r := s.portRec (l / 4)
  if (r.role ≠ roleDown ∧ r.role ≠ roleGallery) ∨ s.lportUsed l = false then 0
  else cdiv (headroomOf r.fibre) (subCount r.breakout)

/-- Fibre class of a logical port's physical port. -/
def State.fibre (s : State) (l : Nat) : Nat := (s.portRec (l / 4)).fibre

/-- Treads reserved as headroom by a plan on die `d`, in SRAM or in deep treads. -/
def planHeadroom (pl : Plan) (d : Nat) (deep : Bool) : Nat :=
  (List.range 128).foldl (fun a q =>
    let r := pl.ports.getD (128 * d + q) PortRec.unused
    if (r.role = roleDown ∨ r.role = roleGallery) ∧ (r.fibre ≠ 0 ↔ deep = true) then
      a + subCount r.breakout * cdiv (headroomOf r.fibre) (subCount r.breakout)
    else a) 0

/-- Headroom reservations in force on die `d`. -/
def State.dieHeadroom (s : State) (d : Nat) (deep : Bool) : Nat :=
  match s.boot.plan with
  | none => 0
  | some pl => planHeadroom pl d deep

/-- Deep treads of a region of `g` GiB. -/
def deepTreads (g : Nat) : Nat := g * 4194304

/-- Ring-queue reservation on die `d`: ring_treads for each banister port of the die and hold class (R192). -/
def State.ringReserve (s : State) (d : Nat) : Nat :=
  match s.boot.plan with
  | none => 0
  | some pl => ((banisterPorts pl).filter fun p => p / 128 == d).length * 3 * Sparse.get 0 s.sw.ringTreads d

/-- Deep treads of die `d` that no reservation holds: the overflow pool (R172). -/
def State.overflowSize (s : State) (d : Nat) : Nat :=
  deepTreads (Sparse.get 4 s.sw.deepGib d) - s.dieHeadroom d true - s.ringReserve d

/-! ### Pools (R165, R166) -/

/-- SRAM treads of a die. -/
def dieTreads : Nat := 786432

/-- Treads in use of a pool of die `d`. -/
def State.poolUse (s : State) (d : Nat) : Pool → Nat
  | .result => s.rd BUF_POOL_USE0.result_used (bufPage d)
  | .request => s.rd BUF_POOL_USE0.request_used (bufPage d)
  | .reply => s.rd BUF_POOL_USE0.reply_used (bufPage d)
  | .forward => s.rd BUF_POOL_USE1.forward_used (bufPage d)
  | .headroom => s.rd BUF_POOL_USE1.headroom_used (bufPage d)
  | .deepHead => Sparse.get 0 s.sw.deepHeadUse d
  | .overflow => Sparse.get 0 s.sw.overflowUse d
  | .ring => 0

/-- Size of a pool of die `d`. -/
def State.poolSize (s : State) (d : Nat) : Pool → Nat
  | .result => s.rd BUF_POOL_SIZE.result (bufPage d)
  | .request => s.rd BUF_POOL_SIZE.request (bufPage d)
  | .reply => s.rd BUF_POOL_SIZE.reply (bufPage d)
  | .headroom => s.dieHeadroom d false
  | .forward => dieTreads - s.rd BUF_POOL_SIZE.result (bufPage d) - s.rd BUF_POOL_SIZE.request (bufPage d)
      - s.rd BUF_POOL_SIZE.reply (bufPage d) - s.dieHeadroom d false
  | .deepHead => s.dieHeadroom d true
  | .overflow => s.overflowSize d
  | .ring => s.ringReserve d

/-- Free treads of a pool. -/
def State.poolFree (s : State) (d : Nat) (p : Pool) : Nat := s.poolSize d p - s.poolUse d p

/-- The use of a pool set. -/
def State.setPoolUse (s : State) (d : Nat) (p : Pool) (n : Nat) : State :=
  match p with
  | .result => s.wr BUF_POOL_USE0.result_used (bufPage d) n
  | .request => s.wr BUF_POOL_USE0.request_used (bufPage d) n
  | .reply => s.wr BUF_POOL_USE0.reply_used (bufPage d) n
  | .forward => s.wr BUF_POOL_USE1.forward_used (bufPage d) n
  | .headroom => s.wr BUF_POOL_USE1.headroom_used (bufPage d) n
  | .deepHead => { s with sw := { s.sw with deepHeadUse := Sparse.set s.sw.deepHeadUse d n } }
  | .overflow => { s with sw := { s.sw with overflowUse := Sparse.set s.sw.overflowUse d n } }
  | .ring => s

/-- F of R167: the free count, less hold_floor for FORWARD. -/
def State.dropFree (s : State) (d : Nat) (p : Pool) : Nat :=
  if p = .forward then s.poolFree d p - s.rd BUF_HOLD_CFG.hold_floor (bufPage d) else s.poolFree d p

/-- `n` treads are at most alpha x `f` for class `c` of die `d` (R167). -/
def State.underAlpha (s : State) (d c n f : Nat) : Bool := decide (n * 128 ≤ 2 ^ s.rd BUF_ALPHA.alpha (bufPage d) c * f)

/-! ### PFC toward the partner (R168, R169) -/

/-- The MAC address of logical port `l` (R113). -/
def State.portMac (s : State) (l : Nat) : Nat := s.boot.copy.identity.macBase + l

/-- A frame goes out on logical port `l`, counted on its port page (R455). -/
def State.sendWire (s : State) (l : Nat) (u : List Byte) : State :=
  let b := wire u
  ((s.emit (.frame l b)).count (portPage (l / 4)) 0x88 (l % 4)).count (portPage (l / 4)) 0x8A (l % 4) b.length

/-- A PFC frame leaves an UP sub-port, bypassing queues, gates and shapers (R204). -/
def State.sendPfc (s : State) (l c q : Nat) : State := s.iff (s.isUp l) fun s => s.sendWire l (pfcFrame (s.portMac l) c q)

/-- Ingress count of a hold class. -/
def State.ingress (s : State) (l c : Nat) : Nat := Sparse.get 0 s.sw.ingress (8 * l + c)

/-- XOFF stands toward the partner. -/
def State.xoff (s : State) (l c : Nat) : Bool := Sparse.get false s.sw.xoff (8 * l + c)

/-- PFC_XOFF_SEND and PFC_XON_SEND for one ingress count: XOFF above the threshold, XON at the threshold less xon_delta. -/
def State.pfcCheck (s : State) (l c : Nat) : State :=
  let d := l / 512
  let f := s.poolFree d .forward
  let n := s.ingress l c
  if s.xoff l c then
    if s.underAlpha d c (n + s.rd BUF_HOLD_CFG.xon_delta (bufPage d)) f then
      ({ s with sw := { s.sw with xoff := Sparse.del s.sw.xoff (8 * l + c) } }).sendPfc l c 0
    else s
  else if s.underAlpha d c n f then s
  else ({ s with sw := { s.sw with xoff := Sparse.set s.sw.xoff (8 * l + c) true } }).sendPfc l c 0xFFFF

/-- The check for every count of die `d`, in ascending port and class order. -/
def State.pfcAll (s : State) (d : Nat) : State :=
  let keys := (s.sw.ingress.filter fun e => e.1 / 4096 == d).map fun e => e.1
  let more := (s.sw.xoff.filter fun e => e.1 / 4096 == d && !Sparse.has s.sw.ingress e.1).map fun e => e.1
  s.each (keys ++ more) fun k s => s.pfcCheck (k / 8) (k % 8)

/-- The ingress count of (l, c) changes, and is held against its threshold. -/
def State.setIngress (s : State) (l c n : Nat) : State :=
  let k := 8 * l + c
  ({ s with sw := { s.sw with ingress := if n = 0 then Sparse.del s.sw.ingress k else Sparse.set s.sw.ingress k n } }).pfcCheck l c

/-! ### Treads taken and returned -/

/-- The use of a pool changes; with that of FORWARD the thresholds of R168 move. -/
def State.poolMove (s : State) (d : Nat) (p : Pool) (n : Nat) : State :=
  (s.setPoolUse d p n).iff (decide (p = .forward)) fun s => s.pfcAll d

/-- Treads taken from a pool; pool_exhausted is set when none is left (R180). -/
def State.poolTake (s : State) (d : Nat) (p : Pool) (n : Nat) : State :=
  let s := s.poolMove d p (s.poolUse d p + n)
  s.iff (decide (p = .forward ∨ p = .request ∨ p = .reply ∨ p = .result) && s.poolFree d p == 0 && n != 0) fun s =>
    s.irq (bufPage d) 5

/-- Treads returned to a pool. -/
def State.poolGive (s : State) (d : Nat) (p : Pool) (n : Nat) : State := s.poolMove d p (s.poolUse d p - n)

/-- The pool a class's frames take (R165). -/
def poolOfClass (c : Nat) : Pool := if c = 3 then .request else if c = 4 then .reply else .forward

/-! ### Frames and queues -/

/-- A frame of the store. -/
def State.frame? (s : State) (id : Nat) : Option Frame := (s.sw.frames.find? fun e => e.1 == id).map fun e => e.2

def State.setFrame (s : State) (id : Nat) (f : Frame) : State :=
  { s with sw := { s.sw with frames := Sparse.set s.sw.frames id f } }

/-- A new frame in the store, its treads taken. -/
def State.newFrame (s : State) (f : Frame) : Nat × State :=
  let id := s.sw.nextId
  let s := { s with sw := { s.sw with nextId := id + 1 } }
  (id, (s.setFrame id f).poolTake f.die f.pool f.treads)

/-- Key of a queue: single FIFO 64, ring queue 65, job slots below (R196, R203). -/
def qKey (l c slot : Nat) : Nat := (8 * l + c) * 66 + slot

def State.queue (s : State) (k : Nat) : List QEntry := Sparse.get [] s.sw.queues k

def State.setQueue (s : State) (k : Nat) (q : List QEntry) : State :=
  { s with sw := { s.sw with queues := if q = [] then Sparse.del s.sw.queues k else Sparse.set s.sw.queues k q } }

/-- Treads that a list of queue entries holds. -/
def State.entryTreads (s : State) (q : List QEntry) : Nat :=
  q.foldl (fun a e => a + match s.frame? e.id with
    | some f => f.treads
    | none => 0) 0

/-- Non-empty queues of logical port `l` and class `c`, as (key, entries). -/
def State.queuesOf (s : State) (l c : Nat) : List (Nat × List QEntry) :=
  s.sw.queues.filter fun e => e.1 / 66 == 8 * l + c

/-- Treads that frames admitted to queues with keys `hit`, and still to cross the mesh, count there (R162, R173). -/
def State.crossing (s : State) (hit : Nat → Bool) : Nat :=
  s.sw.waits.foldl (fun a w => match w.kind, s.frame? w.id with
    | .mesh _, some f => a + (w.targets.filter fun t => hit t.key).length * f.treads
    | _, _ => a) 0

/-- Q of R167 and R184: treads admitted for (l, c), job slots summed, the ring queue apart. -/
def State.depth (s : State) (l c : Nat) : Nat :=
  ((s.queuesOf l c).filter fun e => e.1 % 66 != 65).foldl (fun a e => a + s.entryTreads e.2) 0
    + s.crossing fun k => k / 66 == 8 * l + c && k % 66 != 65

/-- Treads in a ring queue, those of frames that cross the mesh to it included (R173, R192). -/
def State.ringDepth (s : State) (l c : Nat) : Nat :=
  s.entryTreads (s.queue (qKey l c 65)) + s.crossing fun k => k == qKey l c 65

/-! ### References (R174) -/

/-- A frame stops counting under R168. -/
def State.uncount (s : State) (f : Frame) : State :=
  s.iff f.counted fun s => s.setIngress f.src f.cls (s.ingress f.src f.cls - f.treads)

/-- Treads of a frame return to their pool, or to the port's headroom. -/
def State.giveTreads (s : State) (f : Frame) : State :=
  let s := s.poolGive f.die f.pool f.treads
  s.iff (decide (f.pool = .headroom ∨ f.pool = .deepHead)) fun s =>
    { s with sw := { s.sw with headUse := Sparse.set s.sw.headUse f.src (Sparse.get 0 s.sw.headUse f.src - f.treads) } }

/-- One reference of a frame is released; with the last the frame is freed and stops counting. -/
def State.release (s : State) (id : Nat) : State :=
  match s.frame? id with
  | none => s
  | some f =>
    if 1 < f.refs then s.setFrame id { f with refs := f.refs - 1 }
    else
      let s := ((s.giveTreads f).uncount f)
      { s with sw := { s.sw with frames := Sparse.del s.sw.frames id } }

/-! ### Discards (R177, R284) -/

/-- UNDELIVERED: a discarded RESULT copy is reported on the group's event ring, which GROUP_WRITE recorded (R265, R284);
counted as the LND event of the die that discards it. `ring` is 0x100 where the group names none. The spec names no port for a copy
discarded before a port was selected (`l` from 2048 up): its port detail is free. -/
def State.undelivered (s : State) (d l : Nat) (u : List Byte) (ring : Nat) : State :=
  let h := Hjt.decode u
  let p := if l < 2048 then l / 4 else s.free % 512
  let s := (s.iff (decide (2048 ≤ l)) fun s => s.tickFree).iff (decide (ring < 0x100)) fun s =>
    s.event ring 0x0021 1 (pageCode (lndPage d)) p (h.group * 2 ^ 48 + h.step * 2 ^ 32 + h.chunk)
  s.count (lndPage d) 0x8B

/-- A discard by code is counted on a page and shown in SWP_LAST_DISCARD of the receiving pipeline (R161, R177). A frame of
the device passed no pipeline. -/
def State.dropAt (s : State) (page code cls src : Nat) : State :=
  let s := s.count page code
  if 2048 ≤ src then s
  else
    let a := swpPage (pipeOfPort (src / 4))
    (((s.wr SWP_LAST_DISCARD.reason a code).wr SWP_LAST_DISCARD.cls a cls).wr SWP_LAST_DISCARD.port a (src / 4)).inc
      SWP_LAST_DISCARD.discards a

/-- A group's entry and lists. -/
def State.group (s : State) (g : Nat) : Group := Sparse.get Group.none s.coll.groups g

/-- Event ring of a group; 0x100 where the group was never written (R265). -/
def State.groupRing (s : State) (g : Nat) : Nat := (s.group g).ring

/-- One copy in queue `k` is discarded under `code` on the BUF page of its egress die. -/
def State.dropCopy (s : State) (k : Nat) (e : QEntry) (code : Nat) : State :=
  let l := k / 66 / 8
  match s.frame? e.id with
  | none => s
  | some f =>
    let s := s.dropAt (bufPage (l / 512)) code f.cls f.src
    let s := s.iff f.result fun s => s.undelivered (l / 512) l f.bytes (s.groupRing (Hjt.decode f.bytes).group)
    s.release e.id

/-- One copy is discarded on page `page` before it enters a queue. -/
def State.dropNew (s : State) (f : Frame) (page code l : Nat) : State :=
  (s.dropAt page code f.cls f.src).iff f.result fun s =>
    s.undelivered (dieOfPage page) l f.bytes (s.groupRing (Hjt.decode f.bytes).group)

/-- The state without wait `w`, whose reference passes to the caller. -/
def State.dropWait (s : State) (w : Wait) : State := { s with sw := { s.sw with waits := s.sw.waits.erase w } }

/-- Copies admitted to queues with keys `hit` that still cross the mesh to them are discarded under `code`, and counted for their queues
(R162, R173). -/
def State.dropCrossing (s : State) (hit : Nat → Bool) (code : Nat) : State :=
  let mesh := fun (w : Wait) => match w.kind with
    | .mesh j => some j
    | _ => none
  s.each (s.sw.waits.filter fun w => (mesh w).isSome && w.targets.any fun t => hit t.key) fun w s =>
    match s.frame? w.id, mesh w with
    | some f, some j =>
      let s := s.each (w.targets.filter fun t => hit t.key) fun t s =>
        s.dropNew f (bufPage (t.key / 66 / 8 / 512)) code (t.key / 66 / 8)
      let rest := w.targets.filter fun t => !hit t.key
      if rest = [] then ((s.dropWait w).release j).release w.id
      else { s with sw := { s.sw with waits := s.sw.waits.map fun x => if x = w then { w with targets := rest } else x } }
    | _, _ => s

/-- The frame in transmission on logical port `l` is ended with an inverted FCS; a RESULT copy so ended is reported (R176, R284). -/
def State.cutFrame (s : State) (l : Nat) : State :=
  match s.sw.sending.find? fun e => e.1 == l && decide (s.now < e.2.stop) with
  | none => s
  | some e =>
    let s := ({ s with sw := { s.sw with sending := Sparse.del s.sw.sending l } }).emit (.cut l)
    s.iff e.2.result fun s => s.undelivered (l / 512) l e.2.bytes (s.groupRing (Hjt.decode e.2.bytes).group)

/-- Sub-port `l` leaves service: the frame in transmission ends, and every frame in its queues, or admitted to them and crossing the mesh, is
discarded under `code` (PORT_DOWN_FLUSH, DRAIN_DISCARD): R176. -/
def State.flushPort (s : State) (l code : Nat) : State :=
  let s := s.cutFrame l
  let qs := s.sw.queues.filter fun e => e.1 / 66 / 8 == l
  let s := { s with sw := { s.sw with queues := s.sw.queues.filter fun e => e.1 / 66 / 8 != l } }
  (s.each qs fun e s => s.each e.2 fun x s => s.dropCopy e.1 x code).dropCrossing (fun k => k / 66 / 8 == l) code

/-! ### Memory errors (R355, R362, R363, R433) -/

/-- The record of a memory error: its signature and its detail, a syndrome or the symbols, are not given by the spec where
`detail` is none, so they are free. -/
def State.memRecord (s : State) (e : ErrRec) (detail : Option Nat) : ErrRec × State :=
  ({ e with signature := s.free, detail := detail.getD (s.free / 2 ^ 32) }, s.tickFree)

/-- A read of die `d`'s bonded DRAM in region `region`, block address `block`, with `symbols` corrected, none for an
uncorrectable read (R355, R363, R365, R439). -/
def State.dramError (s : State) (d region block : Nat) (symbols : Option Nat) : State :=
  let a := f2fPage d
  let bad := symbols.isNone
  let r := s.memRecord { ErrRec.of d (if bad then 0x0103 else 0x0102) with
    memory := 5, uncorrectable := bad, rail := 4, addr := block } (some (symbols.getD 0))
  let s := if bad then r.2.inc F2F_ECC_COUNT.uncorrected a else r.2.inc F2F_ECC_COUNT.corrected a
  let s := ((s.wr F2F_ECC_LAST.uncorrectable a (b2n bad)).wr F2F_ECC_LAST.symbols a (symbols.getD 0)).wr F2F_ECC_LAST.region a region
  (s.wr F2F_ECC_LAST.block a (block / 64)).hwError r.1 a (if bad then 5 else 4) (if bad then 0x0031 else 0x0030) (if bad then 3 else 0)
    (5 + d * 256) (if bad then 0x81 else 0x80) 0

def State.dramUncorrected (s : State) (d region block : Nat) : State := s.dramError d region block none

/-- Kinds of LPDDR6 error: corrected by link ECC, corrected by SEC-DED, uncorrectable. -/
inductive LpKind where
  | link | secded | bad
  deriving DecidableEq, Repr

/-- Region of a byte address of die `d`'s LPDDR6 (R359), coded as in MEM_ECC_LAST. -/
def State.lpRegion (s : State) (d a : Nat) : Nat :=
  let g := a / 2 ^ 30
  let spill := Sparse.get 16 s.coll.spillGib d
  if d = 0 then
    if g < 16 then 0 else if g < 20 then 1 else if g < 22 then 2 else if g < 26 then 3 else if g < 27 then 4
    else if g < 27 + spill then 5 else 6
  else if g < 4 then 3 else if g < 5 then 4 else if g < 5 + spill then 5 else 6

/-- An error at byte address `a` of die `d`'s LPDDR6 (R358, R362, R363, R366). -/
def State.lpError (s : State) (d a : Nat) (k : LpKind) : State :=
  let c := a / 256 % 6
  let n := 3 * d + c / 2
  let p := memPage n
  let bad := decide (k = .bad)
  let r := s.memRecord { ErrRec.of d (if bad then 0x0105 else 0x0104) with
    memory := 6, uncorrectable := bad, rail := 7, addr := a } none
  let s := match k with
    | .link => r.2.inc MEM_ECC_COUNT.link_corrected p
    | .secded => r.2.inc MEM_ECC_COUNT.secded_corrected p
    | .bad => r.2.inc MEM_ECC_COUNT.uncorrected p
  let s := (s.wr MEM_ECC_LAST.uncorrectable p (b2n bad)).wr MEM_ECC_LAST.link p (b2n (decide (k = .link)))
  let s := (s.wr MEM_ECC_LAST.region p (s.lpRegion d a)).wr MEM_ECC_LAST.channel p (c % 2)
  let ev := match k with
    | .link => 0x80
    | .secded => 0x81
    | .bad => 0x82
  (s.wr MEM_ECC_LAST.quadword p ((a / 1536 * 256 + a % 256) / 8)).hwError r.1 p (if bad then 5 else 4)
    (if bad then 0x0031 else 0x0030) (if bad then 3 else 0) (6 + d * 256 + c / 2 * 1024) ev 0

/-- Byte address in its die's LPDDR6 of an RDMA address of ring memory, a staging window or telemetry (R51, R359). -/
def lpByte (a : Nat) : Nat :=
  if a < 0x800000000 then a - 0x100000000
  else if a < 0xC00000000 then 16 * 2 ^ 30 + (a - 0x800000000)
  else (if a < 0xD00000000 then 22 * 2 ^ 30 else 0) + (a - 0xC00000000) % 2 ^ 32

/-- Die whose LPDDR6 holds that address. -/
def lpDie (a : Nat) : Nat := (a - 0xC00000000) / 2 ^ 32

/-- A read of `len` bytes of LPDDR6 at RDMA address `a` with outcome `x` (R362, R363). -/
def State.lpRead (s : State) (a len : Nat) (x : ReadFind) : State :=
  let at_ := fun (o : Nat) => lpByte a + o % max 1 len
  match x with
  | .ok => s
  | .corrected o n => s.lpError (lpDie a) (at_ o) (if n = 0 then .link else .secded)
  | .bad o => s.lpError (lpDie a) (at_ o) .bad

/-- An uncorrectable read. -/
def readLost : ReadFind → Bool
  | .bad _ => true
  | _ => false

/-- Logical ports of the copies that a wait stands for; 2048 for one whose port is not selected yet. -/
def Wait.copyPorts (w : Wait) : List Nat := if w.targets = [] then [2048] else w.targets.map fun t => t.key / 66 / 8

/-- The stored frame `id` and all its copies, queued, waiting or crossing the mesh, are discarded on page `page` under `code`; each RESULT
copy writes UNDELIVERED (R284, R444). -/
def State.discardAll (s : State) (id : Nat) (f : Frame) (page code : Nat) : State :=
  let s := s.dropAt page code f.cls f.src
  let ring := s.groupRing (Hjt.decode f.bytes).group
  let hit := s.sw.queues.flatMap fun e => (e.2.filter fun x => x.id == id).map fun _ => e.1 / 66 / 8
  let s := s.iff f.result fun s => s.each hit fun l s => s.undelivered (l / 512) l f.bytes ring
  let queues := (s.sw.queues.map fun e => (e.1, e.2.filter fun x => x.id != id)).filter fun e => decide (e.2 ≠ [])
  let gone := s.sw.waits.filter fun w => w.id == id
  let s := { s with sw := { s.sw with queues := queues, waits := s.sw.waits.filter fun w => w.id != id } }
  let s := s.each gone fun w s =>
    let s := s.iff f.result fun s => s.each w.copyPorts fun l s => s.undelivered (if l < 2048 then l / 512 else f.die) l f.bytes ring
    match w.kind with
    | .mesh j => s.release j
    | _ => s
  (s.setFrame id { f with refs := 1 }).release id

/-- A residue mismatch in pipeline `p` on a frame: its error record, whose first tread, operands and residues the spec gives no values for
and are free, and the error of its page (R435, R437, R439). -/
def State.pipeResidue (s : State) (p : Nat) : State :=
  let x := s.freeWide 2
  let r := (s.tickFree 2).memRecord { ErrRec.of (p / 8) 0x010C with block := 3, core := p, residues := x % 2 ^ 14, addr := x / 2 ^ 64 } (some 0)
  r.2.hwError r.1 (swpPage p) 0 0 0 0 0xFFFF 0

/-- A tread of frame `id` reads with an uncorrectable error on the path to logical port `l`: the frame and all its copies are
discarded under TREAD_ECC, and each RESULT copy writes UNDELIVERED. A scrub names the address in `found`. -/
def State.treadEcc (s : State) (id : Nat) (found : Option Nat := none) : State :=
  match s.frame? id with
  | none => s
  | some f =>
    let d := f.die
    -- the spec gives treads no addresses, so the address is free
    let a := found.getD (s.free % 2 ^ 35)
    let s := s.tickFree
    let s := if f.pool = .deepHead ∨ f.pool = .overflow ∨ f.pool = .ring then s.dramUncorrected d 0 (a / 64 * 64)
      else
        let r := s.memRecord { ErrRec.of d 0x0101 with memory := 1, uncorrectable := true, rail := 2, addr := a } none
        r.2.hwError r.1 (bufPage d) 7 0x0031 3 (1 + d * 256) 0xFFFF 0
    s.discardAll id f (bufPage d) 0x15

end Sys2Proof.Machine
end

