-- ==== Sys2Proof/Machine/Egress.lean ====
section
/-! DEFINITION. Egress selection and admission: spray sets (R181 to R186), gallery routing (R187 to R189), the banister and escape
(R190 to R195), job slots (R196), admission and mesh crossing (R167, R172 to R176), route drains (R199, R200). -/

namespace Sys2Proof.Machine

/-! ### Members of sets (R182, R183) -/

/-- A member of a spray set: logical port and effective weight. -/
structure Member where
  l : Nat
  e : Nat
  deriving DecidableEq, Repr

/-- Health factor of a physical port. -/
def State.health (s : State) (p : Nat) : Nat := s.rd GAL_HEALTH.health (galPage (p / 128)) (p % 128)

/-- Effective weight of a member: (b x h) >> 3, 0 out of service. -/
def State.effWeight (s : State) (l b : Nat) : Nat := if s.inService l then b * s.health (l / 4) / 8 else 0

/-- Base weight of a leaf-set member by its rate. -/
def leafWeight (rate : Nat) : Nat := if rate = 800 then 64 else if rate = 400 then 32 else 16

/-- Logical ports of the DOWN ports that the plan gives leaf `leaf`, ascending. -/
def State.leafPorts (s : State) (leaf : Nat) : List Nat :=
  (List.range 512).flatMap fun p =>
    let r := s.portRec p
    if r.role = roleDown ∧ r.leaf = leaf ∧ s.boot.plan.isSome then (List.range (subCount r.breakout)).map fun i => 4 * p + i
    else []

/-- The leaf set of `leaf`. -/
def State.leafSet (s : State) (leaf : Nat) : List Member :=
  (s.leafPorts leaf).map fun l => ⟨l, s.effWeight l (leafWeight (s.lportRate l))⟩

/-- The fallback of R183: with every weight 0, each in-service member weighs 1. The second component says it applied. -/
def State.fallback (s : State) (ms : List Member) : List Member × Bool :=
  if ms.any (fun m => m.e != 0) then (ms, false)
  else (ms.map fun m => if s.inService m.l then { m with e := 1 } else m, ms.any fun m => s.inService m.l)

/-- Valid slots of up-route set `g` in the active bank. -/
def State.upActive (s : State) (g : Nat) : List (Nat × Nat × Nat) := s.upMembers (s.routeBank 2) g

/-- Physical port `p` is a banister port; with ring_treads 0 on its die there is none (R192, R202). -/
def State.isBanister (s : State) (p : Nat) : Bool :=
  Sparse.get 0 s.sw.ringTreads (p / 128) != 0 && (s.upActive 7).any fun m => m.2.1 == p

/-- Group set `g` in slot order; banister ports weigh 0 (R182). -/
def State.groupSet (s : State) (g : Nat) : List Member :=
  (s.upActive g).map fun m => ⟨4 * m.2.1, if s.isBanister m.2.1 then 0 else s.effWeight (4 * m.2.1) m.2.2⟩

/-! ### Directions (R190, R191) -/

/-- Cube order and hall of the active plan. -/
def State.cubeOrder (s : State) : Nat := match s.boot.plan with
  | none => 0
  | some pl => pl.n
def State.planHall (s : State) : Nat := match s.boot.plan with
  | none => 0
  | some pl => pl.hall

/-- A port with link group `g` transmits the ascending ring (`true`) or the descending one; a port toward neither neighbour
serves none. -/
def State.txAscending (s : State) (g : Nat) : Option Bool :=
  let n := s.cubeOrder
  if n = 0 then none
  else if g = succGroup n s.planHall then some true
  else if g = predGroup n s.planHall then some false
  else none

/-- The ring direction in which a frame from banister port `p` travels: the link received on is the other ring of a duplex
link; the one ring of n = 1 is ascending. -/
def State.arrivalAscends (s : State) (p : Nat) : Bool :=
  if s.cubeOrder = 1 then true
  else match s.txAscending (s.portRec p).group with
    | some a => !a
    | none => true

/-- Direction toward hall `h` by the entry's escape group, and whether the group leads to neither neighbour. -/
def State.escapeDir (s : State) (h : Nat) : Bool × Bool :=
  match s.txAscending (bits (s.grEntry (s.routeBank 3) h) 32 3) with
  | some a => (a, false)
  | none => (true, true)

/-- Banister members of a direction. -/
def State.banisterSet (s : State) (asc : Bool) : List Member :=
  ((s.upActive 7).filter fun m => s.isBanister m.2.1 && s.txAscending (s.portRec m.2.1).group == some asc).map fun m =>
    ⟨4 * m.2.1, s.effWeight (4 * m.2.1) m.2.2⟩

/-! ### Choice within a set (R184, R185) -/

/-- Key of a recent assignment: kind 0 leaf sets, 1 group sets, 2 ring queues. -/
def sprayKey (d kind l : Nat) : Nat := d * 8192 + kind * 2048 + l

/-- A_i of R184; a decay_ns of 0 clears it and holds it at 0. -/
def State.recent (s : State) (d kind l : Nat) : Nat := Sparse.get 0 s.sw.spray (sprayKey d kind l)

/-- Treads assigned at S5; held at 0 while decay_ns is 0. -/
def State.assign (s : State) (d kind l n : Nat) : State :=
  if s.rd GAL_SPRAY_CFG.decay_ns (galPage d) = 0 then s
  else { s with sw := { s.sw with spray := Sparse.set s.sw.spray (sprayKey d kind l) (s.recent d kind l + n) } }

/-- SPRAY_DECAY: every A_i of die `d` is halved (R184). -/
def sprayDecay (d : Nat) (s : State) : State :=
  { s with sw := { s.sw with spray := s.sw.spray.map fun e => (e.1, if e.1 / 8192 = d then e.2 / 2 else e.2) } }

/-- Index of the candidate of lowest cost, ties to the first at or after `ptr`: `costs` lists none for a member that is no
candidate. -/
def lowest (costs : List (Option Nat)) (ptr : Nat) : Option Nat :=
  let k := costs.length
  let order := (List.range k).map fun i => (ptr + i) % k
  let best := costs.foldl (fun (a : Option Nat) c => match a, c with
    | none, c => c
    | a, none => a
    | some x, some y => some (min x y)) none
  match best with
  | none => none
  | some b => order.find? fun i => costs.getD i none == some b

/-- Per-packet choice (R184): pointer key `ptr` of die `d`, frame of `n` treads, members in slot order, occupancies. -/
def State.pickPacket (s : State) (d ptr kind n : Nat) (ms : List Member) (occ : Nat → Nat) : Option (Nat × State) :=
  let costs := ms.map fun m => if m.e = 0 then none else some ((occ m.l + s.recent d kind m.l + n) * 65536 / m.e)
  let pk := d * 4096 + ptr
  match lowest costs (Sparse.get 0 s.sw.sprayPtr pk) with
  | none => none
  | some i =>
    let l := (ms.getD i ⟨0, 0⟩).l
    let s := s.assign d kind l n
    some (l, { s with sw := { s.sw with sprayPtr := Sparse.set s.sw.sprayPtr pk ((i + 1) % ms.length) } })

/-- Buckets of each member (R185). -/
def bucketShares (es : List Nat) : List Nat :=
  let total := es.foldl (· + ·) 0
  let fl := es.map fun e => 256 * e / total
  let rem := es.map fun e => 256 * e % total
  let extra := 256 - fl.foldl (· + ·) 0
  (List.range es.length).map fun i =>
    let r := rem.getD i 0
    let ahead := ((List.range es.length).filter fun j =>
      decide (r < rem.getD j 0) || (rem.getD j 0 == r && decide (j < i))).length
    fl.getD i 0 + if ahead < extra then 1 else 0

/-- The member whose contiguous range holds bucket `b`. -/
def bucketIndex : List Nat → Nat → Nat
  | [], _ => 0
  | n :: l, b => if b < n then 0 else 1 + bucketIndex l (b - n)

/-- Flow-hashed choice within one set (R185). -/
def pickFlow (hash : Nat) (ms : List Member) : Option Nat :=
  if ms.any (fun m => m.e != 0) then
    some ((ms.getD (bucketIndex (bucketShares (ms.map fun m => m.e)) (hash % 256)) ⟨0, 0⟩).l)
  else none

/-- The flow hash of a frame (R185); `fea` replaces the destination's low bits where S7 will. -/
def flowHash (u : List Byte) (fea : Option Nat) : Nat :=
  let dst := match fea with
    | none => slice u 38 16
    | some f => slice u 38 12 ++ natBe 4 f
  crc32c (slice u 22 16 ++ dst ++ slice u 20 1 ++ if ipNext u = 17 then slice u 54 4 else zeros 4)

/-- The class is sprayed per packet on die `d`. -/
def State.perPacket (s : State) (d c : Nat) : Bool := bit (s.rd GAL_SPRAY_CFG.per_packet (galPage d)) c

/-! ### Selection (R181) -/

/-- What S5 finds for one copy. -/
inductive Sel where
  | queue (t : Target)
  | drop (page code : Nat)
  /-- `noEscape`: neither ring direction has a banister port in service (R195). -/
  | wait (k : WaitKind) (noEscape : Bool)
  deriving DecidableEq, Repr

/-- Where one copy goes: a leaf, a hall, or a given port of a flood (R147). -/
inductive Dest where
  | leaf (n : Nat)
  | hall (h : Nat)
  | port (l : Nat)
  deriving DecidableEq, Repr

/-- NO_ROUTE of R161. -/
def dNoRoute : Nat := 0x2B

/-- GAL events, in the order of R202 (R455). -/
def evSetFallback : Nat := 0x80
def evEscape : Nat := 0x81
def evEscapeBad : Nat := 0x82
def evRingRedirect : Nat := 0x83
def evNoEscape : Nat := 0x84
def evRingContinue : Nat := 0x85
def evRingEject : Nat := 0x86

/-- The job slot of a frame on a GALLERY port (R196), by the map of the port's die. -/
def State.jobSlot (s : State) (d : Nat) (f : Frame) : Nat :=
  if f.hjt = false ∨ f.job = 0 then 63
  else ((List.range 64).find? fun k => s.rd GAL_JOB_MAP.job (galPage d) k == f.job).getD 63

/-- The queue of a frame on logical port `l`: on a GALLERY port a hold class has job slots, or the ring queue on a banister port (R203). -/
def State.queueKeyFor (s : State) (l : Nat) (f : Frame) : Nat :=
  if isHold f.cls ∧ s.role (l / 4) = roleGallery then
    if s.isBanister (l / 4) then qKey l f.cls 65 else qKey l f.cls (s.jobSlot (l / 512) f)
  else qKey l f.cls 64

/-- A copy of the RESULT frame `f` may leave on logical port `l` (R267): its port is in the group's replication set as the
die of the head holds it. Any other frame may leave anywhere. -/
def State.replAllows (s : State) (f : Frame) (l : Nat) : Bool :=
  let set := bits ((s.group (Hjt.decode f.bytes).group).q.getD 2 0) 18 14
  !f.result || bit (Sparse.get 0 s.coll.repl (f.die * 16384 + set)) (l / 4)

/-- Selection in the leaf set of `leaf` at die `d`. -/
def State.selLeaf (s : State) (d leaf : Nat) (f : Frame) (mc : Bool) (hdr : Option CopyHdr) : Sel × State :=
  let (allowed, fell) := s.fallback ((s.leafSet leaf).filter fun m => s.replAllows f m.l)
  let ms := (s.leafSet leaf).map fun m => (allowed.find? fun x => x.l == m.l).getD { m with e := 0 }
  let s := s.iff fell fun s => s.count (galPage d) evSetFallback
  let hash := flowHash f.bytes (hdr.map fun h => h.fea)
  let pick := if s.perPacket d f.cls then s.pickPacket d leaf 0 f.treads ms (fun l => s.depth l f.cls)
    else (pickFlow hash ms).map fun l => (l, s.assign d 0 l f.treads)
  match pick with
  | none => (.drop (fwdPage d) dNoRoute, s)
  | some (l, s) => (.queue ⟨qKey l f.cls 64, mc, 0, hdr⟩, s)

/-- Pause received from the partner stands for (l, c) (R169). -/
def State.isPaused (s : State) (l c : Nat) : Bool := Sparse.get false s.sw.paused (8 * l + c)

/-- A member is open to a hold-class frame (R188). -/
def State.isOpen (s : State) (d l c : Nat) : Bool :=
  !s.isPaused l c && decide (s.depth l c < s.rd GAL_ADAPT_CFG.open_treads (galPage d))

/-- Room in a ring queue (R192). -/
def State.ringFree (s : State) (l c : Nat) : Nat := Sparse.get 0 s.sw.ringTreads (l / 512) - s.ringDepth l c

/-- A ring queue of direction `asc` with `need` treads free, chosen under R184 (R192, R183). -/
def State.pickRing (s : State) (d : Nat) (asc : Bool) (f : Frame) (need : Nat) : Option (Nat × State) :=
  let (ms, fell) := s.fallback (s.banisterSet asc)
  let s := s.iff fell fun s => s.count (galPage d) evSetFallback
  let ms := ms.map fun m => if s.ringFree m.l f.cls < need then { m with e := 0 } else m
  s.pickPacket d (2048 + b2n asc) 2 f.treads ms (fun l => s.ringDepth l f.cls)

/-- Some banister port of a direction is in service. -/
def State.ringServed (s : State) (asc : Bool) : Bool := (s.banisterSet asc).any fun m => s.inService m.l

/-- Treads free for entry, and for continuing (R192). -/
def ringEnterRoom : Nat := 72
def ringContinueRoom : Nat := 36

/-- Up-route set `g` differs between the banks. -/
def State.setDiffers (s : State) (g : Nat) : Bool :=
  (List.range 128).any fun k => s.upSlot 0 g k != s.upSlot 1 g k

/-- A running drain of table `t` (R199, steps 2 to 6). -/
def State.draining (s : State) (t : Nat) : Bool := s.sw.drains.any fun d => d.started && d.table == t

/-- Selection toward hall `h` would use an affected set or entry (R199, step 2). -/
def State.routeHeld (s : State) (h : Nat) : Bool :=
  (s.draining 3 && s.grEntry 0 h != s.grEntry 1 h) ||
  (s.draining 2 && (List.range 7).any fun g => bit (s.grEntry (s.routeBank 3) h) (48 + g) && s.setDiffers g)

/-- Entry to the banister toward hall `h` (R193, R195): the ring queue, or the wait. -/
def State.enterRing (s : State) (d h : Nat) (f : Frame) (mc : Bool) (hdr : Option CopyHdr) : Sel × State :=
  let (want, bad) := s.escapeDir h
  let g := galPage d
  if s.draining 2 && s.setDiffers 7 then (.wait .held false, s)
  else if s.ringServed want = false ∧ s.ringServed (!want) = false then (.wait .eligible true, s)
  else
    let asc := if s.ringServed want then want else !want
    match s.pickRing d asc f ringEnterRoom with
    | none => (.wait .eligible false, s)
    | some (l, s) =>
      let s := s.iff bad fun s => s.count g evEscapeBad
      let s := s.iff (asc != want) fun s => s.count g evRingRedirect
      let s := (s.count (galPage (l / 512)) evEscape).inc GAL_BANISTER_STATUS.escapes (galPage (l / 512))
      (.queue ⟨qKey l f.cls 65, mc, h, hdr⟩, s)

/-- Selection toward hall `h` over the mask's group sets (R184, R185, R188, R189, R193). -/
def State.selHall (s : State) (d h : Nat) (f : Frame) (mc : Bool) (hdr : Option CopyHdr) : Sel × State :=
  let v := s.grEntry (s.routeBank 3) h
  if s.routeHeld h then (.wait .held false, s)
  else if bit v 63 = false then (.drop (fwdPage d) dNoRoute, s)
  else
    let hold := isHold f.cls
    let sets := ((List.range 7).filter fun g => bit v (48 + g)).map fun g => s.groupSet g
    let s := s.iff (!sets.any fun ms => ms.any fun m => m.e != 0) fun s => s.irq (galPage d) 5
    let sets := sets.map fun ms => ms.map fun m => if hold && !s.isOpen d m.l f.cls then { m with e := 0 } else m
    let live := sets.filter fun ms => ms.any fun m => m.e != 0
    let hash := flowHash f.bytes (hdr.map fun h => h.fea)
    let pick := if s.perPacket d f.cls then
        s.pickPacket d (1024 + h) 1 f.treads (sets.flatMap fun ms => ms) (fun l => s.depth l f.cls)
      else if live = [] then none
      else (pickFlow hash (live.getD (bits hash 8 3 % live.length) [])).map fun l => (l, s.assign d 1 l f.treads)
    match pick with
    | some (l, s) => (.queue ⟨s.queueKeyFor l f, mc, h, hdr⟩, s)
    | none => if hold then s.enterRing d h f mc hdr else (.drop (fwdPage d) dNoRoute, s)

/-- A hold-class frame on the banister continues in its direction of arrival (R181, R192); a drain of a set 7 that differs holds it (R199). -/
def State.selContinue (s : State) (d p h : Nat) (f : Frame) : Sel × State :=
  if s.draining 2 && s.setDiffers 7 then (.wait .ring false, s)
  else match s.pickRing d (s.arrivalAscends p) f ringContinueRoom with
  | none => (.wait .ring false, s)
  | some (l, s) => (.queue ⟨qKey l f.cls 65, false, h, none⟩, s.count (galPage (l / 512)) evRingContinue)

/-- S5 for one copy of a frame (R181). A drop-class frame takes no ring queue (R189), whatever port it came by; one that was `onRing` stays on
the banister whatever has become of its port (R194). -/
def State.select (s : State) (f : Frame) (dest : Dest) (mc : Bool) (hdr : Option CopyHdr) (onRing : Bool := false) : Sel × State :=
  let ring := onRing || (decide (f.src < 2048) && s.isBanister (f.src / 4) && isHold f.cls)
  match dest with
  | .leaf n => (s.iff ring fun s => s.count (galPage f.die) evRingEject).selLeaf f.die n f mc hdr
  | .port l => if s.replAllows f l then (.queue ⟨qKey l f.cls 64, mc, 0, hdr⟩, s) else (.drop (fwdPage f.die) dNoRoute, s)
  | .hall h => if ring then s.selContinue f.die (f.src / 4) h f else s.selHall f.die h f mc hdr

/-! ### Admission (R167, R172, R173, R175, R176) -/

/-- A frame takes its place in queue `t.key`, which holds a reference to it. -/
def State.enqueue (s : State) (id : Nat) (t : Target) : State :=
  match s.frame? id with
  | none => s
  | some f => (s.setFrame id { f with refs := f.refs + 1 }).setQueue t.key
      (s.queue t.key ++ [⟨id, s.now, t.mc, false, false, t.hall, t.hdr⟩])

/-- A frame waits; the wait holds a reference to it. -/
def State.waitFor (s : State) (w : Wait) : State :=
  match s.frame? w.id with
  | none => s
  | some f =>
    let s := s.setFrame w.id { f with refs := f.refs + 1 }
    { s with sw := { s.sw with waits := s.sw.waits ++ [w] } }

/-- The discard of a copy at admission: its port is out of service, or the test of R167 failed. -/
def dropCode (down mc : Bool) : Nat := if down then (if mc then 0x1A else 0x1B) else (if mc then 0x18 else 0x16)

/-- SRAM treads held by class `c` queues of logical port `l`, those reserved there for frames that cross the mesh included (R172, R173). -/
def State.sramDepth (s : State) (l c : Nat) : Nat :=
  let sram := fun (id : Nat) => match s.frame? id with
    | some f => decide (f.pool ≠ .overflow ∧ f.pool ≠ .deepHead ∧ f.pool ≠ .ring)
    | none => false
  (s.queuesOf l c).foldl (fun a e => a + s.entryTreads (e.2.filter fun x => sram x.id)) 0
    + s.sw.waits.foldl (fun a w => match w.kind with
      | .mesh j => match s.frame? j with
        | some f => if sram j then a + (w.targets.filter fun t => t.key / 66 == 8 * l + c).length * f.treads else a
        | none => a
      | _ => a) 0

/-- R172: a frame bound for a GALLERY hold queue must move to overflow deep treads. -/
def State.mustSpill (s : State) (l : Nat) (f : Frame) : Bool :=
  isHold f.cls && s.role (l / 4) == roleGallery && decide (f.pool ≠ .overflow ∧ f.pool ≠ .ring) &&
    (decide (f.pool = .headroom ∨ f.pool = .deepHead) ||
      decide (s.rd BUF_DEEP_CFG.spill_treads (bufPage (l / 512)) < s.sramDepth l f.cls))

/-- An earlier frame of the same flow waits for admission to the queue (R163). -/
def State.behind (s : State) (f : Frame) (k : Nat) : Bool :=
  s.sw.waits.any fun w => decide (w.kind = .intake) && (w.targets.any fun t => t.key / 66 == k / 66) &&
    match s.frame? w.id with
    | some g => g.src == f.src && g.cls == f.cls
    | none => false

/-- Admission to a queue of the frame's own die: `tested` when the drop-class test was made before the mesh, `again` when the
frame is one that waited for this admission. The device's own HELLO and time frames reach a ring queue before their port is accepted. -/
def State.admitLocal (s : State) (id : Nat) (tested again : Bool) (t : Target) : State :=
  match s.frame? id with
  | none => s
  | some f =>
    let l := t.key / 66 / 8
    let d := l / 512
    let wait := fun (s : State) => s.waitFor ⟨id, .intake, d, [t], t.hall, t.hdr, t.mc, false⟩
    let reach := s.inService l || (s.isUp l && f.own && !f.result && t.key % 66 == 65)
    if reach = false then s.dropNew f (bufPage d) (dropCode true t.mc) l
    else if t.key % 66 = 65 then
      if f.own && decide (f.pool ≠ .ring) && decide (s.ringFree l f.cls < ringEnterRoom) then wait s
      else
      let (j, s) := if f.pool = .ring then (id, s)
        else s.newFrame { f with die := d, pool := .ring, counted := false, refs := 0 }
      s.enqueue j t
    else if isHold f.cls then
      if !again && s.behind f t.key then wait s
      else if s.mustSpill l f then
        if f.treads ≤ s.poolFree d .overflow then
          let s := (s.giveTreads f).poolTake d .overflow f.treads
          (s.setFrame id { f with pool := .overflow }).enqueue id t
        else wait s
      else s.enqueue id t
    else if tested || s.underAlpha d f.cls (s.depth l f.cls + f.treads) (s.dropFree d f.pool) then s.enqueue id t
    else s.dropNew f (bufPage d) (dropCode false t.mc) l

/-- The pool whose treads a crossing frame reserves on the egress die (R173); frames in headroom or deep treads reserve
FORWARD treads. -/
def meshPool (f : Frame) : Pool :=
  match f.pool with
  | .headroom | .deepHead | .overflow | .ring => .forward
  | p => p

/-- Admission to queues of die `d`, not the frame's own (R173): copies that fail are discarded; treads are reserved and the
frame waits for mesh credit, or a hold-class frame waits for the treads. One that R172 moves to overflow reserves overflow treads there,
and leaves headroom treads for overflow treads of its own die. -/
def State.admitCross (s : State) (id d : Nat) (again : Bool) (ts : List Target) : State :=
  match s.frame? id with
  | none => s
  | some f =>
    let p := meshPool f
    let hold := isHold f.cls
    let fits := fun (s : State) (t : Target) => t.key % 66 == 65 || hold ||
      (s.underAlpha d f.cls (s.depth (t.key / 66 / 8) f.cls + f.treads) (s.dropFree d p) && decide (f.treads ≤ s.poolFree d p))
    let live := fun (s : State) (t : Target) => s.inService (t.key / 66 / 8)
    let u := s.each (ts.filter fun t => !(live s t && fits s t)) fun t s =>
      s.dropNew f (bufPage d) (dropCode (!live s t) t.mc) (t.key / 66 / 8)
    let ts := ts.filter fun t => live s t && fits s t
    if ts = [] then u
    else
      let ring := ts.all fun t => t.key % 66 == 65
      let spill := !ring && ts.any fun t => u.mustSpill (t.key / 66 / 8) f
      let move := spill && decide (f.pool = .headroom ∨ f.pool = .deepHead)
      let r := if ring then .ring else if spill = true ∨ f.pool = .overflow then .overflow else p
      let blocked := hold && !ring && (decide (u.poolFree d r < f.treads) || (move && decide (u.poolFree f.die .overflow < f.treads))
        || (!again && ts.any fun t => u.behind f t.key))
      if blocked then u.waitFor ⟨id, .intake, d, ts, 0, none, false, false⟩
      else
        let u := u.iff move fun u => ((u.giveTreads f).poolTake f.die .overflow f.treads).setFrame id { f with pool := .overflow }
        let (j, u) := u.newFrame { f with die := d, pool := r, counted := false, refs := 1 }
        u.waitFor ⟨id, .mesh j, d, ts, 0, none, false, false⟩

/-- One copy to be selected. -/
structure Copy where
  dest : Dest
  mc : Bool
  hdr : Option CopyHdr
  /-- The frame is on the banister, and waits to continue there (R194). -/
  ring : Bool
  deriving DecidableEq, Repr

/-- Logical port `l` is one that the frame of wait `w` may yet take: a member of a set of its hall's mask, or a banister port (R188, R193). -/
def State.mayTake (s : State) (w : Wait) (l : Nat) : Bool :=
  let v := s.grEntry (s.routeBank 3) w.hall
  ((List.range 7).any fun g => bit v (48 + g) && (s.groupSet g).any fun m => m.l == l && m.e != 0) || s.isBanister (l / 4)

/-- The wait that a hold-class frame for hall `h` stands behind, of those in `ws`: an earlier one of its source and class that has no port
yet, and is bound for `h`, or on the banister as it is, or may take the logical port `dst` that the frame would take (R163). -/
def State.waitAhead (s : State) (ws : List Wait) (id : Nat) (f : Frame) (h : Nat) (dst : Option Nat) : Option WaitKind :=
  (ws.find? fun w => w.id != id && decide (w.kind = .eligible ∨ w.kind = .ring ∨ w.kind = .held) && isHold f.cls
    && decide (f.src < 2048)
    && (w.hall == h || decide (w.kind = .ring) || match dst with
      | some l => s.mayTake w l
      | none => false)
    && match s.frame? w.id with
      | some g => g.src == f.src && g.cls == f.cls
      | none => false).map fun w => w.kind

/-- NO_ESCAPE of die `d` (R195). -/
def State.noEscape (s : State) (d : Nat) : State := (s.count (galPage d) evNoEscape).irq (galPage d) 7

/-- S5 for the copy `c` of frame `id`, behind the waits `ws`: where one of them stands ahead of it, it waits as that one does, or as it did
on the banister. -/
def State.choose (s : State) (id : Nat) (ws : List Wait) (f : Frame) (c : Copy) : Sel × State :=
  let ahead := fun (dst : Option Nat) => match c.dest with
    | .hall h => s.waitAhead ws id f h dst
    | _ => none
  let behind := fun (k : WaitKind) => (Sel.wait (if c.ring then .ring else k) false, s)
  match ahead none with
  | some k => behind k
  | none =>
    let y := s.select f c.dest c.mc c.hdr c.ring
    match y.1 with
    | .queue t => match ahead (some (t.key / 66 / 8)) with
      | some k => behind k
      | none => y
    | _ => y

/-- S5 over the copies of frame `id`, behind the waits `ws`: discards and waits take effect, and the queues to enter are gathered.
`counted`: NO_ESCAPE has been counted for the frame. -/
def State.selectAll (s : State) (id : Nat) (counted : Bool) (ws : List Wait) (cs : List Copy) : List Target × State :=
  cs.foldl (fun a c => match a.2.frame? id with
    | none => a
    | some f =>
      let h := match c.dest with
        | .hall h => h
        | _ => 0
      match a.2.choose id ws f c with
      | (.queue t, s) => (a.1 ++ [t], s)
      | (.drop page code, s) => (a.1, s.dropNew f page code 2048)
      | (.wait k no, s) =>
        (a.1, (s.iff (no && !counted) fun s => s.noEscape f.die).waitFor ⟨id, k, f.die, [], h, c.hdr, c.mc, no⟩)) ([], s)

/-- S5 and S6 for the copies of frame `id` behind the waits `ws`; the caller's reference is released at the end. -/
def State.placeBehind (s : State) (id : Nat) (counted : Bool) (ws : List Wait) (cs : List Copy) : State :=
  match s.frame? id with
  | none => s
  | some f =>
    let (ts, s) := s.selectAll id counted ws cs
    let here := ts.filter fun t => t.key / 66 / 8 / 512 == f.die
    let s := s.each here fun t s => s.admitLocal id false false t
    let s := s.each (List.range 4) fun d s =>
      let there := ts.filter fun t => t.key / 66 / 8 / 512 == d
      s.iff (d != f.die && decide (there ≠ [])) fun s => s.admitCross id d false there
    s.release id

/-- S5 and S6 for the copies of frame `id`, behind all that wait. -/
def State.place (s : State) (id : Nat) (cs : List Copy) : State := s.placeBehind id false s.sw.waits cs

/-! ### Waiting frames move on -/

/-- The selections of the frame of wait `w` that wait as it does are made again, together (R173, R193, R199); where they would all wait
again nothing changes but NO_ESCAPE, counted where it is new (R195). -/
def State.reselect (s : State) (w : Wait) : State :=
  let mine := fun (x : Wait) => x.id == w.id && decide (x.kind = w.kind)
  match s.sw.waits.filter mine with
  | [] => s
  | x :: xs =>
    let ws := x :: xs
    let old := ws.any fun y => y.noEscape
    let ahead := s.sw.waits.takeWhile fun y => !mine y
    let t := (ws.foldl State.dropWait s).placeBehind w.id old ahead (ws.map fun y => ⟨.hall y.hall, y.mc, y.hdr, decide (y.kind = .ring)⟩)
    let t := t.each xs fun _ t => t.release w.id
    let again := t.sw.waits.filter mine
    if again.length = ws.length then
      let no := again.any fun y => y.noEscape
      let s := s.iff (no && !old) fun s => s.noEscape w.die
      { s with sw := { s.sw with waits := s.sw.waits.map fun y => if mine y then { y with noEscape := no } else y } }
    else t

/-! ### Mesh credits (R36, R46, R160) -/

/-- Credit pool of a crossing frame: requests 0, replies 1, results 2, forwarded 3. -/
def meshIndex : Pool → Nat
  | .request => 0
  | .reply => 1
  | .result => 2
  | _ => 3

/-- Credits of a pool per link and direction: the spec gives no number, so it is free, at least one beside the 32 request credits kept for
table changes (notes/assumptions/53.md). -/
def meshTotal (i : Nat) : Nat := (Config.meshCredits i).toNat + if i = 0 then 33 else 1

def meshKey (src dst i : Nat) : Nat := (4 * src + dst) * 4 + i

/-- The link between two dies is trained: both have power and are out of reset. -/
def State.meshUp (s : State) (src dst : Nat) : Bool :=
  s.power.pwrOk && s.rd CTL_DIE_STATE.state (ctlDiePage src) != 2 && s.rd CTL_DIE_STATE.state (ctlDiePage dst) != 2

/-- Free credits of pool `i` from die `src` toward die `dst`. -/
def State.meshFree (s : State) (src dst i : Nat) : Nat :=
  if s.meshUp src dst then
    meshTotal i - (s.sw.meshBusy.filter fun e => e.1 == meshKey src dst i && decide (s.now < e.2)).length
  else 0

/-- A credit is free for a frame: requests leave 32 for table changes (R160). -/
def State.meshReady (s : State) (src dst : Nat) (p : Pool) : Bool :=
  decide ((if p = .request then 32 else 0) < s.meshFree src dst (meshIndex p))

/-- A crossing takes a credit, which comes back when the 40 ns of R36 have passed. -/
def State.meshTake (s : State) (src dst i : Nat) : State :=
  { s with sw := { s.sw with meshBusy := (s.sw.meshBusy.filter fun e => decide (s.now < e.2)) ++ [(meshKey src dst i, s.now + 40)] } }

/-- Wait `w` is of a frame of die `src` that awaits credit of pool index `i` toward die `dst`. -/
def State.meshWaits (s : State) (src dst i : Nat) (w : Wait) : Bool :=
  match w.kind, s.frame? w.id with
  | .mesh _, some f => w.die == dst && f.die == src && meshIndex (meshPool f) == i
  | _, _ => false

/-- MESH_CROSSING: the oldest frame of die `src` that waits for mesh credit of pool `p` toward die `dst` takes a free credit and crosses;
its source treads are released (R36, R173). Nothing crosses while forwarding is stopped (R40). -/
def meshCrossing (src dst : Nat) (p : Pool) (s : State) : State :=
  if s.power.stopped || !s.meshReady src dst p then s
  else match s.sw.waits.find? (s.meshWaits src dst (meshIndex p)) with
  | none => s
  | some w =>
    match w.kind with
    | .mesh j =>
      let s := (s.dropWait w).meshTake src dst (meshIndex p)
      let s := s.each w.targets fun t s => s.admitLocal j true false t
      (s.release j).release w.id
    | _ => s

/-- A frame that waits for treads is admitted, if they are free now. -/
def State.tryAdmit (s : State) (w : Wait) : Option State :=
  match s.frame? w.id with
  | none => none
  | some f =>
    let t := s.dropWait w
    let t := if f.die = w.die then t.each w.targets fun x t => t.admitLocal w.id false true x
      else t.admitCross w.id w.die true w.targets
    if t.sw.waits.any fun x => x.id == w.id && decide (x.kind = .intake) && x.die == w.die then none else some (t.release w.id)

/-- The first of the waits `ws` that can be admitted, keeping each flow in order: `seen` lists the source, class and queue of
those that cannot, for every port they are bound for (R163). -/
def State.admitFirst (s : State) (seen : List (Nat × Nat × Nat)) : List Wait → State
  | [] => s
  | w :: ws =>
    let flows := match s.frame? w.id with
      | some f => w.targets.map fun t => (f.src, f.cls, t.key / 66)
      | none => []
    if flows.any seen.contains then State.admitFirst s (flows ++ seen) ws
    else match s.tryAdmit w with
      | some t => t
      | none => State.admitFirst s (flows ++ seen) ws

/-- HELD_FRAME_ADMIT: the oldest hold-class frame of die `src` that waits for treads of die `dst`, and that finds them free now,
is admitted (R172, R173). -/
def heldFrameAdmit (src dst : Nat) (s : State) : State :=
  s.admitFirst [] (s.sw.waits.filter fun w => decide (w.kind = .intake) && w.die == dst && match s.frame? w.id with
    | some f => f.die == src
    | none => false)

/-- A job-slot frame eligible for escape moves to a ring queue with room for entry (R193): it leaves its queue uncharged. -/
def State.escapeEntry (s : State) (k : Nat) (e : QEntry) : State :=
  match s.frame? e.id with
  | none => s
  | some f =>
    match s.enterRing f.die e.hall f e.mc e.hdr with
    | (.queue t, u) =>
      let u := u.setQueue k ((u.queue k).erase e)
      let u := if t.key / 66 / 8 / 512 = f.die then u.admitLocal e.id false false t
        else u.admitCross e.id (t.key / 66 / 8 / 512) false [t]
      u.release e.id
    | (.wait _ no, _) =>
      if no = e.noEscape then s
      else (s.iff no fun s => s.noEscape f.die).setQueue k ((s.queue k).map fun z => if z = e then { z with noEscape := no } else z)
    | _ => s

/-- ESCAPE_REEVALUATE: eligible frames of die `d`, at S5 and in job-slot queues, are evaluated again, oldest first (R193). -/
def escapeReevaluate (d : Nat) (s : State) : State :=
  let ws := s.sw.waits.filter fun w => decide (w.kind = .eligible) && match s.frame? w.id with
    | some f => f.die == d
    | none => false
  let s := s.each ws fun w s => s.reselect w
  let qs := s.sw.queues.filter fun e => e.1 / 66 / 8 / 512 == d && decide (e.1 % 66 < 64)
  s.each qs fun e s => s.each (e.2.filter fun x => x.eligible) fun x s => s.escapeEntry e.1 x

/-- ESCAPE_TIMER: escape_us passes since the enqueue of the oldest job-slot frame of class `c` on logical port `l` that is not
yet eligible; it becomes so, and moves at once where a ring queue has room (R193). -/
def escapeTimer (l c : Nat) (s : State) : State :=
  let cand := ((s.queuesOf l c).filter fun e => decide (e.1 % 66 < 64)).flatMap fun e =>
    (e.2.filter fun x => !x.eligible).map fun x => (e.1, x)
  let oldest := cand.foldl (fun (a : Option (Nat × QEntry)) x => match a with
    | none => some x
    | some y => if x.2.at_ < y.2.at_ then some x else a) none
  match oldest with
  | none => s
  | some (k, x) =>
    let y := { x with eligible := true }
    (s.setQueue k ((s.queue k).map fun z => if z = x then y else z)).escapeEntry k y

/-- BANISTER_CONTINUE: the oldest frame from logical port `l` of class `c` that waits to continue on the ring tries again
(R192). -/
def banisterContinue (l c : Nat) (s : State) : State :=
  match s.sw.waits.find? fun w => decide (w.kind = .ring) && match s.frame? w.id with
    | some f => f.src == l && f.cls == c
    | none => false with
  | none => s
  | some w => s.reselect w

/-- RING_WAIT_ALARM: an eligible frame of die `d`, at S5 or in a job-slot queue, has waited 100 us for a ring queue (R202). -/
def ringWaitAlarm (d : Nat) (s : State) : State :=
  let atS5 := s.sw.waits.any fun w => decide (w.kind = .eligible) && match s.frame? w.id with
    | some f => f.die == d
    | none => false
  let queued := s.sw.queues.any fun e => e.1 / 66 / 8 / 512 == d && decide (e.1 % 66 < 64) && e.2.any fun x => x.eligible
  s.iff (atS5 || queued) fun s => s.irq (galPage d) 6

/-- MC_RESIDENCY_EXPIRY: the oldest hold-class copy on (l, c) has not started within residency_us (R175). -/
def mcResidencyExpiry (l c : Nat) (s : State) : State :=
  let cand := (s.queuesOf l c).flatMap fun e => (e.2.filter fun x => x.mc).map fun x => (e.1, x)
  let oldest := cand.foldl (fun (a : Option (Nat × QEntry)) x => match a with
    | none => some x
    | some y => if x.2.at_ < y.2.at_ then some x else a) none
  if isHold c = false then s
  else match oldest with
    | none => s
    | some (k, x) => ((s.setQueue k ((s.queue k).erase x)).dropCopy k x 0x19).irq (bufPage (l / 512)) 6

/-! ### Route drains (R199, R200) -/

/-- Physical ports named in a slot of set `g` that differs between the banks, in either bank. -/
def State.diffPorts (s : State) (g : Nat) : List Nat :=
  ((List.range 128).filter fun k => s.upSlot 0 g k != s.upSlot 1 g k).flatMap fun k =>
    ([s.upSlot 0 g k, s.upSlot 1 g k].filter fun v => bit v 63).map fun v => bits v 0 9

/-- Halls whose gallery entries differ between the banks. -/
def State.diffHalls (s : State) : List Nat := (List.range 64).filter fun h => s.grEntry 0 h != s.grEntry 1 h

/-- Logical ports with affected gallery queues, and with affected ring queues. -/
def State.affected (s : State) (t : Nat) : List Nat × List Nat :=
  if t = 2 then
    (((List.range 8).flatMap fun g => (s.diffPorts g).map fun p => 4 * p).eraseDups, ((s.diffPorts 7).map fun p => 4 * p).eraseDups)
  else
    let hs := s.diffHalls.filter fun h => bit (s.grEntry (s.routeBank 3) h) 63
    ((hs.flatMap fun h => ((List.range 7).filter fun g => bit (s.grEntry (s.routeBank 3) h) (48 + g)).flatMap fun g =>
        (s.groupSet g).map fun m => m.l).eraseDups,
     (hs.flatMap fun h => (s.banisterSet (s.escapeDir h).1).map fun m => m.l).eraseDups)

/-- Queue key `k` is affected by drain `x`. -/
def Drain.hits (x : Drain) (k : Nat) : Bool :=
  if k % 66 = 65 then x.rings.contains (k / 66 / 8) else x.ports.contains (k / 66 / 8)

/-- Steps 1 and 2 of a drain: the checks passed, injection is held. -/
def State.drainStart (s : State) (t seq ring : Nat) : State :=
  let a := s.affected t
  let s := { s with sw := { s.sw with drains := s.sw.drains ++ [Drain.mk t seq ring true a.1 a.2 false s.now] } }
  s.each (List.range 4) fun d s =>
    (((s.wr GAL_DRAIN_STATUS.active (galPage d) 1).wr GAL_DRAIN_STATUS.table (galPage d) t).wr
      GAL_DRAIN_STATUS.discarded (galPage d) 0).wr GAL_DRAIN_STATUS.expired (galPage d) 0

/-- The checks of R155 on a drain of table `t` with sequence `seq`: the status that refuses it, or none. A refusal sets
route_refused on every die (R161), and a failed check is reported in FWD_ROUTE_REFUSAL. -/
def State.drainCheck (s : State) (t seq : Nat) : Option (Nat × State) :=
  if seq ≤ s.routeSeq t then some (stCommitSeq, s.each (List.range 4) fun d s => s.irq (fwdPage d) 6)
  else match s.routeCheck t with
    | none => none
    | some r => some (stInvalid, s.each (List.range 4) fun d s =>
        (((((s.wr FWD_ROUTE_REFUSAL.table (fwdPage d) t).wr FWD_ROUTE_REFUSAL.index (fwdPage d) r.index).wr
          FWD_ROUTE_REFUSAL.slot (fwdPage d) r.slot).wr FWD_ROUTE_REFUSAL.reason (fwdPage d) r.reason)).irq (fwdPage d) 6)

/-- Steps 5 and 6 of a drain: the banks swap and held frames are selected again, oldest first. -/
def State.drainSwap (s : State) (x : Drain) : State :=
  let s := { s with sw := { s.sw with drains := s.sw.drains.erase x } }
  let s := s.routeSwap x.table x.seq
  let s := s.each (List.range 4) fun d s =>
    ((s.wr GAL_DRAIN_STATUS.active (galPage d) (b2n (s.draining 2 || s.draining 3))).wr
      GAL_DRAIN_STATUS.expired (galPage d) (b2n x.expired)).wr GAL_DRAIN_STATUS.duration_us (galPage d)
        (min ((s.now - x.startedAt) / 1000) 0xFFFF)
  s.each (s.sw.waits.filter fun w => decide (w.kind = .held ∨ w.kind = .ring)) fun w s => s.reselect w

/-- A ROUTE_DRAIN of table `t` from ring `ring`: behind one in progress on the same table it waits; otherwise it is refused
with a status or starts (R155, R199, R200). -/
def State.drainRequest (s : State) (t seq ring : Nat) : Option Nat × State :=
  if s.sw.drains.any fun d => d.table == t then
    (none, { s with sw := { s.sw with drains := s.sw.drains ++ [Drain.mk t seq ring false [] [] false 0] } })
  else match s.drainCheck t seq with
    | some (st, s) => (some st, s)
    | none => (none, s.drainStart t seq ring)

/-- The running drain of table `t`. -/
def State.drainOf (s : State) (t : Nat) : Option Drain := s.sw.drains.find? fun d => d.started && d.table == t

/-- Copies admitted to affected queues of drain `x` that still cross the mesh, on die `d`. -/
def State.drainCrossing (s : State) (x : Drain) (d : Nat) : Nat :=
  (s.sw.waits.map fun w => match w.kind with
    | .mesh _ => (w.targets.filter fun t => x.hits t.key && t.key / 66 / 8 / 512 == d).length
    | _ => 0).foldl (· + ·) 0

/-- Every affected queue of drain `x` is empty, and no frame counted in one still crosses the mesh. -/
def State.drained (s : State) (x : Drain) : Bool :=
  (!s.sw.queues.any fun e => x.hits e.1) && (List.range 4).all fun d => s.drainCrossing x d == 0

/-- Step 4: frames still in affected queues are discarded under DRAIN_DISCARD, counted per die. -/
def State.drainDiscard (s : State) (x : Drain) : State :=
  let qs := s.sw.queues.filter fun e => x.hits e.1
  let s := { s with sw := { s.sw with queues := s.sw.queues.filter fun e => !x.hits e.1 } }
  let s := s.each qs fun e s =>
    (s.inc GAL_DRAIN_STATUS.discarded (galPage (e.1 / 66 / 8 / 512)) e.2.length).each e.2 fun y s => s.dropCopy e.1 y 0x1C
  let s := s.each (List.range 4) fun d s => s.inc GAL_DRAIN_STATUS.discarded (galPage d) (s.drainCrossing x d)
  (s.dropCrossing x.hits 0x1C).each (List.range 4) fun d s => s.irq (galPage d) 4

/-- The drain of a command has ended, and has left the list: a ROUTE_DRAIN completes with status `st` and C1, a PLAN_LOAD with OK once
no drain of it is left (R409). -/
def State.routeDone (s : State) (ring st c1 : Nat) : State :=
  if ring < 0x1000 then s.complete ring st c1 0
  else s.iff (decide (planRing ≤ ring) && !s.sw.drains.any fun d => d.ring == ring) fun s => s.complete (ring - planRing) stOk 0 0

/-- Drains of table `t` that waited start in order, until one is running or none waits; those refused complete with their
status. -/
def State.drainNext (s : State) (t : Nat) : Nat → State
  | 0 => s
  | fuel + 1 =>
    match s.sw.drains.find? fun d => d.table == t with
    | none => s
    | some x =>
      if x.started then s
      else
        let s := { s with sw := { s.sw with drains := s.sw.drains.erase x } }
        let own := decide (planRing ≤ x.ring)
        let s := match own, s.boot.plan with
          | true, some pl => s.deriveTable pl t
          | _, _ => s
        let seq := if own then s.routeSeq t + 1 else x.seq
        match s.drainCheck t seq with
        | some (st, s) => State.drainNext (s.routeDone x.ring st 0) t fuel
        | none =>
          let rest := s.sw.drains
          let s := ({ s with sw := { s.sw with drains := [] } }).drainStart t seq x.ring
          { s with sw := { s.sw with drains := s.sw.drains ++ rest } }

/-- The end of drain `x`: swap, completion to its ring (C1[0] set on expiry), and the next one of its table. -/
def State.drainFinish (s : State) (x : Drain) (expired : Bool) : State :=
  let y := { x with expired := expired }
  let s := { s with sw := { s.sw with drains := s.sw.drains.map fun d => if d = x then y else d } }
  let s := s.drainSwap y
  let s := s.routeDone x.ring stOk (b2n expired)
  s.drainNext x.table (s.sw.drains.length + 1)

/-- ROUTE_DRAIN_QUEUES_EMPTY: the affected queues of table `t`'s drain are empty. -/
def routeDrainQueuesEmpty (t : Nat) (s : State) : State :=
  match s.drainOf t with
  | none => s
  | some x => if s.drained x then s.drainFinish x false else s

/-- ROUTE_DRAIN_EXPIRY: 1 ms has passed since step 2 of table `t`'s drain. -/
def routeDrainExpiry (t : Nat) (s : State) : State :=
  match s.drainOf t with
  | none => s
  | some x => if s.drained x then s.drainFinish x false else (s.drainDiscard x).drainFinish x true

end Sys2Proof.Machine
end

