-- ==== Sys2Proof/Machine/Sched.lean ====
section
/-! DEFINITION. Scheduling, shaping, policing and time gates (R203 to R220), the rewrite of S7 (R114, R115, R117, R124), transmit
stamps (R373) and queue samples (R216). -/

namespace Sys2Proof.Machine

/-! ### Token buckets (R207 to R210) -/

/-- A bucket's settings: rate added per update in 2^-16 byte, burst in 2^-16 byte, enabled. -/
structure BucketCfg where
  add : Nat
  burst : Nat
  enable : Bool
  deriving DecidableEq, Repr

/-- KiB in 2^-16 byte. -/
def kibUnits (k : Nat) : Int := (k * 1024 * 65536 : Nat)

/-- Settings of a bucket by its key in `Switch.buckets`: 80 ns at the rate. -/
def State.bucketCfg (s : State) (k : Nat) : BucketCfg :=
  if k < 16384 then
    let a := schPage (k / 32)
    ⟨s.rd SCH_QSHAPE.rate_mbps a (k % 32) * 65536 / 100, s.rd SCH_QSHAPE.burst_kib a (k % 32) * 1024 * 65536,
      s.flag SCH_QSHAPE.enable a (k % 32)⟩
  else if k < 32768 then
    let j := k - 16384
    let a := schPage (j / 32)
    ⟨s.rd SCH_POLICER.rate_mbps a (j % 32) * 65536 / 100, s.rd SCH_POLICER.burst_kib a (j % 32) * 1024 * 65536,
      s.flag SCH_POLICER.enable a (j % 32)⟩
  else
    let j := k - 32768
    let a := galPage (j / 64 / 128)
    ⟨s.rd GAL_SLOT_CFG.rate_gbps a (j % 64) * 10 * 65536, s.rd GAL_SLOT_CFG.burst_kib a (j % 64) * 1024 * 65536, true⟩

/-- Tokens of a bucket; one that is not listed is full. -/
def State.tokens (s : State) (k : Nat) : Int := Sparse.get ((s.bucketCfg k).burst : Int) s.sw.buckets k

/-- The lowest token count: −9,236 bytes. -/
def tokenFloor : Int := -(9236 * 65536)

/-- Tokens set, within −9,236 bytes and the burst; a full bucket is not listed. -/
def State.setTokens (s : State) (k : Nat) (v : Int) : State :=
  let b : Int := ((s.bucketCfg k).burst : Nat)
  let v := max tokenFloor v
  { s with sw := { s.sw with buckets := if b ≤ v then Sparse.del s.sw.buckets k else Sparse.set s.sw.buckets k v } }

/-- The rate in force: one that a write has replaced stays until the next update (R210). -/
def State.rateNow (s : State) (k : Nat) : Nat := Sparse.get (s.bucketCfg k).add s.sw.rates k

/-- The bucket conforms: neither the rate in force nor the burst is 0, and tokens are above 0. -/
def State.conforms (s : State) (k : Nat) : Bool :=
  s.rateNow k != 0 && (s.bucketCfg k).burst != 0 && decide (0 < s.tokens k)

/-- A frame of `len` bytes on the wire is charged with its preamble and gap (R205). -/
def State.charge (s : State) (k len : Nat) : State := s.setTokens k (s.tokens k - ((len + 20) * 65536 : Nat))

/-- TOKEN_BUCKET_UPDATE: every bucket in use gains rate x 80 ns, up to its burst (R207); rates written since the last one apply (R210). -/
def tokenBucketUpdate (s : State) : State :=
  let s := { s with sw := { s.sw with rates := [] } }
  s.each (s.sw.buckets.map fun e => e.1).eraseDups fun k s => s.setTokens k (s.tokens k + ((s.bucketCfg k).add : Nat))

/-! Bucket keys. -/
def shaperKey (l c : Nat) : Nat := 8 * l + c
def policerKey (l c : Nat) : Nat := 16384 + 8 * l + c
def slotKey (p k : Nat) : Nat := 32768 + 64 * p + k

/-! ### Time gates (R211 to R214) -/

/-- T0 in whole nanoseconds. -/
def State.nowNs (s : State) : Nat := s.time.t0 / nsUnit

/-- The operational gate list of a physical port. -/
def State.gates (s : State) (p : Nat) : GateList := Sparse.get GateList.fresh s.sw.gates p

def State.setGates (s : State) (p : Nat) (g : GateList) : State :=
  { s with sw := { s.sw with gates := Sparse.set s.sw.gates p g } }

/-- A run of a cycle: start, end, states and entry. -/
structure Seg where
  start : Nat
  stop : Nat
  states : Nat
  entry : Nat
  deriving DecidableEq, Repr

/-- The entries applied in a cycle from position `x`: entries of interval 0 are skipped and the list is cut at the cycle end. -/
def gateSegs (g : GateList) : Nat → Nat → Nat → List Seg
  | 0, _, _ => []
  | fuel + 1, i, x =>
    let e := Sparse.get 0 g.entries i
    let w := e % 2 ^ 32
    if g.length ≤ i ∨ g.cycle ≤ x then []
    else if w = 0 then gateSegs g fuel (i + 1) x
    else ⟨x, min (x + w) g.cycle, e / 2 ^ 32 % 256, i⟩ :: gateSegs g fuel (i + 1) (x + w)

/-- The segments that cover one cycle: the last applied entry holds to the cycle end; with no applied entry the default states
hold throughout, as with length 0. -/
def GateList.segs (g : GateList) : List Seg :=
  let l := gateSegs g 256 0 0
  match l.getLast? with
  | none => [⟨0, g.cycle, g.defaults, 256⟩]
  | some z => l.dropLast ++ [{ z with stop := g.cycle }]

/-- Gate states and entry in force at time `t` ns. -/
def GateList.at (g : GateList) (t : Nat) : Nat × Nat :=
  if g.enable = false then (0xFF, 256)
  else if t < g.base ∨ g.cycle = 0 then (g.defaults, 256)
  else
    let x := (t - g.base) % g.cycle
    match g.segs.find? fun z => decide (z.start ≤ x) && decide (x < z.stop) with
    | some z => (z.states, z.entry)
    | none => (g.defaults, 256)

/-- Gate c of port `p` is open now. -/
def State.gateOpen (s : State) (p c : Nat) : Bool := bit ((s.gates p).at s.nowNs).1 c

/-- The first start of a closed segment for class c at or after position `x`, in this cycle or the next. -/
def GateList.nextClosed (g : GateList) (c x : Nat) : Option Nat :=
  let closed := g.segs.filter fun z => !bit z.states c
  match closed.find? fun z => decide (x ≤ z.start) with
  | some z => some (z.start - x)
  | none => (closed.head?).map fun z => z.start + g.cycle - x

/-- The admin list of port `p` as its registers hold it, its base in full seconds (R214). -/
def State.adminGates (s : State) (p : Nat) : GateList :=
  let a := schPage p
  let sec := secOf s.time.t0 / 2 ^ 34 * 2 ^ 34 + s.rd SCH_GATE_ADMIN_BASE.seconds a
  { enable := s.flag SCH_GATE_ADMIN_CFG.enable a, defaults := s.rd SCH_GATE_ADMIN_CFG.default_states a,
    length := s.rd SCH_GATE_ADMIN_CFG.length a, cycle := s.rd SCH_GATE_ADMIN_CYCLE.cycle_ns a,
    base := sec * 1000000000 + s.rd SCH_GATE_ADMIN_BASE.nanoseconds a,
    entries := ((List.range 256).map fun i =>
      (i, s.rd SCH_GATE_ENTRY.states a i * 2 ^ 32 + s.rd SCH_GATE_ENTRY.interval_ns a i)).filter fun e => e.2 != 0 }

/-- The list of a pending change of port `p` and its change time in ns, as the request fixed them. -/
def State.nextGates (s : State) (p : Nat) : Option (GateList × Nat) := (s.sw.nextGates.find? fun e => e.1 == p).map fun e => e.2

def State.setNextGates (s : State) (p : Nat) (x : Option (GateList × Nat)) : State :=
  { s with sw := { s.sw with nextGates := match x with
    | none => Sparse.del s.sw.nextGates p
    | some y => Sparse.set s.sw.nextGates p y } }

/-- States of the first applied entry of a list. -/
def GateList.first (g : GateList) : Nat :=
  if g.enable = false then 0xFF else match g.segs.head? with
    | some z => z.states
    | none => g.defaults

/-- The next closing of gate c of port `p` after now, in ns (R212); none if the gate never closes. -/
def State.nextClosing (s : State) (p c : Nat) : Option Nat :=
  let g := s.gates p
  let t := s.nowNs
  let own := if g.enable = false then none
    else if t < g.base then
      (if (g.nextClosed c 0).isSome then (g.nextClosed c 0).map fun d => g.base + d else none)
    else (g.nextClosed c ((t - g.base) % g.cycle)).map fun d => t + d
  match s.nextGates p with
  | none => own
  | some (next, ct) =>
    let close := !bit next.first c
    match own with
    | some x => if x < ct then some x else if close then some ct else none
    | none => if close then some ct else none

/-- The frame of `len` bytes ends before the next closing at `rate` Gb/s (R212). -/
def State.gateFits (s : State) (p c len rate : Nat) : Bool :=
  match s.nextClosing p c with
  | none => true
  | some x => decide (s.time.t0 * rate + (len + 20) * 8 * nsUnit ≤ x * nsUnit * rate)

/-- Longest contiguous open run of class c, counting across the cycle end; none when the gate never closes. -/
def GateList.longest (g : GateList) (c : Nat) : Option Nat :=
  if g.enable = false then none
  else
    let l := g.segs
    if l.all fun z => bit z.states c then none
    else
      let run := (l ++ l).foldl (fun (a : Nat × Nat) z => if bit z.states c then (a.1 + (z.stop - z.start), max a.2 (a.1 + (z.stop - z.start)))
        else (0, a.2)) (0, 0)
      some run.2

/-- The checks of R213: the refusal code, 0 for none. -/
def gateCheck (g : GateList) : Nat :=
  if g.cycle < 1000 ∨ 1000000000 < g.cycle then 1
  else if 256 < g.length then 2
  else if g.enable && [2, 6, 7].any fun c => match g.longest c with
    | none => false
    | some r => decide (r < 2000) then 3
  else 0

/-- GATE_CHANGE_REQUEST on port `p` (R213): refused with its reason, discarded while a change pends, or given its change
time. `who` is the session of the write. -/
def gateChangeRequest (who p : Nat) (s : State) : State :=
  let a := schPage p
  if s.flag SCH_GATE_STATUS.change_pending a then s.pageError a 0x0006 who (offDetail SCH_GATE_CHANGE.request.off)
  else
    let g := s.adminGates p
    let r := gateCheck g
    if r ≠ 0 then (s.wr SCH_GATE_STATUS.refusal a r).irq a 5
    else
      let least := s.nowNs + 10000
      let t := if least ≤ g.base then g.base else g.base + cdiv (least - g.base) g.cycle * g.cycle
      (((s.setNextGates p (some (g, t))).wr SCH_GATE_STATUS.change_pending a 1).wr SCH_GATE_CHANGE_TIME.seconds a (t / 1000000000)).wr
        SCH_GATE_CHANGE_TIME.nanoseconds a (t % 1000000000)

/-- GATE_CHANGE_CANCEL: a pending change is cleared and both copies stay (R213). -/
def gateChangeCancel (p : Nat) (s : State) : State := (s.setNextGates p none).wr SCH_GATE_STATUS.change_pending (schPage p) 0

/-- The gate states of a port's page follow the operational list (R211, R214). -/
def State.applyGates (s : State) (p : Nat) : State :=
  let a := schPage p
  let x := (s.gates p).at s.nowNs
  (s.wr SCH_GATE_STATUS.oper_states a x.1).wr SCH_GATE_STATUS.oper_entry a x.2

/-- GATE_CHANGE_TIME: the admin list of port `p`, its base as the request took it, becomes operational (R213, R214). -/
def gateChangeTime (p : Nat) (s : State) : State :=
  let a := schPage p
  match s.nextGates p with
  | none => s
  | some (g, _) =>
    let s := ((s.setNextGates p none).setGates p g).wr SCH_GATE_STATUS.change_pending a 0
    let s := (s.wr SCH_GATE_STATUS.oper_enable a (b2n g.enable)).wr SCH_GATE_OPER_CYCLE.cycle_ns a g.cycle
    ((s.applyGates p).irq a 4).count a 0x81

/-- GATE_ENTRY_CHANGE: an entry or a cycle of port `p`'s operational list has ended; the next states apply (R211). -/
def gateEntryChange (p : Nat) (s : State) : State := s.applyGates p

/-- GATE_RESYNC: after a step of T0, every enabled list takes the position of the new time (R214). -/
def State.gateResync (s : State) : State :=
  let ps := (s.sw.gates.filter fun e => e.2.enable).map fun e => e.1
  s.each ps fun p s => ((s.applyGates p).irq (schPage p) 7).count (schPage p) 0x80

/-! ### DWRR (R197, R206) -/

/-- One set's view of an entry to serve: its weight from the next round, and in this one (R210). -/
structure Turn where
  idx : Nat
  weight : Nat
  now : Nat
  eligible : Bool
  cap : Int
  deriving DecidableEq, Repr

/-- Round start: credits gain their quantum, and the ineligible are held to their cap. -/
def dwrrRound (ts : List Turn) (credit : Nat → Int) : Nat → Int := fun i =>
  match ts.find? fun t => t.idx == i with
  | none => credit i
  | some t =>
    let c := if t.weight = 0 then credit i else credit i + ((t.weight * 256 : Nat) : Int)
    if t.eligible then c else min c t.cap

/-- Indexes in rotation from `ptr`, modulo `n`. -/
def rotation (n ptr : Nat) : List Nat := (List.range n).map fun i => (ptr + i) % n

/-- The entry a set serves, the credits after the rounds it took, at most `fuel`, and whether it took one. -/
def dwrrPick (ts : List Turn) (n ptr : Nat) : Nat → (Nat → Int) → Option Nat × (Nat → Int) × Bool
  | 0, credit => (none, credit, false)
  | fuel + 1, credit =>
    let ok := fun (i : Nat) (w : Turn → Bool) => ts.any fun t => t.idx == i && t.eligible && w t
    match (rotation n ptr).find? fun i => ok i (fun t => t.now != 0) && decide (0 < credit i) with
    | some i => (some i, credit, false)
    | none =>
      if ts.any fun t => t.eligible && (t.now != 0 || t.weight != 0) then
        let r := dwrrPick (ts.map fun t => { t with now := t.weight }) n ptr fuel (dwrrRound ts credit)
        (r.1, r.2.1, true)
      else ((rotation n ptr).find? fun i => ok i fun _ => true, credit, false)

/-- Weights that a write has replaced no longer apply to the sets of keys `hit`: a round has started. -/
def State.newWeights (s : State) (b : Bool) (hit : Nat → Bool) : State :=
  s.iff b fun s => { s with sw := { s.sw with weights := Sparse.delIf s.sw.weights hit } }

/-- Rounds that always suffice: a credit is at least −9,236 bytes and a quantum at least 256. -/
def dwrrFuel : Nat := 40

/-! ### Eligibility (R204) -/

/-- A HELLO or an LLDP frame of the device, which needs no neighbour MAC (R114). -/
def Frame.handshake (f : Frame) : Bool := f.own && (ethDst f.bytes == macHello || ethDst f.bytes == macLldp)

/-- A time message of the device (R371). -/
def Frame.timed (f : Frame) : Bool :=
  f.own && etype f.bytes == 0x86DD && ipNext f.bytes == 17 && (udpDst f.bytes == 319 || udpDst f.bytes == 320)

/-- Sub-port `l` may send frame `f`: one that is not ACCEPTED sends only HELLO, LLDP and time messages, PFC passing no queue (R411), and
nothing else leaves without a neighbour MAC (R114). -/
def State.maySend (s : State) (l : Nat) (f : Frame) : Bool :=
  f.handshake || ((s.sub l).nbrMac != 0 && (decide ((s.sub l).disc = .accepted) || f.timed))

/-- Frame and entry that queue `k` sends next: the first that its sub-port may send, or the first where there is none. -/
def State.head (s : State) (k : Nat) : Option (QEntry × Frame) :=
  let l := k / 66 / 8
  let es := (s.queue k).filterMap fun e => (s.frame? e.id).map fun f => (e, f)
  match es.find? fun x => s.maySend l x.2 with
  | some x => some x
  | none => es.head?

/-- The head frame may start as far as the gate, the neighbour and its acceptance go (R114, R204, R212, R411). -/
def State.headReady (s : State) (l c k : Nat) : Bool :=
  match s.head k with
  | none => false
  | some (_, f) => s.gateFits (l / 4) c (wireLen f.bytes) (s.lportRate l) && s.maySend l f

/-- Job slots of (l, c) that hold a frame that may start: gate and slot shaper (R197, R204). -/
def State.readySlots (s : State) (l c : Nat) : List Nat :=
  ((s.queuesOf l c).map fun e => e.1 % 66).filter fun k =>
    decide (k < 64) && s.conforms (slotKey (l / 4) k) && s.headReady l c (qKey l c k)

/-- Class c of sub-port `l` is eligible: pause, gate, shaper, frame. Queue shapers do not apply to ring queues. -/
def State.eligible (s : State) (l c : Nat) : Bool :=
  let shaped := s.flag SCH_QSHAPE.enable (schPage (l / 4)) (8 * (l % 4) + c) && !s.conforms (shaperKey l c)
  (!isHold c || !s.isPaused l c) && s.gateOpen (l / 4) c &&
    ((!shaped && (s.headReady l c (qKey l c 64) || !(s.readySlots l c).isEmpty)) || s.headReady l c (qKey l c 65))

/-- The classes of sub-port `l` that hold a frame they may start. -/
def State.turns (s : State) (l : Nat) : List Turn :=
  let a := schPage (l / 4)
  let strict := s.rd SCH_PORT_CFG.strict_mask a
  ((List.range 8).filter fun c => !bit strict c).map fun c =>
    let w := s.rd SCH_WEIGHT.weight a (8 * (l % 4) + c)
    ⟨c, w, Sparse.get w s.sw.weights (8 * l + c), s.eligible l c, (s.rd SCH_CREDIT_CAP.cap a c * 1024 : Nat)⟩

/-- The class picked (R204, R206), and the state with the credits of the rounds it took. -/
def State.pickClass (s : State) (l : Nat) : Option Nat × State :=
  let strict := s.rd SCH_PORT_CFG.strict_mask (schPage (l / 4))
  match ([7, 6, 5, 4, 3, 2, 1, 0].find? fun c => bit strict c && s.eligible l c) with
  | some c => (some c, s)
  | none =>
    let ts := s.turns l
    let (r, credit, round) := dwrrPick ts 8 (Sparse.get 0 s.sw.classPtr l) dwrrFuel fun c => Sparse.get 0 s.sw.credit (8 * l + c)
    let m := ts.foldl (fun m t => Sparse.set m (8 * l + t.idx) (credit t.idx)) s.sw.credit
    (r, ({ s with sw := { s.sw with credit := m.filter fun e => e.2 != 0 } }).newWeights round fun k => k / 8 == l)

/-- The slot picked in a job-slot queue (R197): DWRR by slot weight, a slot that is not ready keeping no credit. -/
def State.pickSlot (s : State) (l c : Nat) : Option Nat × State :=
  let a := galPage (l / 512)
  let ready := s.readySlots l c
  let base := (8 * l + c) * 64
  let ts := (List.range 64).map fun k =>
    let w := s.rd GAL_SLOT_CFG.weight a k
    Turn.mk k w (Sparse.get w s.sw.weights (16384 + base + k)) (ready.contains k) 0
  let (r, credit, round) := dwrrPick ts 64 (Sparse.get 0 s.sw.slotPtr (8 * l + c)) dwrrFuel fun k => Sparse.get 0 s.sw.slotCredit (base + k)
  let m := ts.foldl (fun m t => Sparse.set m (base + t.idx) (credit t.idx)) s.sw.slotCredit
  (r, ({ s with sw := { s.sw with slotCredit := m.filter fun e => e.2 != 0 } }).newWeights round fun k =>
    decide (16384 ≤ k) && (k - 16384) / 64 == 8 * l + c)

/-! ### The rewrite of S7 -/

/-- A copy as it leaves logical port `l`: per-copy header fields (R278, R283), hop_count and Hop Limit (R115, R124), MAC
addresses (R114), with the UDP checksum kept (R117). -/
def State.rewrite (s : State) (l : Nat) (f : Frame) (h : Option CopyHdr) : List Byte :=
  let u := f.bytes
  let u := match h with
    | none => u
    | some h =>
      let u := setDstFea u h.fea
      match h.result with
      | none => u
      | some (m, r) =>
        let w := m % 2 ^ 20 * 16 + beAt u 76 3 % 16
        let u := setWord (setWord u 76 (w / 256)) 78 (w % 256 * 256 + beAt u 79 1)
        (List.range 4).foldl (fun u i => setWord u (86 + 2 * i) (r / 2 ^ (48 - 16 * i) % 65536)) u
  let u := if f.own || etype u != 0x86DD then u
    else
      let u := if f.hjt then setWord u 64 (beAt u 64 2 + 0x1000) else u
      patch u 21 [byte (ipHop u - 1)]
  let dst := if f.own = true ∧ (ethDst u = macHello ∨ ethDst u = macLldp) then ethDst u else (s.sub l).nbrMac
  patch u 0 (natBe 6 dst ++ natBe 6 (s.portMac l))

/-- TX_TIMESTAMP: an event message of the device takes an entry of its port's stamp queue, or is dropped from it when the
queue is full (R373). -/
def State.txStamp (s : State) (l : Nat) (f : Frame) : State :=
  let u := f.bytes
  let p := l / 4
  if f.own = false ∨ etype u ≠ 0x86DD ∨ ipNext u ≠ 17 ∨ udpDst u ≠ 319 then s
  else
    let q := Sparse.get [] s.time.txq p
    if 16 ≤ q.length then
      (({ s with time := { s.time with txqOverflow := Sparse.set s.time.txqOverflow p true } }).irq (timPage (p / 128)) 5).count
        (timPage (p / 128)) 0x82
    else
      let dom := if beAt u 66 1 = s.rd TIM_CFG.dom0_number (timPage 0) then 0 else 1
      let x := TxStamp.mk s.time.t0 s.time.t1 (l % 4) dom (beAt u 62 1 % 16) (beAt u 92 2)
      { s with time := { s.time with txq := Sparse.set s.time.txq p (q ++ [x]) } }

/-! ### FRAME_TRANSMIT -/

/-- Head frames of sub-port `l` whose wire time exceeds the longest open run of their class are discarded (R212). -/
def State.dropOversize (s : State) (l : Nat) : State :=
  let g := s.gates (l / 4)
  let qs := s.sw.queues.filter fun e => e.1 / 66 / 8 == l
  s.each qs fun e s => s.each e.2 fun x s =>
    match s.queue e.1, s.frame? x.id, g.longest (e.1 / 66 % 8) with
    | y :: rest, some f, some run =>
      if y = x ∧ run * s.lportRate l < (wireLen f.bytes + 20) * 8 then
        let s := s.setQueue e.1 rest
        let s := (s.dropAt (schPage (l / 4)) 0x1E f.cls f.src).irq (schPage (l / 4)) 6
        (s.iff f.result fun s => s.undelivered (l / 512) l f.bytes (s.groupRing (Hjt.decode f.bytes).group)).release x.id
      else s
    | _, _, _ => s

/-- The queue of class c that serves its next frame: the FIFO, the ring queue, or a job slot. -/
def State.pickQueue (s : State) (l c : Nat) : Option Nat × State :=
  let shaped := s.flag SCH_QSHAPE.enable (schPage (l / 4)) (8 * (l % 4) + c) && !s.conforms (shaperKey l c)
  if !shaped && s.headReady l c (qKey l c 64) then (some (qKey l c 64), s)
  else if s.headReady l c (qKey l c 65) then (some (qKey l c 65), s)
  else if shaped then (none, s)
  else
    let (k, s) := s.pickSlot l c
    (k.map fun k => qKey l c k, s)

/-- The charges of a frame that starts (R205): queue shaper, slot shaper, class credit and slot credit. -/
def State.chargeAll (s : State) (l c k len : Nat) : State :=
  let slot := k % 66
  let s := s.iff (slot != 65 && s.flag SCH_QSHAPE.enable (schPage (l / 4)) (8 * (l % 4) + c)) fun s => s.charge (shaperKey l c) len
  let s := s.iff (decide (slot < 64)) fun s =>
    let i := (8 * l + c) * 64 + slot
    let s := s.charge (slotKey (l / 4) slot) len
    let v := max (-9236) (Sparse.get 0 s.sw.slotCredit i - ((len + 20 : Nat) : Int))
    let ptr := if v ≤ 0 ∨ (s.readySlots l c).contains slot = false then Sparse.set s.sw.slotPtr (8 * l + c) ((slot + 1) % 64) else s.sw.slotPtr
    { s with sw := { s.sw with slotCredit := Sparse.set s.sw.slotCredit i v, slotPtr := ptr } }
  s.iff (!bit (s.rd SCH_PORT_CFG.strict_mask (schPage (l / 4))) c) fun s =>
    let v := max (-9236) (Sparse.get 0 s.sw.credit (8 * l + c) - ((len + 20 : Nat) : Int))
    { s with sw := { s.sw with credit := Sparse.set s.sw.credit (8 * l + c) v } }

/-- The pointer moves past a class whose credit is spent or that may send no more. -/
def State.advancePtr (s : State) (l c : Nat) : State :=
  if bit (s.rd SCH_PORT_CFG.strict_mask (schPage (l / 4))) c then s
  else if Sparse.get 0 s.sw.credit (8 * l + c) ≤ 0 ∨ s.eligible l c = false then
    { s with sw := { s.sw with classPtr := Sparse.set s.sw.classPtr l ((c + 1) % 8) } }
  else s

/-- Frame `f` starts to leave logical port `l` as `u`: its last byte goes once the bytes before it have. -/
def State.startSend (s : State) (l : Nat) (f : Frame) (u : List Byte) : State :=
  let from_ := match s.sw.sending.find? fun e => e.1 == l with
    | some e => max s.now e.2.stop
    | none => s.now
  { s with sw := { s.sw with sending := Sparse.set s.sw.sending l ⟨from_ + cdiv ((wireLen u + 20) * 8) (s.lportRate l), f.result, u⟩ } }

/-- FRAME_TRANSMIT: sub-port `l` can start a frame. `find`: a tread of the picked frame is uncorrectable (R177, R363), or its rewrite fails
its residue check (R435); the frame and its copies are then discarded. -/
def frameTransmit (l : Nat) (find : TxFind) (s : State) : State :=
  if s.isUp l = false ∨ s.power.stopped then s
  else
    let s := s.dropOversize l
    match s.pickClass l with
    | (none, s) => s
    | (some c, s) =>
      match s.pickQueue l c with
      | (none, s) => s
      | (some k, s) =>
        match s.head k with
        | none => s
        | some (e, f) =>
          match find with
          | .treadEcc => s.treadEcc e.id
          | .residue => (s.pipeResidue (pipeOfPort (l / 4))).discardAll e.id f (swpPage (pipeOfPort (l / 4))) 0x2A
          | .ok =>
            let s := s.setQueue k ((s.queue k).erase e)
            let u := s.rewrite l f e.hdr
            let s := s.chargeAll l c k (wireLen u)
            let s := ((s.sendWire l u).txStamp l f).startSend l f u
            (s.release e.id).advancePtr l c

/-! ### Samples (R216) -/

/-- Delay and depth of class c on logical port `l`. -/
def State.sampleClass (s : State) (l c : Nat) : Nat :=
  let qs := s.queuesOf l c
  let heads := qs.filterMap fun e => e.2.head?
  let oldest := heads.foldl (fun (a : Option Nat) x => match a with
    | none => some x.at_
    | some t => some (min t x.at_)) none
  let delay := match oldest with
    | none => 0
    | some t => min (s.now - t) (2 ^ 28 - 1)
  delay * 2 ^ 20 + min (s.depth l c + s.ringDepth l c) (2 ^ 20 - 1)

/-- The 64-byte record of logical port `l`. -/
def State.sampleRecord (s : State) (k l : Nat) : List Byte :=
  natLe 8 s.stamp ++ natLe 8 (k % 2 ^ 32 * 2 ^ 32 + l) ++ (List.range 8).flatMap fun c => natLe 6 (s.sampleClass l c)

/-- Logical port `l` is one that the plan and its breakout put in service (R78, R216). -/
def State.lportPlanned (s : State) (l : Nat) : Bool :=
  (s.role (l / 4) == roleDown || s.role (l / 4) == roleGallery) && s.lportUsed l

/-- QUEUE_SAMPLE on die `d`. `late`: the writes of the sample before have not completed (R216). A die whose LPDDR6 is not used skips every
sample (R360). -/
def queueSample (d : Nat) (late : Bool) (s : State) : State :=
  let a := schDiePage d
  if s.rd SCH_DIE_CFG.sample_us a = 0 then s
  else if late || bit s.boot.lpUnused d then (((s.inc SCH_TEL_STATUS.skipped a).irq a 4).count a 0x80)
  else
    let ls := (List.range 512).filter fun i =>
      let l := 512 * d + i
      s.lportPlanned l && bit (s.rd SCH_TEL_PORTS.ports a (i / 4 / 64)) (i / 4 % 64)
    let t := s
    let s := s.each ls fun i s =>
      let k := s.rd SCH_TEL_PRODUCER.producer a
      let s := { s with mem := Memory.writeN s.mem (telemetryBase d + k % 2 ^ 25 * 64) (t.sampleRecord k (512 * d + i)) }
      s.inc SCH_TEL_PRODUCER.producer a
    s.wr SCH_TEL_STATUS.last_records a ls.length

end Sys2Proof.Machine
end

