-- ==== Sys2Proof/Machine/Time.lean ====
section
/-! DEFINITION. The time base (R367 to R382) and the loss and return of the references (R40, R45). Counters are in units of
2^-32 ns (R367). The registers of die 0 serve all dies (R368). -/

namespace Sys2Proof.Machine

/-! ### Counters and steps (R367 to R369) -/

/-- Counter n. -/
def State.counter (s : State) (n : Nat) : Nat := if n = 0 then s.time.t0 else s.time.t1

def State.setCounter (s : State) (n v : Nat) : State :=
  if n = 0 then { s with time := { s.time with t0 := v % timeWrap } } else { s with time := { s.time with t1 := v % timeWrap } }

/-- T0 in nanoseconds less offset_ns. -/
def State.ppsTime (s : State) : Int := (s.time.t0 / nsUnit : Nat) - sgn 32 (s.rd TIM_PPS_CFG.offset_ns (timPage 0))

/-- The second whose edge, offset_ns after it, T0 now crosses, within 5 ns (R379). -/
def State.ppsSecond (s : State) : Option Int :=
  let x := s.ppsTime
  let k := (x + 500000000) / 1000000000
  if (x - k * 1000000000).natAbs ≤ 5 then some k else none

/-- PPS_OUT falls. -/
def State.ppsLow (s : State) : State := { s with time := { s.time with ppsOut := false } }

/-- A step of T0 ends the pulse; an edge that it lands on or just behind is one it stepped over, which gives no rise (R379). -/
def State.ppsStepped (s : State) : State :=
  let last := match s.ppsSecond with
    | some k => if k * 1000000000 ≤ s.ppsTime then some k else s.time.ppsLast
    | none => s.time.ppsLast
  { s with time := { s.time with ppsOut := false, ppsLast := last } }

/-- Counter n steps to `v` (R369): a step of T0 resynchronises the gates, ends a PPS_OUT pulse (R379) and counts STEP. -/
def State.stepCounter (s : State) (n v : Nat) : State :=
  let s := s.setCounter n v
  if n ≠ 0 then s
  else
    let s := s.ppsStepped
    let s := (s.count (timPage 0) 0x80).irq (timPage 0) 6
    (s.iff (s.sw.gates.any fun e => e.2.enable) fun s => s.count (timPage 0) 0x84).gateResync

/-- A signed change of counter n by `z` units. -/
def State.moved (s : State) (n : Nat) (z : Int) : Nat := (((s.counter n : Nat) + z) % (timeWrap : Int)).toNat

/-- Value of TIM_SET_NS in units. -/
def State.setNs (s : State) : Nat :=
  s.rd TIM_SET_NS.nanoseconds (timPage 0) * nsUnit + s.rd TIM_SET_NS.fraction (timPage 0) * 65536

/-- TIM_SET on counter n (R369). -/
def timSet (n : Nat) (s : State) : State :=
  s.stepCounter n (s.rd TIM_SET_SEC.seconds (timPage 0) * 1000000000 * nsUnit + s.setNs)

/-- TIM_ADD on counter n (R369). -/
def timAdd (n : Nat) (s : State) : State :=
  s.stepCounter n (s.moved n (if s.flag TIM_SET_NS.negative (timPage 0) then -(s.setNs : Int) else s.setNs))

/-! ### Domains -/

def State.dom (s : State) (n : Nat) : Domain := if n = 0 then s.time.dom0 else s.time.dom1

def State.setDom (s : State) (n : Nat) (d : Domain) : State :=
  if n = 0 then { s with time := { s.time with dom0 := d } } else { s with time := { s.time with dom1 := d } }

/-- Modes: 0 FREE, 1 GPTP, 2 PPS. -/
def State.domMode (s : State) (n : Nat) : Nat :=
  if n = 0 then s.rd TIM_CFG.dom0_mode (timPage 0) else s.rd TIM_CFG.dom1_mode (timPage 0)

/-- States: 0 ACQUIRE, 1 LOCKED, 2 LOST, 3 FREE. -/
def State.domState (s : State) (n : Nat) : Nat :=
  if n = 0 then s.rd TIM_STATUS.dom0_state (timPage 0) else s.rd TIM_STATUS.dom1_state (timPage 0)

def State.setDomState (s : State) (n v : Nat) : State :=
  if n = 0 then s.wr TIM_STATUS.dom0_state (timPage 0) v else s.wr TIM_STATUS.dom1_state (timPage 0) v

def State.t0Source (s : State) : Nat := s.rd TIM_STATUS.t0_source (timPage 0)

/-- `z` held between −`b` and `b`. -/
def clampInt (lo hi z : Int) : Int := max lo (min hi z)

/-- fmax of R374: 500 ppm. -/
def fmaxUnits : Int := 2147484

/-- The servo's new integral and frequency for offset `o` in 2^-16 ns (R374). -/
def servoTerms (integ o : Int) (ki kp slew : Nat) : Int × Int :=
  let e := o * 65536
  let i := clampInt (-fmaxUnits) fmaxUnits (integ - e / (2 ^ ki : Nat))
  let f := clampInt (i - slew) (i + slew) (i - e / (2 ^ kp : Nat))
  (i, clampInt (-fmaxUnits) fmaxUnits f)

/-- The servo of domain n acts on offset `o`: terms, and the count of offsets below lock_ns. -/
def State.servoRun (s : State) (n : Nat) (o : Int) : State :=
  let a := timPage 0
  let slew := s.rd TIM_SWITCH_CFG.max_slew_ppb a * 4294967296 / 1000000000
  let d := s.dom n
  let (i, f) := servoTerms d.integ o (s.rd TIM_SERVO_CFG.ki_shift a n % 64) (s.rd TIM_SERVO_CFG.kp_shift a n % 64) slew
  let run := if o.natAbs < s.rd TIM_SERVO_CFG.lock_ns a n * 65536 then d.lockRun + 1 else 0
  s.setDom n { d with integ := i, freq := f, lockRun := min run 8 }

/-- An offset reaches the servo of domain n in ACQUIRE or LOCKED (R374). T0 is stepped only while domain 0 drives it (R376, R380). -/
def State.servo (s : State) (n : Nat) (o : Int) : State :=
  let acquire := s.domState n == 0
  if acquire && (n != 0 || s.t0Source == 0) && decide (s.rd TIM_SERVO_CFG.step_ns (timPage 0) n * 65536 ≤ o.natAbs) then
    (s.stepCounter n (s.moved n (-(o * 65536)))).setDom n { s.dom n with lockRun := 0 }
  else
    let s := s.servoRun n o
    s.iff (acquire && (s.dom n).lockRun == 8) fun s => s.setDomState n 1

/-- An offset arrives for domain n with `gap` the longest time to the one before that counts as succession: it is monitored
while the domain is LOST, and for domain 0 while T0 is not driven by it; else it feeds the servo (R375, R376). -/
def State.offsetArrives (s : State) (n : Nat) (o : Int) (gap : Nat) : State :=
  let d := s.dom n
  let near := match d.lastAt with
    | none => false
    | some t => decide (s.now < t + gap)
  let lost := s.domState n == 2
  let s := s.setDom n { d with lastAt := some s.now, succRun := if lost then (if near then min (d.succRun + 1) 8 else 1) else 0 }
  if lost || (n == 0 && (s.t0Source == 1 || s.t0Source == 2)) then s else s.servo n o

/-- TIM_OFFSET_WRITE: session `who` writes offset `o` of domain n (R374, R380). In PPS the device feeds the servo itself. -/
def timOffsetWrite (who n : Nat) (o : Int) (s : State) : State :=
  if s.domMode n = 0 then s.pageError (timPage 0) 0x0007 who (offDetail (TIM_OFFSET.offset.off + 8 * n))
  else if s.domMode n ≠ 1 then s
  else s.offsetArrives n o (s.rd TIM_SWITCH_CFG.timeout_ms (timPage 0) * 1000000)

/-- DOMAIN_MODE_WRITE: domain n takes a mode and starts in ACQUIRE, or is free (R374). -/
def domainModeWrite (n mode : Nat) (s : State) : State :=
  let s := if n = 0 then s.wr TIM_CFG.dom0_mode (timPage 0) mode else s.wr TIM_CFG.dom1_mode (timPage 0) mode
  let s := s.setDom n { s.dom n with lockRun := 0, succRun := 0, lastAt := none, liveSince := none }
  s.setDomState n (if mode = 0 then 3 else 0)

/-- Domain n is live (R375). -/
def State.live (s : State) (n : Nat) : Bool :=
  s.domState n == 1 && (
    if s.domMode n = 2 then s.flag CLK_REF_STATUS.pps_in_present (clkPage 0)
    else match (s.dom n).lastAt with
      | none => false
      | some t => decide (s.now < t + s.rd TIM_SWITCH_CFG.timeout_ms (timPage 0) * 1000000))

/-- Liveness of one domain: the return from LOST, the loss, and the time since when it lives (R375). -/
def State.checkDomain (s : State) (n : Nat) : State :=
  let s := s.iff (s.domState n == 2 && (s.dom n).succRun == 8) fun s => s.setDomState n 1
  let s := s.iff (s.domState n == 1 && !s.live n) fun s =>
    (s.setDomState n 2).setDom n { s.dom n with succRun := 0 }
  let d := s.dom n
  s.setDom n { d with liveSince := if s.live n then some (d.liveSince.getD s.now) else none }

/-- SWITCH_OVER: t0_source changes (R376, R382). -/
def State.switchOver (s : State) (v : Nat) : State :=
  let a := timPage 0
  let s := ((s.wr TIM_STATUS.t0_source a v).inc TIM_STATUS.switches a).count a 0x81
  let s := (s.irq a 4).iff (v == 2) fun s => s.irq a 7
  s.iff (v == 3) fun s => s.setDom 0 { s.dom 0 with lockRun := 0 }

/-- Where T0 goes when domain 0 does not drive it. -/
def State.fallTo (s : State) : Nat := if s.live 1 && s.flag TIM_SWITCH_CFG.auto_switch (timPage 0) then 1 else 2

/-- The transition of R376 that is due, if any. -/
def State.sourceStep (s : State) : State :=
  let held := match (s.dom 0).liveSince with
    | none => false
    | some t => decide (t + s.rd TIM_SWITCH_CFG.hold_ms (timPage 0) * 1000000 ≤ s.now)
  match s.t0Source with
  | 0 => if s.domState 0 = 2 then s.switchOver s.fallTo else s
  | 1 => if s.live 0 && held then s.switchOver 3 else if s.domState 1 = 2 then s.switchOver 2 else s
  | 2 => if s.live 0 then s.switchOver 3
    else if s.live 1 && s.flag TIM_SWITCH_CFG.auto_switch (timPage 0) then s.switchOver 1 else s
  | _ => if s.domState 0 = 2 then s.switchOver s.fallTo else if (s.dom 0).lockRun = 8 then s.switchOver 0 else s

/-- LIVENESS_CHECK (R375, R376). -/
def livenessCheck (s : State) : State := ((s.checkDomain 0).checkDomain 1).sourceStep

/-- T1_FOLLOW_FEED: in FOLLOW_T1 the servo of T0 is fed T0 − T1 (R376), without steps. -/
def t1FollowFeed (s : State) : State :=
  if s.t0Source ≠ 1 then s else s.servoRun 0 (((s.time.t0 : Int) - s.time.t1) / 65536)

/-! ### Time messages (R371, R372) and stamp queues (R373) -/

/-- An 802.1AS message the device supports (R372): header of IEEE 1588-2019 (PRESUMED), one of the supported types, two-step
where it is a Sync, and a domain number of TIM_CFG. -/
def State.ptpOk (s : State) (m : List Byte) : Bool :=
  let t := beAt m 0 1 % 16
  decide (34 ≤ m.length) && beAt m 1 1 % 16 == 2 && decide (34 ≤ beAt m 2 2) && decide (beAt m 2 2 ≤ m.length)
    && [0, 2, 3, 8, 0xA, 0xB, 0xC].contains t && (t != 0 || bit (beAt m 6 2) 9)
    && (beAt m 4 1 == s.rd TIM_CFG.dom0_number (timPage 0) || beAt m 4 1 == s.rd TIM_CFG.dom1_number (timPage 0))

/-- The spine FEA of this device with service `svc` (R23), and its IPv6 address under the fabric prefix. -/
def State.ownFea (s : State) (svc : Nat) : Nat := match s.boot.plan with
  | none => 0
  | some pl => spineFea pl.hall pl.rail pl.spine svc
def State.fabricAddr (s : State) (fea : Nat) : Nat := match s.boot.plan with
  | none => 0
  | some pl => pl.pfx * 2 ^ 32 + fea

/-- A frame of the device enters the queue of (l, c), outside egress selection; without treads it is discarded under NO_TREAD (R177). -/
def State.sendOn (s : State) (l c : Nat) (u : List Byte) (hjt : Bool) : State :=
  let f := Frame.mk u 0xFFFF (l / 512) .forward (treadsOf (wireLen u)) c (if hjt then 0 else 0xFFFF) 0 true hjt false false
  if f.treads ≤ s.poolFree f.die .forward then
    let (id, s) := s.newFrame { f with refs := 1 }
    let t : Target := ⟨s.queueKeyFor l f, false, 0, none⟩
    (if t.key % 66 = 65 then s.admitLocal id false false t else s.enqueue id t).release id
  else s.dropAt (bufPage f.die) 0x02 c f.src

/-- GPTP_SYNC_SEND: firmware sends the 802.1AS message `m` on logical port `l` (R371, R372): event types to UDP port 319, the
others to 320, in TC6. -/
def gptpSyncSend (l : Nat) (m : List Byte) (s : State) : State :=
  if s.flag TIM_CFG.gptp_enable (timPage 0) = false ∨ s.isUp l = false ∨ (s.sub l).twoWay = false ∨ s.boot.cores = 0
      ∨ s.ptpOk m = false then s
  else
    let port := if beAt m 0 1 % 16 < 8 then 319 else 320
    s.sendOn l 6 (ipFrame ptpGroup (s.fabricAddr (s.ownFea 0)) 6 255 17 (udpHdr port m.length ++ m)) false

/-- TXQ_POP: the head entry of the selected queue of die `d` goes (R373). -/
def txqPop (d : Nat) (s : State) : State :=
  let p := 128 * d + s.rd TIM_TXQ_SEL.port (timPage d)
  { s with time := { s.time with txq := Sparse.set s.time.txq p (Sparse.get [] s.time.txq p).tail } }

/-! ### PPS (R378, R379) -/

/-- The offset an edge stamp gives, in 2^-16 ns. -/
def ppsOffset (t : Nat) : Int :=
  let f : Int := (nsOf t * 65536 + fracOf t : Nat)
  if nsOf t < 500000000 then f else f - 1000000000 * 65536

/-- PPS_IN_EDGE (R378). -/
def ppsInEdge (s : State) : State :=
  let a := timPage 0
  let s := s.each [0, 1] fun n s =>
    (s.wr TIM_PPS_IN.seconds a (secOf (s.counter n)) n).wr TIM_PPS_IN.nanoseconds a (nsOf (s.counter n)) n
  let s := s.each (List.range 4) fun d s => s.wr CLK_REF_STATUS.pps_in_present (clkPage d) 1
  let o0 := ppsOffset s.time.t0
  let o1 := ppsOffset s.time.t1
  let s := s.iff (s.domMode 0 == 2) fun s => s.offsetArrives 0 o0 1100000000
  s.iff (s.domMode 1 == 2) fun s => s.offsetArrives 1 o1 1100000000

/-- PPS_MISS: 1.1 s have passed without an edge (R378). -/
def ppsMiss (s : State) : State :=
  if s.flag CLK_REF_STATUS.pps_in_present (clkPage 0) = false then s
  else
    let s := s.each (List.range 4) fun d s => s.wr CLK_REF_STATUS.pps_in_present (clkPage d) 0
    (s.count (timPage 0) 0x83).irq (timPage 0) 8

/-- PPS_OUT_RISE: T0 crosses a whole second plus offset_ns with out_enable set; no second has two edges, however T0 steps (R379;
DEDUCED, notes/assumptions/74.md). -/
def ppsOutRise (s : State) : State :=
  s.iff (s.flag TIM_PPS_CFG.out_enable (timPage 0) && s.ppsSecond.isSome && s.ppsSecond != s.time.ppsLast) fun s =>
    { s with time := { s.time with ppsOut := true, ppsRise := s.now, ppsLast := s.ppsSecond } }

/-- PPS_OUT_FALL: width_ns have passed since the rise (R379). -/
def ppsOutFall (s : State) : State :=
  s.iff (decide (s.time.ppsRise + s.rd TIM_PPS_CFG.width_ns (timPage 0) ≤ s.now)) fun s => s.ppsLow

/-! ### TIME_REF (R40, R377) -/

/-- Reference-loss event of the CLK pages (R455). -/
def evRefLoss : Nat := 0x80

/-- TIME_REF_LOSS: CK_TIME continues from SYSCLK with the measured difference `diff` added to both frequencies (R40, R377).
The difference is what the device measured last, in 2^-32 ns per ns. -/
def timeRefLoss (diff : Int) (s : State) : State :=
  if s.time.refApplied then s
  else
    let s := { s with time := { s.time with refDiff := diff, refApplied := true } }
    s.each (List.range 4) fun d s =>
      let a := clkPage d
      (((s.wr CLK_REF_STATUS.time_ref_present a 0).wr CLK_REF_STATUS.time_ref_lost a 1).wr CLK_REF_STATUS.time_ref_fallback a 1).count
        a evRefLoss

/-- TIME_REF_RETURN: the difference is removed (R377). -/
def timeRefReturn (s : State) : State :=
  let s := { s with time := { s.time with refApplied := false } }
  s.each (List.range 4) fun d s =>
    (s.wr CLK_REF_STATUS.time_ref_present (clkPage d) 1).wr CLK_REF_STATUS.time_ref_fallback (clkPage d) 0

/-- What R377 adds to the frequency adjustment of both counters while TIME_REF is lost. -/
def State.refAdjust (s : State) : Int := if s.time.refApplied then s.time.refDiff else 0

/-- One nanosecond of SYSCLK passes (the tick of an idle step): both counters advance by 1 ns plus their adjustments. -/
def State.tickTime (s : State) : State :=
  let r := s.refAdjust
  let t0 := ((s.time.t0 + nsUnit : Nat) + s.time.dom0.freq + r) % (timeWrap : Int)
  let t1 := ((s.time.t1 + nsUnit : Nat) + s.time.dom1.freq + r) % (timeWrap : Int)
  { s with time := { s.time with t0 := t0.toNat, t1 := t1.toNat } }

end Sys2Proof.Machine
end

