-- ==== Sys2Proof/Machine/Groups.lean ====
section
/-! DEFINITION. Group entries and what they imply (R263 to R267, R270, R275, R283), residual areas' places (R338 to R344), GROUP_WRITE,
GROUP_DISABLE, QUOTA_SET, replication sets (R267, R291) and triggers (R285, R286). -/

namespace Sys2Proof.Machine

/-! ### Fields of a group entry (R263, R339) -/

def Group.g (x : Group) (i : Nat) : Nat := x.q.getD i 0
def Group.job (x : Group) : Nat := bits (x.g 0) 48 16
def Group.memberCount (x : Group) : Nat := bits (x.g 0) 20 18
def Group.chunkElements (x : Group) : Nat := bits (x.g 0) 0 15
def Group.mask (x : Group) : Nat := x.g 1
def Group.inFmt (x : Group) : Nat := bits (x.g 2) 60 4
def Group.inMx (x : Group) : Bool := bit (x.g 2) 59
def Group.resFmt (x : Group) : Nat := bits (x.g 2) 55 4
def Group.resMx (x : Group) : Bool := bit (x.g 2) 54
def Group.op (x : Group) : Nat := bits (x.g 2) 50 4
def Group.mode (x : Group) : Nat := bits (x.g 2) 47 3
def Group.rounding (x : Group) : Nat := bits (x.g 2) 44 3
def Group.saturate (x : Group) : Bool := bit (x.g 2) 43
def Group.lag (x : Group) : Bool := bit (x.g 2) 42
def Group.flight (x : Group) : Nat := bits (x.g 2) 36 6
def Group.replSet (x : Group) : Nat := bits (x.g 2) 18 14
def Group.timeout (x : Group) : Nat := bits (x.g 2) 0 16
def Group.stride (x : Group) : Nat := bits (x.g 3) 32 32
def Group.codec (x : Group) : Nat := bits (x.g 3) 24 8
def Group.part (x : Group) : Nat := bits (x.g 4) 60 4
def Group.feedback (x : Group) : Bool := bit (x.g 4) 59
def Group.keep (x : Group) : Nat := bits (x.g 4) 48 8
def Group.resChunks (x : Group) : Nat := bits (x.g 4) 0 32

/-- SUM or MEAN. -/
def Group.sums (x : Group) : Bool := x.op == opSum || x.op == opMean
/-- The halls of the mask, ascending, and their number k. -/
def Group.hallList (x : Group) : List Nat := (List.range 64).filter fun h => bit x.mask h
def Group.k (x : Group) : Nat := x.hallList.length
/-- Rank of a hall among the halls of the mask (R315). -/
def Group.rank (x : Group) (h : Nat) : Nat := (x.hallList.filter fun i => decide (i < h)).length

/-- Partial format of R241, as (format, mx). -/
def Group.partFmt (x : Group) : Nat × Bool := partialFmt x.op x.inFmt x.inMx x.mode x.part

/-- Elements of the input accumulate in the wide class (R239). -/
def Group.wide (x : Group) : Bool := wideClass x.inFmt x.inMx

/-- The landing sums exactly: EXACT, SPLIT and COMPRESSED, and FAST of integers (R270). -/
def Group.exactSums (x : Group) : Bool := x.sums && (x.mode != mFast || (isInt x.inFmt && !x.inMx))

/-- a of R270: bytes of an accumulator position of SUM and MEAN. -/
def Group.accSize (x : Group) : Nat := if x.exactSums then accBytes x.wide else if x.inFmt = 0 then 8 else 4

/-! ### Fragments (R275, R283, R342) -/

/-- The largest multiple of 32 elements whose packed size is at most 8,192 bytes. -/
def maxBlocks (fmt : Nat) (mx : Bool) : Nat :=
  if mx then 8192 / mxBlockBytes fmt * 32 else 65536 / fmtBits fmt / 32 * 32

/-- F of R275. -/
def Group.fragElems (x : Group) : Nat :=
  let p := x.partFmt
  if p.1 = 14 then 128 else if x.sums && !p.2 then (if p.1 = 1 then 2048 else if p.1 = 0 then 1024 else maxBlocks p.1 p.2)
  else maxBlocks p.1 p.2

/-- Elements of a result fragment: s15 of R317. FP6 elements fill whole bytes four at a time (DEDUCED from R125, R126). -/
def Group.resElems (x : Group) : Nat :=
  if x.resFmt = 14 then 128
  else if x.resMx then maxBlocks x.resFmt true
  else let n := 65536 / fmtBits x.resFmt; if fmtBits x.resFmt = 6 then n / 4 * 4 else n

/-- Elements P of the partial of a chunk of `n` elements (R275). -/
def Group.partElems (x : Group) (n : Nat) : Nat :=
  if x.mode = mCompressed ∧ x.sums = true then cdiv n 128 * x.keep else n

/-- Fragments of a hall's partial whose count is `n`. -/
def Group.fragCount (x : Group) (n : Nat) : Nat := if n = 0 then 1 else cdiv (x.partElems n) x.fragElems

/-! ### Claim costs (R270) -/

/-- Payload at which `n` elements are costed. -/
def costBytes (fmt : Nat) (mx : Bool) (n : Nat) : Nat := if fmt = 14 then 48 * n else packedBytes fmt mx n

/-- Treads of a frame of payload `p`. -/
def frameTreads (p : Nat) : Nat := cdiv (118 + p) 256

/-- Treads of `total` elements in fragments of `per`; one frame where there is none. -/
def fragTreads (fmt : Nat) (mx : Bool) (total per : Nat) : Nat :=
  if total = 0 ∨ per = 0 then frameTreads 0
  else total / per * frameTreads (costBytes fmt mx per) +
    (if total % per = 0 then 0 else frameTreads (costBytes fmt mx (total % per)))

def Group.partTreads (x : Group) : Nat :=
  fragTreads x.partFmt.1 x.partFmt.2 (x.partElems x.chunkElements) x.fragElems
def Group.resTreads (x : Group) : Nat := fragTreads x.resFmt x.resMx x.chunkElements x.resElems

/-- Window bytes of a landing: accumulators, or the packed input elements, and in SPLIT and COMPRESSED the partials of the other
halls for a head. -/
def Group.windowBytes (x : Group) (kind : LandingKind) : Nat :=
  let e := x.chunkElements
  let base := if x.sums then e * x.accSize else packedBytes x.inFmt x.inMx e
  if kind = .head ∧ (x.mode = mSplit ∨ x.mode = mCompressed) then base + e * 4 * (x.k - 1) else base

/-- RESULT treads of a claim: `pass` for a head claimed under R280. -/
def Group.claimTreads (x : Group) (kind : LandingKind) (pass : Bool) : Nat :=
  match kind with
  | .die => 0
  | .relay => x.partTreads
  | .head => (if pass || x.k == 1 then 0 else x.partTreads) + x.resTreads

/-! ### Residual areas (R338 to R344) -/

/-- The group keeps residual state. -/
def Group.residual (x : Group) : Bool := x.mode == mCompressed && x.feedback && x.resChunks != 0

/-- Size of one area of the group. -/
def Group.areaBytes (x : Group) : Nat := 64 + 1024 * cdiv x.chunkElements 128

/-- Home die of an area. -/
def areaDie (g c : Nat) : Nat := Nat.xor (g % 4) (c % 4)

/-- Areas of group number `g` homed on die `d`. -/
def Group.areasOn (x : Group) (g d : Nat) : Nat :=
  if x.residual = false then 0
  else
    let c0 := Nat.xor (g % 4) d
    x.resChunks / 4 + if c0 < x.resChunks % 4 then 1 else 0

/-- The area of chunk `c` lies in the spill region of its home die. -/
def Group.spilled (x : Group) (g c : Nat) : Bool := decide (x.areas.getD (areaDie g c) 0 ≤ c / 4)

/-- Bytes that the areas of every group but `g` take on die `d`: in the DRAM region and in the spill region. -/
def State.areaUse (s : State) (g d : Nat) : Nat × Nat :=
  s.coll.groups.foldl (fun a e =>
    if e.1 = g then a
    else (a.1 + e.2.areas.getD d 0 * e.2.areaBytes, a.2 + (e.2.areasOn e.1 d - e.2.areas.getD d 0) * e.2.areaBytes)) (0, 0)

/-- Areas of a new entry of group `g` that go to the DRAM region of die `d`, after the 32 KiB index; none where the rest does not
fit in the spill region (R344, R352, R360). -/
def State.placeAreas (s : State) (g : Nat) (x : Group) (d : Nat) : Option Nat :=
  let used := s.areaUse g d
  let m := x.areasOn g d
  let dram := s.rd F2F_REGION.res_mib (f2fPage d) * 1048576 - 32768 - used.1
  let k := min m (dram / x.areaBytes)
  let spill := if bit s.boot.lpUnused d then 0 else Sparse.get 16 s.coll.spillGib d * 1073741824 - used.2
  if (m - k) * x.areaBytes ≤ spill then some k else none

/-! ### GROUP_WRITE (R265, R340, R352) -/

/-- The codec check (R340). -/
def Group.codecOk (x : Group) : Bool :=
  if x.mode != mCompressed then x.codec == 0 && x.g 4 == 0 && x.g 5 == 0
  else decide (1 ≤ x.codec) && decide (x.codec ≤ 3) && x.sums && !(isInt x.inFmt && !x.inMx)
    && decide (4 ≤ x.part) && decide (x.part ≤ 9)
    && (if x.codec = 2 then [32, 64, 96, 128].contains x.keep else x.keep == 128)
    && x.chunkElements % 128 == 0 && (x.feedback || x.resChunks == 0)
    && x.g 5 == 0 && bits (x.g 4) 56 3 == 0 && bits (x.g 4) 32 16 == 0

/-- Member records strictly ascend. -/
def ascending : List GroupMember → Bool
  | a :: b :: l => decide (a.index < b.index) && ascending (b :: l)
  | _ => true

/-- The conditions of R265 that complete with INVALID: entry `x` (owner aside), list length `len`, job of D0. -/
def Group.valid (x : Group) (pl : Plan) (job len : Nat) : Bool :=
  let own := x.halls.getD pl.hall 0
  comboOk x.op x.inFmt x.inMx x.resFmt x.resMx x.mode && x.codecOk && x.job == job
    && decide (x.memberCount ≤ 131072) && decide (x.mask < 2 ^ (2 ^ pl.n))
    && x.halls.foldl (· + ·) 0 == x.memberCount
    && (List.range 64).all (fun h => bit x.mask h == (x.halls.getD h 0 != 0))
    && x.members.length == own && ascending x.members
    && x.members.all (fun m => decide (m.index < x.memberCount) && feaHall m.fea == pl.hall && feaRail m.fea == pl.rail)
    && len == 256 + 16 * own && decide (x.chunkElements ≤ 16384) && (!x.inMx || x.chunkElements % 32 == 0)

/-- Bytes a member list takes in each die's member-list part (R352). -/
def listBytes (n : Nat) : Nat := cdiv (256 + 24 * n) 4096 * 4096

/-- A landing of the group is not FREE. -/
def State.groupBusy (s : State) (g : Nat) : Bool := s.coll.dir.any fun e => e.key.group == g && decide (e.landings ≠ [])

/-- A die is in reset or reloading (R407). -/
def State.dieReloading (s : State) : Bool := (List.range 4).any fun d => s.rd CTL_DIE_STATE.state (ctlDiePage d) != 0

/-- Quadword `i` of a group entry without its reserved bits, which read as zero (R10, R263). -/
def groupKept (i v : Nat) : Nat :=
  match i with
  | 0 => setBits (setBits v 38 2 0) 15 5 0
  | 2 => setBits (setBits v 32 4 0) 16 2 0
  | 3 => setBits v 0 24 0
  | 6 | 7 => 0
  | _ => v

/-- The staged group: entry with its owner set, hall counts and member records (R263, R264). -/
def State.stagedGroup (s : State) (n off list len ring : Nat) : Group :=
  let e := s.staged n off 64
  let q := (List.range 8).map fun i => groupKept i (leAt e (8 * i) 8)
  let l := s.staged n list len
  { q := setBits (q.getD 0 0) 40 8 n :: q.tail
    halls := (List.range 64).map fun h => leAt l (4 * h) 4
    members := (List.range ((len - 256) / 16)).map fun i =>
      ⟨bits (leAt l (256 + 16 * i) 8) 0 20, bits (leAt l (256 + 16 * i) 8) 32 32, leAt l (264 + 16 * i) 8⟩
    ring := s.rd CTL_RING_CFG.event_ring (ringBlock ring)
    areas := [0, 0, 0, 0] }

/-- The state with group `g`'s entry. -/
def State.setGroup (s : State) (g : Nat) (x : Group) : State :=
  { s with coll := { s.coll with groups := Sparse.set s.coll.groups g x } }

/-- GROUP_WRITE by session `n` from ring `r` with descriptor words `d`: the status and the state (R265). -/
def State.opGroupWrite (s : State) (n r : Nat) (d : List Nat) : Nat × State :=
  let job := bits (d.getD 0 0) 32 16
  let g := bits (d.getD 1 0) 0 16
  let len := bits (d.getD 4 0) 0 32
  if !stagingOk (d.getD 2 0) 64 || !stagingOk (d.getD 3 0) len then (stPermission, s)
  else match s.boot.plan with
    | none => (stBusy, s)
    | some pl =>
      let x := s.stagedGroup n (d.getD 2 0) (d.getD 3 0) len r
      if !x.valid pl job len then (stInvalid, s)
      else if s.groupBusy g || s.dieReloading then (stBusy, s)
      else
        let lists := s.coll.groups.foldl (fun a e => if e.1 = g then a else a + listBytes e.2.members.length) 0
        let places := (List.range 4).map fun i => s.placeAreas g x i
        if 1073741824 < lists + listBytes x.members.length then (stQuota, s)
        else if places.any fun p => p.isNone then
          (stQuota, s.each (List.range 4) fun i s => s.iff (places.getD i none).isNone fun s => s.irq (galPage i) 9)
        else
          let s := s.setGroup g { x with areas := places.map fun p => p.getD 0 }
          let s := { s with coll := { s.coll with areas := s.coll.areas.filter fun e => e.1 / 2 ^ 32 != g } }
          (stOk, s.each (List.range 4) fun i s => s.irq (grpPage i) 4)

/-- member_count set to 0 in every copy (R266). -/
def State.disableGroup (s : State) (g : Nat) : State :=
  let x := s.group g
  if x.memberCount = 0 then s
  else
    let s := s.setGroup g { x with q := setBits (x.g 0) 20 18 0 :: x.q.tail }
    s.each (List.range 4) fun i s => s.irq (grpPage i) 5

/-- GROUP_DISABLE (R266). -/
def State.opGroupDisable (s : State) (d : List Nat) : Nat × State :=
  let job := bits (d.getD 0 0) 32 16
  let g := bits (d.getD 1 0) 0 16
  if (s.group g).memberCount = 0 then (stOk, s)
  else if (s.group g).job ≠ job then (stPermission, s)
  else (stOk, s.disableGroup g)

/-! ### Quotas (R271) -/

/-- Quota of a job: contexts and KiB. -/
def State.quota (s : State) (job : Nat) : Nat × Nat := Sparse.get (65536, 524288) s.coll.quotas job

/-- Use of a job: contexts and KiB over every landing of the package. -/
def State.jobUse (s : State) (job : Nat) : Nat × Nat :=
  s.coll.dir.foldl (fun a e => if e.job = job then e.landings.foldl (fun a l => (a.1 + 1, a.2 + l.kib)) a else a) (0, 0)

/-- Use of a core: contexts and KiB. -/
def State.coreUse (s : State) (c : Nat) : Nat × Nat :=
  s.coll.dir.foldl (fun a e => e.landings.foldl (fun a l => if l.core = c then (a.1 + 1, a.2 + l.kib) else a) a) (0, 0)

/-- QUOTA_SET: D2 contexts, D3 KiB, for the job in D0. The registers that show them hold 17 and 20 bits; a larger value admits
as the largest value does, because no use exceeds it. -/
def State.opQuotaSet (s : State) (d : List Nat) : Nat × State :=
  let job := bits (d.getD 0 0) 32 16
  (stOk, { s with coll := { s.coll with quotas := Sparse.set s.coll.quotas job (bits (d.getD 2 0) 0 32, bits (d.getD 3 0) 0 32) } })

/-! ### Replication sets (R267, R291) -/

/-- GRP_REPL_LOAD: GRP_REPL_MAP of die `d` takes the selected set. -/
def grpReplLoad (d : Nat) (s : State) : State :=
  let v := Sparse.get 0 s.coll.repl (d * 16384 + s.rd GRP_REPL_SEL.set (grpPage d))
  s.each (List.range 8) fun i s => s.wr GRP_REPL_MAP.ports (grpPage d) (bits v (64 * i) 64) i

/-- GRP_REPL_STORE: the selected set of die `d` takes GRP_REPL_MAP. -/
def grpReplStore (d : Nat) (s : State) : State :=
  let v := (List.range 8).foldl (fun a i => a + s.rd GRP_REPL_MAP.ports (grpPage d) i * 2 ^ (64 * i)) 0
  let k := d * 16384 + s.rd GRP_REPL_SEL.set (grpPage d)
  { s with coll := { s.coll with repl := if v = 0 then Sparse.del s.coll.repl k else Sparse.set s.coll.repl k v } }

/-! ### Triggers (R285, R286) -/

def State.trigger (s : State) (t : Nat) : Trigger := Sparse.get Trigger.idle s.coll.triggers t

def State.setTrigger (s : State) (t : Nat) (x : Trigger) : State :=
  { s with coll := { s.coll with triggers := Sparse.set s.coll.triggers t x } }

/-- The registers and the event of one firing of trigger `t` (R292); the PAGE_IRQ action sets fired. -/
def State.fired (s : State) (t : Nat) (pageIrq : Bool) : State :=
  let a := trgPage (t / 16384)
  let s := (s.inc TRG_LAST_FIRED.fires a).count a 0x80
  s.iff pageIrq fun s => (s.wr TRG_LAST_FIRED.index a (t % 16384)).irq a 4

/-- One event counts at trigger `t`, or, with `arm`, it is armed with threshold 0 and fires once. `fuel` is how many CHAIN actions
may still follow, 16 in all. -/
def State.triggerEvent (fuel : Nat) (arm : Bool) (t : Nat) (s : State) : State :=
  let x := s.trigger t
  let n := if arm then x.count else (x.count + 1) % 2 ^ 32
  let fires := arm || (x.state == 1 && n == bits x.source 0 32)
  let y := if !fires then { x with count := n }
    else if arm then { x with state := 2 }
    else if x.rearm then { x with count := 0 }
    else { x with state := 2, count := n }
  let s := if x.state = 0 then s else s.setTrigger t y
  if x.state = 0 ∨ fires = false then s
  else
    let act := bits x.action 60 4
    let target := bits x.action 32 16
    let s := s.fired t (act == 3)
    if act = 2 then s.disableGroup target
    else if act = 1 then match fuel with
      | 0 => (s.irq (trgPage (t / 16384)) 5).count (trgPage (t / 16384)) 0x81
      | k + 1 => State.triggerEvent k false target s
    else s

/-- A source event of kind `src` (1 CHUNK_DONE, 2 CHUNK_INCOMPLETE) of (group, step) counts at every trigger that names it. -/
def State.triggerSource (s : State) (src group step : Nat) : State :=
  let ts := s.coll.triggers.filter fun e =>
    bits e.2.source 60 4 == src && bits e.2.source 32 16 == group && bits e.2.action 0 16 == step
  s.each (ts.map fun e => e.1) fun t s => s.triggerEvent 16 false t

/-- TRIGGER_ARM (R285, R286). -/
def State.opTriggerArm (s : State) (d : List Nat) : Nat × State :=
  let job := bits (d.getD 0 0) 32 16
  let t := bits (d.getD 1 0) 0 16
  let src := bits (d.getD 2 0) 60 4
  if (src = 1 ∨ src = 2) ∧ (s.group (bits (d.getD 2 0) 32 16)).job ≠ job then (stPermission, s)
  else
    let s := s.setTrigger t ⟨1, bit (d.getD 1 0) 16, d.getD 2 0, d.getD 3 0, d.getD 4 0, 0⟩
    (stOk, s.iff (bits (d.getD 2 0) 0 32 == 0) fun s => s.triggerEvent 16 true t)

end Sys2Proof.Machine
end

