-- ==== Sys2Proof/Machine/Landing.lean ====
section
/-! DEFINITION. Landings: destination lookup of the device's own frames (R141, R147), acceptance (R268, R269), claims (R270, R271), dispatch,
pass-through (R277 to R280), abandonment (R281), timeouts (R282), the hall stage, merges, lag records and residual areas
(R272, R287, R345 to R348). -/

namespace Sys2Proof.Machine

/-! ### Destinations in the own hall (R141, rows 3 to 7) -/

/-- The leaf port a flooded copy takes: the uplink 0 port where one of its sub-ports is in service, else uplink 1 (R147). -/
def State.floodPort (s : State) (leaf : Nat) : Option Nat :=
  let ls := (s.leafPorts leaf).filter fun l => s.inService l
  match ls.find? fun l => (s.portRec (l / 4)).uplink == 0 with
  | some l => some l
  | none => ls.find? fun l => (s.portRec (l / 4)).uplink == 1

/-- Leaves the plan serves, ascending. -/
def State.leaves (s : State) : List Nat :=
  (List.range 1023).filter fun n => (List.range 512).any fun p =>
    (s.portRec p).role == roleDown && (s.portRec p).leaf == n && s.boot.plan.isSome

/-- Ports of a flood from die `d`, `from_` the leaf it arrived from. -/
def State.floodPorts (s : State) (from_ : Option Nat) : List Nat :=
  (s.leaves.filter fun n => from_ != some n).filterMap fun n => s.floodPort n

/-- Destinations of an FEA as die `d` looks them up, rows 3 and 5 to 7 of R141; `flood` counts where the foyer was hit. -/
def State.destinations (s : State) (d : Nat) (from_ : Option Nat) (fea : Nat) : List Dest × State :=
  if feaHall fea ≠ s.planHall then ([.hall (feaHall fea)], s)
  else match s.epFind d fea with
    | some i => match s.ep? d i with
      | some e => ([.leaf e.leaf], s)
      | none => ([.leaf (feaLeaf fea)], s)
    | none =>
      if s.inFoyer fea && s.flag FWD_LEARN_CFG.flood_enable (fwdPage d) then
        ((s.floodPorts from_).map fun l => Dest.port l, s.count (fwdPage d) evFlood)
      else ([.leaf (feaLeaf fea)], s)

/-- The copies of one frame toward a list of addressees, each with its own header. -/
def State.copiesTo (s : State) (d : Nat) (from_ : Option Nat) (hs : List CopyHdr) : List Copy × State :=
  hs.foldl (fun a h =>
    let r := a.2.destinations d from_ h.fea
    (a.1 ++ r.1.map fun x => ⟨x, false, some h, false⟩, r.2)) ([], s)

/-- Every copy marked as one of several where there are several. -/
def markMc (cs : List Copy) : List Copy := if cs.length ≤ 1 then cs else cs.map fun c => { c with mc := true }

/-- Frame `id`, held by the caller, goes to each addressee of `hs`. -/
def State.placeTo (s : State) (id d : Nat) (hs : List CopyHdr) : State :=
  let (cs, s) := s.copiesTo d none hs
  s.place id (markMc cs)

/-- A frame of the device of one addressee, in FORWARD treads of die `d` (R118, R165): sent if treads are free, else discarded under
NO_TREAD (R177). -/
def State.sendFrom (s : State) (d c fea : Nat) (h : Hjt) : State :=
  let u := hjtFrame (s.fabricAddr fea) (s.fabricAddr (s.ownFea 1)) c 64 (s.rd SWP_PARSE_CFG.hjt_port (swpPage 0)) h []
  let f := Frame.mk u 0xFFFF d .forward (treadsOf (wireLen u)) c h.job 1 true true false false
  if f.treads ≤ s.poolFree d .forward then
    let (id, s) := s.newFrame f
    s.placeTo id d [⟨fea, none⟩]
  else s.dropAt (bufPage d) 0x02 c f.src

/-! ### The directory (R267) -/

/-- Home die of a key. -/
def Key.home (k : Key) : Nat := Nat.xor (k.group % 4) (Nat.xor (k.step % 4) (k.chunk % 4))

/-- The entry of a key, a tombstone included. -/
def State.entry? (s : State) (k : Key) : Option Entry := s.coll.dir.find? fun e => decide (e.key = k)

/-- The live entry of a key. -/
def State.live? (s : State) (k : Key) : Option Entry := s.coll.dir.find? fun e => decide (e.key = k) && e.tomb.isNone

def State.setDir (s : State) (l : List Entry) : State := { s with coll := { s.coll with dir := l } }

/-- An entry replaced, or added at the end. -/
def State.setEntry (s : State) (e : Entry) : State :=
  if (s.entry? e.key).isSome then s.setDir (s.coll.dir.map fun x => if x.key = e.key then e else x)
  else s.setDir (s.coll.dir ++ [e])

/-- The entry of a key changed. -/
def State.updEntry (s : State) (k : Key) (f : Entry → Entry) : State :=
  s.setDir (s.coll.dir.map fun x => if x.key = k then f x else x)

/-- Entries homed on a die, tombstones included. -/
def State.dirCount (s : State) (d : Nat) : Nat := (s.coll.dir.filter fun e => e.key.home == d).length

/-- The head or relay landing of an entry, and its landing on a die. -/
def Entry.head? (e : Entry) : Option Landing := e.landings.find? fun l => decide (l.kind ≠ .die)
def Entry.on? (e : Entry) (d : Nat) : Option Landing := e.landings.find? fun l => l.die == d

/-- A landing of an entry changed, by its die: an entry has at most one landing on a die. -/
def Entry.setLanding (e : Entry) (l : Landing) : Entry :=
  { e with landings := e.landings.map fun x => if x.die = l.die then l else x }

def State.setLanding (s : State) (k : Key) (l : Landing) : State := s.updEntry k fun e => e.setLanding l

/-- A landing of a live entry. -/
def State.landing? (s : State) (k : Key) (d : Nat) : Option Landing :=
  match s.live? k with
  | some e => e.on? d
  | none => none

/-! ### Cores and waiting events (R315) -/

def State.core (s : State) (c : Nat) : Core := Sparse.get Core.fresh s.cores c
def State.setCore (s : State) (c : Nat) (x : Core) : State := { s with cores := Sparse.set s.cores c x }

/-- An event of a landing joins its core's waiting events. -/
def State.raise (s : State) (c : Nat) (e : FlightEvent) : State :=
  let x := s.core c
  (s.setCore c { x with events := x.events ++ [e] }).iff (decide (4 ≤ x.ctxs.length)) fun s => s.count (cmbPage c) 0x84

/-- An event without input. -/
def plainEvent (k : Key) (d code : Nat) : FlightEvent := ⟨k, d, code, 0, 0, 0, none, [], 0, false, false, []⟩

/-- The frame that carries an event's input is released. -/
def State.dropEvent (s : State) (e : FlightEvent) : State :=
  match e.frame with
  | some id => s.release id
  | none => s

/-! ### Claims (R270, R271, R388, R391, R442) -/

/-- Context budget of core `c`: 0 while it is retired, its cluster leaves service (R388 to R390) or its die is in reset (R407), and scaled by the
admission level. -/
def State.ctxBudget (s : State) (c : Nat) : Nat :=
  let d := c / 8
  if bit (s.rd CTL_RETIRE.retired ctlPkgPage) c || bit (s.rd PWR_DIE_CTRL.gate_mask (pwrDiePage d)) (c % 8 / 2)
      || s.rd PWR_DIE_STATUS.state (pwrDiePage d) != 0 || s.rd CTL_DIE_STATE.state (ctlDiePage d) == 2 || (d == 0 && s.flag PWR_PKG_CTRL.standby_req pwrPkgPage) then 0
  else
    -- a cluster runs at the higher of the package notch and its die's thermal notch (R392)
    let a := min (s.rd PWR_THROTTLE.admission pwrPkgPage) (8 - (s.rd PWR_DIE_STATUS.thermal_notch (pwrDiePage d) - 32))
    s.rd LND_CORE_BUDGET.ctx (lndPage d) (c % 8) * a / 8

/-- SRAM budget of core `c` in KiB. -/
def State.sramBudget (s : State) (c : Nat) : Nat := s.rd LND_CORE_BUDGET.sram_kib (lndPage (c / 8)) (c % 8)

/-- The first of the five checks of R270 that fails on core `c`, by its code of LND_LAST_REFUSAL; 0 where all have room. A budget or quota
that use has reached admits nothing (R271). -/
def State.claimReason (s : State) (c job kib treads : Nat) : Nat :=
  let u := s.coreUse c
  let j := s.jobUse job
  let q := s.quota job
  if s.ctxBudget c < u.1 + 1 then 1
  else if s.sramBudget c ≤ u.2 ∨ s.sramBudget c < u.2 + kib then 2
  else if q.1 < j.1 + 1 then 3
  else if q.2 ≤ j.2 ∨ q.2 < j.2 + kib then 4
  else if s.poolFree (c / 8) .result < treads then 5
  else 0

/-- The two cores of a cluster in the order a claim tries them: more free landing SRAM first, the lower number on a tie. -/
def State.claimOrder (s : State) (cluster : Nat) : List Nat :=
  let a := 2 * cluster
  let free := fun c => s.sramBudget c - (s.coreUse c).2
  if free a < free (a + 1) then [a + 1, a] else [a, a + 1]

/-- A claim for key `k` from cluster `cluster` (of the package), `pass` for a head under R280: the landing, with its reservation
made and counted, or none, counted and recorded. A disabled group claims nothing more (R266). -/
def State.claim (s : State) (k : Key) (x : Group) (kind : LandingKind) (pass : Bool) (cluster : Nat) : Option Landing × State :=
  let kib := cdiv (x.windowBytes kind) 1024
  let treads := x.claimTreads kind pass
  let d := cluster / 4
  let order := s.claimOrder cluster
  match order.find? fun c => x.memberCount != 0 && s.claimReason c x.job kib treads == 0 with
  | some c =>
    let l := Landing.mk kind d c (if pass then .gallery else .open_) kib treads 0 0 pass false [] (kib * 1024) 0 [] [] 0 .none
    (some l, (((s.poolTake d .result treads).count (lndPage d) 0x80).raise c (plainEvent k d 0)))
  | none =>
    let c := order.getD 1 0
    let a := lndPage d
    let s := ((s.wr LND_LAST_REFUSAL.group a k.group).wr LND_LAST_REFUSAL.job a x.job).wr LND_LAST_REFUSAL.core a c
    (none, ((s.wr LND_LAST_REFUSAL.reason a (s.claimReason c x.job kib treads)).count a 0x81).irq a 4)

/-! ### Residual areas (R344 to R348) -/

/-- Key of an area. -/
def areaKey (g c : Nat) : Nat := g * 2 ^ 32 + c

def State.area (s : State) (g c : Nat) : Area := Sparse.get Area.new s.coll.areas (areaKey g c)
def State.setArea (s : State) (g c : Nat) (x : Area) : State :=
  { s with coll := { s.coll with areas := Sparse.set s.coll.areas (areaKey g c) x } }

/-- The entry's head uses a residual area (R345): a head of the own hall's chunk below residual_chunks. -/
def State.usesArea (s : State) (k : Key) : Bool :=
  let x := s.group k.group
  x.residual && decide (k.chunk < x.resChunks) && k.origin == s.planHall

/-- RESIDUAL_PASS_ADVANCE: an entry of the step the area is at enters PASS (R347). -/
def State.passAdvance (s : State) (k : Key) : State :=
  let a := s.area k.group k.chunk
  s.iff (s.usesArea k && !a.fresh && a.next == k.step) fun s =>
    let b := if a.cur then { a with x := a.y } else { a with y := a.x }
    (s.setArea k.group k.chunk { b with prevValid := true, next := (k.step + 1) % 65536 }).count
      (galPage (areaDie k.group k.chunk)) 0x89

/-- A landing holds its residual area (R345, R349). -/
def Landing.holdsArea (l : Landing) : Bool := decide (l.stage = .copying ∨ l.stage = .held ∨ l.stage = .writeBack)

/-- A held area is released unchanged (R349). -/
def State.releaseArea (s : State) (k : Key) (l : Landing) : State :=
  s.iff l.holdsArea fun s =>
    s.setArea k.group k.chunk { s.area k.group k.chunk with held := false }

/-- An area is made fresh by anything but GROUP_WRITE (R348). -/
def State.freshenArea (s : State) (g c : Nat) : State :=
  ({ s with coll := { s.coll with areas := Sparse.del s.coll.areas (areaKey g c) } }).count (galPage (areaDie g c)) 0x8B

/-! ### Freeing landings -/

/-- A gap begins where the array has nothing queued and no pass in progress (R308). -/
def Array_.gapFrom (x : Array_) (now : Nat) : Array_ :=
  if x.queue.isEmpty && x.gapAt.isNone && decide (x.bank0.state ≠ .accumulating ∧ x.bank1.state ≠ .accumulating) then
    { x with gapAt := some now }
  else x

/-- What a core holds of landing (k, d) goes: waiting events, its activation, its queued passes and its banks (R282, R306,
R335). Each pass so abandoned is counted. -/
def State.stopLanding (s : State) (k : Key) (l : Landing) : State :=
  let x := s.core l.core
  let mine := fun (e : FlightEvent) => decide (e.key = k) && e.die == l.die
  let minePass := fun (p : PassReq) => decide (p.key = k) && p.die == l.die
  let s := s.each (x.events.filter mine) fun e s => s.dropEvent e
  let s := s.each (x.ctxs.filter fun a => mine a.2.event) fun a s => s.dropEvent a.2.event
  let bank := fun (b : Bank) => match b.pass with
    | some p => if minePass p then { Bank.fresh with tag := b.tag } else b
    | none => b
  let gone := (x.array.queue.filter minePass).length + ([x.array.bank0, x.array.bank1].filter fun b =>
    match b.pass with
    | some p => minePass p
    | none => false).length
  let a := { x.array with queue := x.array.queue.filter (fun p => !minePass p), bank0 := bank x.array.bank0, bank1 := bank x.array.bank1 }
  let y := { x with
    events := x.events.filter fun e => !mine e
    ctxs := x.ctxs.filter fun a => !mine a.2.event
    array := if gone = 0 then a else a.gapFrom s.now }
  let s := s.setCore l.core y
  s.iff (gone != 0) fun s =>
    ((s.inc ARR_PASS_COUNT.abandoned (arrPage l.core) gone).count (arrPage l.core) 0x88 0 gone).irq (arrPage l.core) 6

/-- A landing of entry `k` becomes FREE: what its core holds of it goes, the treads it did not write return, and an area it holds
is released. -/
def State.freeLanding (s : State) (k : Key) (l : Landing) : State :=
  let s := s.stopLanding k l
  let s := (s.poolGive l.die .result l.treads).releaseArea k l
  s.updEntry k fun e => { e with landings := e.landings.filter fun y => y.die != l.die }

/-- The landings of an entry are freed. -/
def State.freeAll (s : State) (e : Entry) : State := s.each e.landings fun l s => s.freeLanding e.key l

/-- An entry becomes a tombstone (R269). -/
def State.bury (s : State) (k : Key) : State :=
  let life := (s.group k.group).timeout * 10000 + 1000000
  s.updEntry k fun e => { e with tomb := some (s.now + life), landings := [], heldFrags := [] }

/-- Fragments held for an entry are discarded (R282). -/
def State.dropHeld (s : State) (e : Entry) : State := s.each e.heldFrags fun f s => s.release f.id

/-! ### NACK and NOTIFY (R132) -/

/-- NACK 0x0001 with RETRY_PASSTHROUGH to a member, echoing its contribution. -/
def State.nack (s : State) (k : Key) (job : Nat) (a : Accepted) : State :=
  let h := { Hjt.zero tNack with flags := 2, job := job, group := k.group, step := k.step, chunk := k.chunk }
  s.sendFrom k.home 7 a.src { h with member := a.member, remote := a.remote, seq := a.seq, check := a.check, code := 1 }

/-- NOTIFY 0x0002 to a member whose contribution the entry had accepted. -/
def State.notify (s : State) (k : Key) (job : Nat) (a : Accepted) : State :=
  let h := { Hjt.zero tNotify with job := job, group := k.group, step := k.step, chunk := k.chunk }
  s.sendFrom k.home 7 a.src { h with member := a.member, code := 2 }

/-- The entry completes INCOMPLETE (R282). An entry in PASS without a head simply ends. -/
def State.incomplete (s : State) (e : Entry) : State :=
  let k := e.key
  let s := (s.freeAll e).dropHeld e
  if e.pass && e.landings.isEmpty then s.bury k
  else
    let s := s.each e.contribs fun a s => s.notify k e.job a
    let s := s.event (s.groupRing k.group) 0x0020 1 (pageCode (lndPage k.home)) k.group (k.step * 2 ^ 32 + k.chunk)
    let s := ((s.count (lndPage k.home) 0x89).irq (lndPage k.home) 5).bury k
    s.triggerSource 2 k.group k.step

/-! ### The catcher (R278) -/

/-- The catcher of hall `h`: the first hall after it, cyclically, in the mask; none where `h` is the only one. -/
def Group.catcher (x : Group) (h : Nat) : Option Nat :=
  ((List.range 63).map fun i => (h + 1 + i) % 64).find? fun j => bit x.mask j

/-- Frame bytes as a pass-through sends them: UNREDUCED set, class TC1 and ECN 0b00 (R118, R123). hop_count and Hop Limit change at S7 (R124). -/
def passBytes (u : List Byte) : List Byte :=
  let u := setWord u 62 (Nat.lor (beAt u 62 2) 0x40)
  patch u 14 (natBe 2 (beAt u 14 2 / 0x1000 * 0x1000 + 1 * 8 * 64 + beAt u 14 2 % 16))

/-- Frame `id` of a hold class becomes one of TC1, a drop class, which uses no deep treads and no headroom (R118, R167): it moves to FORWARD
treads, or is discarded under NO_TREAD where none are free. Whether it goes on, and the state. -/
def State.toDropClass (s : State) (id : Nat) (f : Frame) : Bool × State :=
  let g := { f with bytes := passBytes f.bytes, cls := 1, counted := false }
  let s := s.uncount f
  if f.pool = .forward then (true, s.setFrame id g)
  else if f.treads ≤ s.poolFree f.die .forward then
    (true, ((s.giveTreads f).poolTake f.die .forward f.treads).setFrame id { g with pool := .forward })
  else (false, (s.setFrame id { f with counted := false }).dropAt (bufPage f.die) 0x02 1 f.src)

/-- Frame `id` leaves toward each addressee: every local member, or the catcher. A contribution is passed through; a spine partial
(R280) is forwarded with every field and its class kept. -/
def State.passOn (s : State) (id : Nat) (unreduced : Bool) (feas : List Nat) : State :=
  match s.frame? id with
  | none => s
  | some f =>
    let r := if unreduced then s.toDropClass id f else (true, s)
    if r.1 then r.2.placeTo id f.die (feas.map fun x => ⟨x, none⟩) else r.2.release id

/-- PASS_THROUGH of a contribution: to the catcher, or to every local member where the plan hall is alone (R277, R278). -/
def State.passThrough (s : State) (x : Group) (id d : Nat) : State :=
  let s := s.count (lndPage d) 0x83
  match s.boot.plan with
  | none => s.release id
  | some pl => match x.catcher pl.hall with
    | some h => s.passOn id true [spineFea h pl.rail pl.spine 1]
    | none => s.passOn id true (x.members.map fun m => m.fea)

/-! ### Dispatch (R270, R272, R276) -/

/-- Source format of a contribution's input: its own format. -/
def contribEvent (k : Key) (d id : Nat) (u : List Byte) : FlightEvent :=
  let h := Hjt.decode u
  let p := hjtPayload u
  ⟨k, d, 1, elemCount h.format h.mx p, 0, h.member, some id, p, h.format, h.mx, false, []⟩

/-- An accepted contribution goes to the landing of its die, claimed now where there is none, or is diverted to the head. -/
def State.dispatch (s : State) (k : Key) (x : Group) (id d cluster : Nat) (u : List Byte) : State :=
  match s.live? k with
  | none => s.release id
  | some e => match e.head? with
    | none => s.release id
    | some head =>
      let send := fun (s : State) (l : Landing) =>
        let s := s.setLanding k { l with dispatched := l.dispatched + 1, open_ := l.open_ + 1 }
        s.raise l.core (contribEvent k l.die id u)
      match e.on? d with
      | some l => send s l
      | none =>
        match s.claim k x .die false cluster with
        | (some l, s) => send (s.updEntry k fun e => { e with landings := e.landings ++ [l] }) l
        | (none, s) => send (s.count (lndPage d) 0x82) head

/-- The FRAGMENT event of a held or arriving fragment. -/
def fragmentEvent (k : Key) (x : Group) (d id : Nat) (u : List Byte) : FlightEvent :=
  let h := Hjt.decode u
  let p := hjtPayload u
  ⟨k, d, 4, elemCount h.format h.mx p, h.remote % 2 ^ 32, x.rank (bits h.member 6 6), some id, p, h.format, h.mx, false, []⟩

/-- A fragment is dispatched to the head's flight. -/
def State.dispatchFragment (s : State) (k : Key) (id : Nat) : State :=
  match s.live? k, s.frame? id with
  | some e, some f => match e.head? with
    | some l => (s.setLanding k { l with open_ := l.open_ + 1 }).raise l.core
        (fragmentEvent k (s.group k.group) l.die id f.bytes)
    | none => s.release id
  | _, _ => s.release id

/-- The lag record of R287. -/
def lagRecord (e : Entry) : List Byte :=
  let ts := e.contribs.map fun a => a.at_ / nsUnit
  let t0 := (e.contribs.head?.map fun a => a.at_).getD 0
  let first := t0 / nsUnit
  let sat := fun n => min n (2 ^ 32 - 1)
  let late := (e.contribs.reverse.take 4).map fun a => a.member % 2 ^ 20 * 2 ^ 44 + sat (a.at_ / nsUnit - first)
  quadBytes ([stampOf t0, e.key.group * 2 ^ 48 + e.key.step * 2 ^ 32 + e.key.chunk,
    sat ((ts.getLast?.getD first) - first) * 2 ^ 32 + (b2n e.pass + 2 * b2n e.downgraded) * 2 ^ 24 + e.contribs.length]
    ++ late ++ List.replicate (4 - late.length) 0
    ++ [e.job * 2 ^ 48 + (e.contribs.filter fun a => a.last).length])

/-- LAG_RECORD_WRITE on the home die (R287, R461), while its LPDDR6 is in use (R360), and counted there (R455). -/
def State.writeLag (s : State) (e : Entry) : State :=
  let d := e.key.home
  if bit s.boot.lpUnused d then s
  else
    let k := s.rd CTR_LAG_PRODUCER.producer (ctrDiePage d)
    (({ s with mem := Memory.writeN s.mem (telemetryBase d + 0x80000000 + k % 2 ^ 24 * 64) (lagRecord e) }).wr
      CTR_LAG_PRODUCER.producer (ctrDiePage d) (k + 1)).count (ctrDiePage d) 0x80

/-- An accepted fragment (R276, R280): held while the head is OPEN, dispatched in GALLERY; in PASS the first one claims a head,
and where that is refused it goes to every local member. -/
def State.landFragment (s : State) (k : Key) (x : Group) (id cluster : Nat) : State :=
  match s.live? k with
  | none => s.release id
  | some e => match e.head? with
    | some l =>
      if l.state = .open_ then
        s.updEntry k fun e => { e with heldFrags := e.heldFrags ++ [⟨id, cluster⟩] }
      else s.dispatchFragment k id
    | none =>
      let feas := x.members.map fun m => m.fea
      if e.deliver then s.passOn id false feas
      else match s.claim k x .head true cluster with
        | (some l, s) =>
          let e := { e with landings := e.landings ++ [l], hallDone := true }
          let s := (s.setEntry e).iff x.lag fun s => s.writeLag e
          s.dispatchFragment k id
        | (none, s) => (s.updEntry k fun e => { e with deliver := true }).passOn id false feas

/-! ### Abandonment (R281) -/

/-- An entry whose landings are abandoned takes the first case of R281: its head is OPEN, so the hall stage is not complete, or is complete
with no partial frame sent yet (R289). -/
def Entry.resends (e : Entry) : Bool :=
  !e.sent && e.landings.all fun l => decide (l.kind ≠ .relay) && (decide (l.kind ≠ .head) || decide (l.state = .open_))

/-- LANDING_ABANDON: the landings of an entry are abandoned. In the first case of R281 the members are asked to resend and the entry
enters PASS, keeping its fragments; later, and for a relay, the entry completes INCOMPLETE. -/
def State.abandon (s : State) (k : Key) : State :=
  match s.live? k with
  | none => s
  | some e =>
    if e.landings = [] then s
    else
      let s := (s.count (lndPage k.home) 0x88).irq (lndPage k.home) 6
      if e.resends = false then s.incomplete e
      else
        let s := s.freeAll e
        let s := s.each e.contribs fun a s => s.nack k e.job a
        let s := s.updEntry k fun e => { e with contribs := [], pass := true, hallDone := false, heldFrags := [] }
        let s := s.passAdvance k
        s.each e.heldFrags fun f s => s.landFragment k (s.group k.group) f.id f.cluster

/-- Every entry with a landing that `hit` holds of is abandoned, once. -/
def State.abandonWhere (s : State) (hit : Key → Landing → Bool) : State :=
  let ks := (s.coll.dir.filter fun e => e.landings.any (hit e.key)).map fun e => e.key
  s.each ks fun k s => s.abandon k

/-- Every landing of core `c` is abandoned (R335, R442). -/
def State.abandonCore (s : State) (c : Nat) : State := s.abandonWhere fun _ l => l.core == c

/-! ### Acceptance (R268, R269, R275) -/

/-- A spine partial's header and payload satisfy R275. `src` is the IPv6 source, `e` the entry of its key. -/
def partialOk (pl : Plan) (x : Group) (e : Option Entry) (u : List Byte) : Bool :=
  let h := Hjt.decode u
  let src := ipSrc u
  let fea := src % 2 ^ 32
  let origin := bits h.member 6 6
  let sender := bits h.member 0 6
  let n := bits h.remote 32 32
  let first := bits h.remote 0 32
  let cnt := elemCount h.format h.mx (hjtPayload u)
  let p := x.partElems n
  src / 2 ^ 32 == pl.pfx && feaLeaf fea == 0x3FF && feaRail fea == pl.rail && feaPort fea == pl.spine && feaHall fea == sender
    && bit x.mask sender && bit x.mask origin && bits h.member 12 6 == 0
    && (h.format, h.mx) == x.partFmt
    && (if n = 0 then first == 0 && h.len == 0
        else first % x.fragElems == 0 && decide (first < p) && cnt == min x.fragElems (p - first))
    && (match e with
      | none => true
      | some e => (n == 0 || e.count.isNone || e.count == some n)
          && e.fragments.all fun f => f.hall != origin || f.check == h.check)

/-- The first check of R268 that a CONTRIB to the own spine fails, orders 1 to 6, by its discard reason. -/
def State.contribDrop (s : State) (pl : Plan) (u : List Byte) : Option Nat :=
  let h := Hjt.decode u
  let x := s.group h.group
  let src := ipSrc u
  let fea := src % 2 ^ 32
  let part := bit h.member 19
  let unred := !part && h.unreduced
  let k := Key.mk h.group h.step h.chunk (if unred then feaHall fea else pl.hall)
  let old := s.entry? k
  let e := s.live? k
  let n := if part then bits h.remote 32 32 else elemCount h.format h.mx (hjtPayload u)
  let count := match e with
    | some e => e.count
    | none => none
  let members := match e with
    | some e => e.members
    | none => x.memberCount
  if x.memberCount = 0 ∧ e.isNone then some 0x1F
  else if h.job ≠ x.job ∨ h.mode ≠ x.mode ∨ h.op ≠ x.op ∨
      ((h.format, h.mx) ≠ (x.inFmt, x.inMx) ∧ (h.format, h.mx) ≠ x.partFmt) then some 0x20
  else if part ∧ partialOk pl x e u = false then some 0x25
  else if part = false ∧ unred = true ∧ (members ≤ h.member ∨ src / 2 ^ 32 ≠ pl.pfx ∨ bit x.mask (feaHall fea) = false
      ∨ x.catcher (feaHall fea) ≠ some pl.hall) then some 0x21
  else if part = false ∧ unred = false ∧
      (x.members.any fun m => m.index == h.member && m.fea == fea && src / 2 ^ 32 == pl.pfx) = false then some 0x21
  else if x.chunkElements < n ∨ (n ≠ 0 ∧ count.isSome = true ∧ count ≠ some n) then some 0x22
  else match old with
    | some o =>
      if o.tomb.isSome then some 0x24
      else if part then
        (if o.fragments.any fun f => f.hall == bits h.member 6 6 && f.first == bits h.remote 0 32 then some 0x23 else none)
      else if o.contribs.any fun a => a.member == h.member then some 0x23 else none
    | none =>
      let d := k.home
      if 32768 ≤ s.dirCount d ∨ s.rd PWR_DIE_STATUS.state (pwrDiePage d) ≠ 0 ∨ s.rd CTL_DIE_STATE.state (ctlDiePage d) ≠ 0
      then some 0x26 else none

/-- What the directory keeps of an endpoint contribution. -/
def acceptedOf (u : List Byte) (t0 : Nat) : Accepted :=
  let h := Hjt.decode u
  let crc := leNat (slice u (110 + h.len) 4)
  { member := h.member, src := ipSrc u % 2 ^ 32, seq := h.seq, remote := h.remote, check := h.check,
    token := chainToken h.check h.member crc,
    wp := if h.format = 14 ∧ h.len ≠ 0 then (Wp.read (hjtPayload u)).1.members else 1, at_ := t0, last := h.last,
    identity := h.len == 0 }

/-- What the directory keeps of a fragment. -/
def fragmentOf (u : List Byte) : Fragment :=
  let h := Hjt.decode u
  let crc := leNat (slice u (110 + h.len) 4)
  { hall := bits h.member 6 6, first := bits h.remote 0 32, count := bits h.remote 32 32, check := h.check,
    token := chainToken h.check h.member crc,
    wp := if h.format = 14 ∧ h.len ≠ 0 then (Wp.read (hjtPayload u)).1.members else 0 }

/-- The entry of key `k` at its first acceptance. -/
def State.newEntry (s : State) (k : Key) (x : Group) (pass : Bool) : Entry :=
  ⟨k, x.job, s.now, x.memberCount, none, [], [], pass, false, false, [], [], false, false, false, none⟩

/-- CONTRIB_ACCEPT: frame `id` (bytes `u`, arrived on die `d`, port of cluster `cluster`), held by the caller, is a CONTRIB to the
own spine FEA, service 0x01. Discarded under a reason (the frame stays with the caller), or accepted and its frame taken. -/
def State.acceptContrib (s : State) (id d cluster : Nat) (u : List Byte) : Option Nat × State :=
  match s.boot.plan with
  | none => (some 0x1F, s)
  | some pl =>
    let h := Hjt.decode u
    let x := s.group h.group
    let fea := ipSrc u % 2 ^ 32
    let part := bit h.member 19
    let unred := !part && h.unreduced
    let k := Key.mk h.group h.step h.chunk (if unred then feaHall fea else pl.hall)
    match s.contribDrop pl u with
    | some r =>
      let s := s.iff h.backup fun s => s.count (lndPage d) 0x86
      (some r, s.iff (r == 0x26) fun s => s.irq (lndPage k.home) 7)
    | none =>
      let fresh := (s.entry? k).isNone
      let pass := fresh && !unred && !part && h.retryPass
      let n := if part then bits h.remote 32 32 else elemCount h.format h.mx (hjtPayload u)
      -- a first acceptance makes the entry and, outside PASS, claims its head or relay
      let s := s.iff fresh fun s => s.setEntry (s.newEntry k x pass)
      let (lost, s) :=
        if fresh && !pass then
          match s.claim k x (if unred then .relay else .head) false cluster with
          | (some l, s) => (false, s.updEntry k fun e => { e with landings := [l] })
          | (none, s) => if unred then (true, s.bury k) else (false, s.updEntry k fun e => { e with pass := true })
        else (false, s)
      if lost then (some 0x27, (s.irq (lndPage d) 8).iff h.backup fun s => s.count (lndPage d) 0x86)
      else
        let s := s.iff (fresh && (match s.live? k with
          | some e => e.pass
          | none => false)) fun s => s.passAdvance k
        let down := (unred && (x.mode == mSplit || x.mode == mCompressed) && feaHall fea != pl.hall) ||
          (part && bit h.member 18)
        let s := s.updEntry k fun e => { e with
          count := if e.count.isNone && n != 0 then some n else e.count
          contribs := if part then e.contribs else e.contribs ++ [acceptedOf u s.time.t0]
          fragments := if part then e.fragments ++ [fragmentOf u] else e.fragments
          downgraded := e.downgraded || down }
        let s := s.iff (!part && h.backup) fun s => s.count (lndPage d) 0x85
        let s := s.iff (!part && h.last) fun s => s.count (lndPage d) 0x87
        if part then (none, s.landFragment k x id cluster)
        else
          let inPass := match s.live? k with
            | some e => e.pass
            | none => false
          if inPass then (none, s.passThrough x id d)
          else
            let s := s.iff (!fresh && !unred && h.retryPass) fun s => s.count (lndPage d) 0x84
            (none, s.dispatch k x id d cluster u)

/-! ### Checks and class of what an entry sends (R245, R254, R257, R259) -/

/-- The first fragment of each origin hall. -/
def firstFragments (l : List Fragment) : List Fragment :=
  l.foldl (fun a f => if a.any fun y => y.hall == f.hall then a else a ++ [f]) []

/-- The inputs of what an entry sends: contributions, unless it is in PASS, and for a RESULT the partials. -/
def Entry.inputs (e : Entry) (result : Bool) : List Accepted × List Fragment :=
  (if e.pass then [] else e.contribs, if result then e.fragments else [])

/-- Chunk element count of what an entry sends: that fixed for it, and 0 for the partial of a landing that accepted only identity
contributions (R245, R274), even where a fragment has fixed the count. -/
def Entry.countOf (e : Entry) (result : Bool) : Nat :=
  if !result && e.contribs.all (fun a => a.identity) then 0 else e.count.getD 0

/-- linear_check of a partial or a RESULT. -/
def Entry.checkOf (e : Entry) (x : Group) (result : Bool) : Nat :=
  let (cs, fs) := e.inputs result
  if x.mode = mExact ∧ x.sums = true then
    (cs.foldl (fun a c => a + c.check) 0 + (firstFragments fs).foldl (fun a f => a + f.check) 0) % linP
  else
    fs.foldl (fun a f => Nat.xor a f.token) (cs.foldl (fun a c => Nat.xor a c.token) 0)

/-- members of a WP element (R245). -/
def Entry.wpMembers (e : Entry) (result : Bool) : Nat :=
  let (cs, fs) := e.inputs result
  cs.foldl (fun a c => a + c.wp) 0 + (firstFragments fs).foldl (fun a f => a + f.wp) 0

/-- repro_class of a RESULT: 0 REPRODUCIBLE, 1 DOWNGRADED, 2 NONE (R254, R255). -/
def Entry.repro (e : Entry) (x : Group) : Nat := if x.mode = mFast then 2 else if e.downgraded then 1 else 0

/-! ### The hall stage (R272, R258, R287) -/

/-- Position `p` of an accumulator window. -/
def windowAcc (w : List Host.Cell) (wide : Bool) (p : Nat) : Accum :=
  Accum.ofWord wide (leNat (Memory.readN w (p * accBytes wide) (accBytes wide)))

/-- LINEAR_VERIFY: `none` where the check does not apply, otherwise whether it holds (R258). -/
def State.linearVerify (s : State) (e : Entry) (x : Group) (l : Landing) (result : Bool) : Option Bool :=
  let n := match e.count with
    | some n => n
    | none => 0
  let as := (List.range n).map fun p => windowAcc l.window x.wide p
  if x.mode != mExact || !x.sums || !s.flag XSE_CFG.linear_verify (xsePage l.core) || as.any (fun a => a.special) then none
  else some (linearCheck (as.map fun a => a.v) == e.checkOf x result)

/-- The verdict of a verification applied: counted; a mismatch is recorded and abandons the chunk. The flag says that the landing
may go on. -/
def State.applyVerify (s : State) (k : Key) (l : Landing) (v : Option Bool) : Bool × State :=
  let a := xsePage l.core
  match v with
  | none => (true, s)
  | some true => (true, (s.inc XSE_LINEAR_COUNT.verified a).count a 0x83)
  | some false =>
    let s := (((s.inc XSE_LINEAR_COUNT.mismatched a).wr XSE_LINEAR.group a k.group).wr XSE_LINEAR.step a k.step).wr
      XSE_LINEAR.chunk a k.chunk
    let e := { ErrRec.of l.die 0x010B with block := 0, core := l.core, rail := 3, job := (s.group k.group).job,
                                           group := k.group, step := k.step, chunk := k.chunk, signature := s.free }
    (false, (s.tickFree.hwError e a 5 0 0 0 0x84 0).abandon k)

/-- Every condition of R272 for the end of the hall stage holds. -/
def State.hallReady (s : State) (e : Entry) (x : Group) : Bool :=
  !e.pass && !e.hallDone && e.contribs.length == x.halls.getD e.key.origin 0
    && e.landings.all fun l => decide (l.kind ≠ .die) && l.open_ == 0 && decide (l.state = .open_)
    && !((s.core l.core).events.any fun v => decide (v.key = e.key))
    && !((s.core l.core).ctxs.any fun v => decide (v.2.event.key = e.key))

/-- HALL_STAGE_COMPLETE of key `k`: verification, lag record, then the HALL event of a relay or of a head with k > 1 — after its
residual area, where it uses one — or EMIT. -/
def hallStageComplete (k : Key) (s : State) : State :=
  match s.live? k with
  | none => s
  | some e => match e.head? with
    | none => s
    | some l =>
      let x := s.group k.group
      if s.hallReady e x = false then s
      else match s.applyVerify k l (s.linearVerify e x l false) with
        | (false, s) => s
        | (true, s) =>
          let s := s.iff (x.lag && decide (l.kind = .head)) fun s => s.writeLag e
          let single := decide (l.kind = .head) && x.k == 1
          let area := decide (l.kind = .head) && !single && s.usesArea k
          let m := if single then { l with state := .emit }
            else if area then { l with stage := .waiting }
            else { l with state := if l.kind = .relay then .emit else l.state, hallRaised := true }
          let s := (s.setLanding k m).updEntry k fun e => { e with hallDone := true }
          s.iff (!single && !area) fun s => s.raise l.core (plainEvent k l.die 3)

/-- DIE_LANDING_MERGE of key `k`, die `d`: the die landing has accumulated its final count and enters MERGE, and its accumulators reach the
head as a MERGE event, after which it is freed (R272). -/
def dieLandingMerge (k : Key) (d : Nat) (s : State) : State :=
  match s.live? k with
  | none => s
  | some e => match e.head?, e.on? d with
    | some h, some l =>
      let x := s.group k.group
      let busy := (s.core l.core).events.any (fun v => decide (v.key = k) && v.die == d) ||
        (s.core l.core).ctxs.any (fun v => decide (v.2.event.key = k) && v.2.event.die == d)
      if l.kind ≠ .die ∨ l.state ≠ .open_ ∨ e.contribs.length ≠ x.halls.getD k.origin 0 ∨ l.open_ ≠ 0 ∨ busy = true then s
      else
        let n := match e.count with
          | some n => n
          | none => 0
        let bytes := if x.sums then n * x.accSize else packedBytes x.inFmt x.inMx n
        let p := Memory.readN l.window 0 bytes
        let fmt := if x.exactSums then 14 else if x.sums then x.partFmt.1 else x.inFmt
        let s := (s.setLanding k { l with state := .merge }).setLanding k { h with open_ := h.open_ + 1 }
        s.raise h.core ⟨k, h.die, 2, n, 0, d, none, p, fmt, x.inMx && !x.sums, x.exactSums, l.runs⟩
    | _, _ => s

/-- Every origin hall of the mask has delivered every fragment (R272, R275); the own hall's only where the entry is in PASS. -/
def State.galleryDone (s : State) (e : Entry) (x : Group) : Bool :=
  x.hallList.all fun h => (h == s.planHall && !e.pass) || (
    match e.fragments.find? fun f => f.hall == h with
    | none => false
    | some f => decide (x.fragCount f.count ≤ (e.fragments.filter fun y => y.hall == h).length))

/-- LANDING_EMIT of key `k`: all fragments are in and added, so the head verifies and its EMIT event is raised (R272, R283). -/
def landingEmit (k : Key) (s : State) : State :=
  match s.live? k with
  | none => s
  | some e => match e.head? with
    | none => s
    | some l =>
      let x := s.group k.group
      let idle := l.open_ == 0 && !((s.core l.core).events.any fun v => decide (v.key = k)) &&
        !((s.core l.core).ctxs.any fun v => decide (v.2.event.key = k))
      let ready := decide (l.kind = .head) && !l.emitRaised && idle &&
        (decide (l.state = .emit) || (decide (l.state = .gallery) && s.galleryDone e x))
      if ready = false then s
      else match s.applyVerify k l (if l.state = .emit then none else s.linearVerify e x l true) with
        | (false, s) => s
        | (true, s) => (s.setLanding k { l with state := .emit, emitRaised := true }).raise l.core (plainEvent k l.die 5)

/-! ### Timers (R269, R282) -/

/-- An entry whose head waits for its residual area reaches its timeout: counted by how its step stands to the area's (R346). -/
def State.residualTimeout (s : State) (e : Entry) : State :=
  let k := e.key
  let waits := e.landings.any fun l => decide (l.stage = .waiting)
  let a := s.area k.group k.chunk
  let gap := (k.step + 65536 - a.next) % 65536
  let ahead := decide (1 ≤ gap ∧ gap ≤ 32767)
  let stale := !ahead && gap != 0 && !(gap == 65535 && a.prevValid)
  let g := galPage (areaDie k.group k.chunk)
  let s := s.iff (waits && !a.fresh && ahead) fun s => s.count g 0x87
  s.iff (waits && !a.fresh && stale) fun s => (s.count g 0x88).irq g 8

/-- LANDING_TIMER_CHECK: every entry homed on die `d` whose timer has expired before its frames were written completes
INCOMPLETE. -/
def landingTimerCheck (d : Nat) (s : State) : State :=
  let due := s.coll.dir.filter fun e => e.tomb.isNone && e.key.home == d && !e.written &&
    decide (e.born + (s.group e.key.group).timeout * 10000 ≤ s.now)
  s.each due fun e s => (s.residualTimeout e).incomplete e

/-- TOMBSTONE_EXPIRY: tombstones of die `d` whose life has ended are freed. -/
def tombstoneExpiry (d : Nat) (s : State) : State :=
  s.setDir (s.coll.dir.filter fun e => !(e.key.home == d && match e.tomb with
    | some t => decide (t ≤ s.now)
    | none => false))

/-! ### Staging of residual areas (R345, R346) -/

/-- Bytes of one bank. -/
def Group.bankBytes (x : Group) : Nat := 512 * cdiv x.chunkElements 128

/-- The head of key `k` may take its area: fresh, at its step, or one step behind with the previous bank valid. -/
def Area.admits (a : Area) (step : Nat) : Bool :=
  !a.held && (a.fresh || a.next == step || (a.prevValid && a.next == (step + 1) % 65536))

/-- RESIDUAL_AREA_HOLD of key `k`: a waiting head takes its area. -/
def residualAreaHold (k : Key) (s : State) : State :=
  match s.live? k with
  | none => s
  | some e => match e.head? with
    | none => s
    | some l =>
      let a := s.area k.group k.chunk
      if l.stage = .waiting ∧ a.admits k.step = true ∧ s.rd CTL_DIE_STATE.state (ctlDiePage (areaDie k.group k.chunk)) = 0 then
        (s.setArea k.group k.chunk { a with held := true }).setLanding k { l with stage := .copying }
      else s

/-- A copy or write-back of a spilled area is counted (R350). -/
def State.spillCopy (s : State) (k : Key) : State :=
  s.iff ((s.group k.group).spilled k.group k.chunk) fun s => s.count (galPage (areaDie k.group k.chunk)) 0x8A

/-- A flight fault (R332) of core `core`: registers, event and interrupt. -/
def State.faultRegs (s : State) (core slot pc w group job reason : Nat) : State :=
  let a := cmbPage core
  let s := ((s.wr CMB_FAULT.reason a reason).wr CMB_FAULT.slot a slot).wr CMB_FAULT.pc a pc
  let s := (s.wr CMB_FAULT.group a group).wr CMB_FAULT.job a job
  (((s.inc CMB_FAULT_WORD.count a).wr CMB_FAULT_WORD.instruction a w).count a 0x82).irq a 4

/-- The read of an area at byte address `a` of its memory found a corrected error there, or an uncorrectable one where `symbols` is none. -/
def State.areaRead (s : State) (k : Key) (a : Nat) (symbols : Option Nat) : State :=
  let d := areaDie k.group k.chunk
  if (s.group k.group).spilled k.group k.chunk then s.lpError d a (match symbols with
    | none => .bad
    | some 0 => .link
    | some _ => .secded)
  else s.dramError d 1 (a / 64 * 64) (symbols.map fun n => max 1 (min n 2))

/-- RESIDUAL_COPY_DONE of key `k`: the bank is in the staging slot, so HALL is raised. Where `find` names an address of its memory at which
the area's own read was uncorrectable, it is made fresh and the landing faults (R332, R348, R363). -/
def residualCopyDone (k : Key) (find : ReadFind) (s : State) : State :=
  match s.live? k with
  | none => s
  | some e => match e.head? with
    | none => s
    | some l =>
      let x := s.group k.group
      if l.stage ≠ .copying then s
      else match find with
      | .bad a =>
        let s := s.areaRead k a none
        ((s.faultRegs l.core x.flight 0 0 k.group x.job 10).abandon k).freshenArea k.group k.chunk
      | _ =>
        let s := match find with
          | .corrected a n => s.areaRead k a (some n)
          | _ => s
        let a := s.area k.group k.chunk
        let bank := if a.fresh then [] else if (a.next == k.step) == a.cur then a.y else a.x
        let l := { l with
          area := bank ++ l.area.filter (fun (c : Host.Cell) => decide (x.bankBytes ≤ c.1)), areaSet := Nat.lor l.areaSet (2 ^ x.bankBytes - 1) }
        (((s.spillCopy k).setLanding k { l with stage := .held, hallRaised := true }).raise l.core
          (plainEvent k l.die 3))

/-- RESIDUAL_WRITE_BACK of key `k`: the staging slot returns to the area, which advances, and is released. -/
def residualWriteBack (k : Key) (s : State) : State :=
  match s.live? k with
  | none => s
  | some e => match e.head? with
    | none => s
    | some l =>
      if l.stage ≠ .writeBack then s
      else
        let a := s.area k.group k.chunk
        let adv := a.fresh || a.next == k.step
        let cur := if adv then !a.cur else a.cur
        let bank := l.area.filter fun c => decide (c.1 < (s.group k.group).bankBytes)
        let b := if cur then { a with y := bank } else { a with x := bank }
        let b := if adv then { b with fresh := false, cur := cur, prevValid := true, next := (k.step + 1) % 65536 } else b
        ((s.spillCopy k).setArea k.group k.chunk { b with held := false }).setLanding k { l with stage := .none }

/-! ### The end of an activation (R316) -/

/-- An activation of landing (k, d) has ended (R316): its part in the landing's counts, and what follows. -/
def State.activationEnded (s : State) (v : FlightEvent) : State :=
  match s.live? v.key with
  | none => s
  | some e => match e.on? v.die with
    | none => s
    | some l =>
      let k := v.key
      let x := s.group k.group
      if v.code = 1 ∨ v.code = 4 then s.setLanding k { l with open_ := l.open_ - 1 }
      else if v.code = 2 then
        let s := s.setLanding k { l with open_ := l.open_ - 1 }
        match e.on? v.s3 with
        | some m => s.iff (decide (m.state = .merge)) fun s => s.freeLanding k m
        | none => s
      else if v.code = 3 then
        if l.kind = .relay then
          ((s.updEntry k fun e => { e with written := true }).freeLanding k l).bury k
        else
          let s := s.setLanding k { l with state := .gallery, stage := if l.stage = .held then .writeBack else l.stage }
          let s := s.updEntry k fun e => { e with heldFrags := [] }
          s.each e.heldFrags fun f s => s.dispatchFragment k f.id
      else if v.code = 5 then
        let a := xsePage l.core
        let s := s.iff (e.repro x == 1) fun s => s.count a 0x88
        let s := s.count (lndPage l.die) 0x8A
        let s := residualWriteBack k s
        (((s.updEntry k fun e => { e with written := true }).freeLanding k { l with stage := .none }).bury k).triggerSource 1 k.group k.step
      else s

end Sys2Proof.Machine
end

