-- ==== Sys2Proof/Machine/Streams.lean ====
section
/-! DEFINITION. An instruction of a flight in progress: scalar registers (R317), the two memory regions (R318), stream ports and the
elements that cross them (R319, R320), and what stops it (R332, R333). -/

namespace Sys2Proof.Machine

/-- What stops an instruction: a fault of R332, a residue mismatch of a vector lane (R333) or of an exact-sum unit (R260), with the unit's
two operands where they are known (R438), or an uncorrectable read of landing SRAM or of the residual area. -/
inductive Halt where
  | fault (reason : Nat)
  | vecResidue (engine lane unit expected observed fmt : Nat) (ops : Option (Nat × Nat))
  | xseResidue (engine unit expected observed fmt : Nat) (ops : Option (Nat × Nat))
  | ecc (area : Bool) (addr : Nat)
  deriving DecidableEq, Repr

/-! Reasons of R332. -/

def fSlotEmpty : Nat := 1
def fJob : Nat := 2
def fBound : Nat := 3
def fFormat : Nat := 4
def fOperand : Nat := 5
def fPassLength : Nat := 6
def fSteps : Nat := 7
def fFrame : Nat := 8
def fResidue : Nat := 9
def fEcc : Nat := 10

/-- An instruction in progress: the state, where it runs, and copies of what it works on. -/
structure Run where
  st : State
  core : Nat
  ctx : Nat
  act : Activation
  lnd : Landing
  ent : Entry
  grp : Group
  /-- What the hardware finds while the instruction runs, and the exact-sum engine it uses. -/
  find : Find
  eng : Nat
  deriving DecidableEq, Repr

/-- A step of an instruction. -/
abbrev Flow (α : Type) := Except Halt α

def flowFault {α : Type} (n : Nat) : Flow α := .error (.fault n)

/-- Goes on where `b` holds. -/
def need (b : Bool) (n : Nat) : Flow Unit := if b then .ok () else .error (.fault n)

/-! ### Scalar registers -/

/-- Scalar register `i`, 64 bits (R322). -/
def Run.sreg (r : Run) (i : Nat) : Nat := Sparse.get 0 r.act.s i % 2 ^ 64

/-- Scalar register `i` set to `v` modulo 2^64. -/
def Run.setS (r : Run) (i v : Nat) : Run := { r with act := { r.act with s := Sparse.set r.act.s i (v % 2 ^ 64) } }

/-! ### Memory regions (R318, R345) -/

/-- Size of a space in bytes: the landing window, the staging slot of a head or a relay (R345), the event's input. -/
def Run.spaceSize (r : Run) : Space → Nat
  | .window => r.lnd.size
  | .area => if r.lnd.kind = .die then 0 else 65536
  | .input => r.act.event.input.length
  | .out => 0

/-- The slot is that of a head that uses a residual area: what it holds where neither the copied bank nor a store has put anything is not
stated, so such bytes are free. Every other slot starts zero-filled (R345). -/
def Run.areaOpen (r : Run) : Bool := r.st.usesArea r.ent.key && decide (r.lnd.kind = .head)

/-- `n` bytes of a space from offset `o`; BOUND outside it. -/
def Run.bytes (r : Run) (sp : Space) (o n : Nat) : Flow (List Byte) :=
  if r.spaceSize sp < o + n then flowFault fBound
  else match sp with
    | .window => .ok (Memory.readN r.lnd.window o n)
    | .area =>
      let l := Memory.readN r.lnd.area o n
      if r.areaOpen then .ok (l.zipIdx.map fun e =>
        if bit r.lnd.areaSet (o + e.2) then e.1 else byte (Config.freeBits (r.st.freeCtr + o + e.2)).toNat)
      else .ok l
    | .input => .ok (slice r.act.event.input o n)
    | .out => flowFault fBound

/-- Bytes written to a space from offset `o`. -/
def Run.store (r : Run) (sp : Space) (o : Nat) (l : List Byte) : Flow Run :=
  if r.spaceSize sp < o + l.length then flowFault fBound
  else match sp with
    | .window => .ok { r with lnd := { r.lnd with window := Memory.writeN r.lnd.window o l } }
    | .area => .ok { r with lnd := { r.lnd with
        area := Memory.writeN r.lnd.area o l, areaSet := Nat.lor r.lnd.areaSet ((2 ^ l.length - 1) * 2 ^ o) } }
    | _ => flowFault fBound

/-! ### Stream ports (R319, R320) -/

/-- The configuration of a port; BOUND where it has none. -/
def Run.port (r : Run) (i : Nat) : Flow Stream :=
  match r.act.sp.find? fun e => e.1 == i with
  | some e => .ok e.2
  | none => flowFault fBound

/-- A port that is read: sp7 is written only. -/
def Run.source (r : Run) (i : Nat) : Flow Stream := if i = 7 then flowFault fBound else r.port i

def Run.setPort (r : Run) (i : Nat) (x : Stream) : Run := { r with act := { r.act with sp := Sparse.set r.act.sp i x } }

/-- The port of a descriptor (R320); sp7 takes its format and index base only. -/
def portOf (i d : Nat) : Stream :=
  ⟨if i = 7 then .out else if bit d 32 then .area else .window, bits d 33 4, bit d 37, false, bits d 0 32, 0, 0, bits d 40 24⟩

/-- Bytes of the accumulator words of a group (R319, R242). -/
def Run.wordBytes (r : Run) : Nat := r.grp.accSize

/-- First byte and byte count of `n` elements of a port whose elements have a fixed size, from its position. -/
def Run.span (r : Run) (x : Stream) (n : Nat) : Nat × Nat :=
  if x.acc then (x.off + x.pos * r.wordBytes, n * r.wordBytes)
  else if x.mx then
    let b := mxBlockBytes x.fmt
    (x.off + x.pos / 32 * b, (cdiv (x.pos + n) 32 - x.pos / 32) * b)
  else
    let w := fmtBits x.fmt
    (x.off + x.pos * w / 8, cdiv ((x.pos + n) * w) 8 - x.pos * w / 8)

/-- The port's format is one whose elements have a fixed size. -/
def Stream.fixed (x : Stream) : Bool := x.acc || (fmtBits x.fmt != 0 && (!x.mx || (decide (4 ≤ x.fmt) && decide (x.fmt ≤ 9))))

/-- `n` elements lie within the input of sp0 (R319). -/
def Run.inputOk (r : Run) (x : Stream) (n : Nat) : Bool := decide (x.space ≠ .input) || decide (x.pos + n ≤ r.act.event.s1)

/-- The bytes that hold `n` elements from the port's position. -/
def Run.raw (r : Run) (x : Stream) (n : Nat) : Flow (List Byte) := do
  need x.fixed fFormat
  need (r.inputOk x n) fBound
  r.bytes x.space (r.span x n).1 (r.span x n).2

/-- Element codes of a port without block scale. -/
def Run.codes (r : Run) (x : Stream) (n : Nat) : Flow (List Nat) := do
  need (!x.mx && !x.acc) fFormat
  let l ← r.raw x n
  let w := fmtBits x.fmt
  let v := leNat l / 2 ^ (x.pos * w % 8)
  .ok ((List.range n).map fun i => bits v (i * w) w)

/-- Values of the elements in block images, from element `p` of the first block. -/
def mxVals (f p n : Nat) (l : List Byte) : List Val :=
  let b := mxBlockBytes f
  (List.range n).map fun i =>
    let blk := slice l ((p + i) / 32 * b) b
    mxVal f (leNat (blk.take 1)) (bits (leNat (blk.drop 1)) ((p + i) % 32 * fmtBits f) (fmtBits f))

/-- The byte images of `n` WP elements at the head of `l`; none where one is cut or breaks R228. -/
def wpSplit : Nat → List Byte → Option (List (List Byte))
  | 0, _ => some []
  | n + 1, l =>
    let w := bits (leNat (slice l 0 8)) 16 3
    if w = 0 ∨ 5 < w ∨ l.length < 8 + 8 * w then none
    else (wpSplit n (l.drop (8 + 8 * w))).map fun t => l.take (8 + 8 * w) :: t

/-- `n` WP elements of a port, as byte images. -/
def Run.wps (r : Run) (x : Stream) (n : Nat) : Flow (List (List Byte)) := do
  need (r.inputOk x n) fBound
  let o := x.off + x.bytes
  let l ← r.bytes x.space o (min (48 * n) (r.spaceSize x.space - o))
  match wpSplit n l with
  | some t => .ok t
  | none => if (l.length < 48 * n : Bool) then flowFault fBound else flowFault fFormat

/-- The exact values of `n` elements of a port (R222, R226, R229). -/
def Run.vals (r : Run) (x : Stream) (n : Nat) : Flow (List Val) :=
  if x.acc then flowFault fFormat
  else if x.mx then do
    let l ← r.raw x n
    .ok (mxVals x.fmt (x.pos % 32) n l)
  else if x.fmt = 14 then do
    let l ← r.wps x n
    .ok (l.map fun e => (Wp.read e).1.val)
  else do
    let l ← r.codes x n
    .ok (l.map fun c => codeVal x.fmt c)

/-- The port after `n` elements, and `b` bytes of a WP stream. -/
def Stream.advance (x : Stream) (n b : Nat) : Stream := { x with pos := x.pos + n, bytes := x.bytes + b }

/-- Port `i` advances past `n` elements, `b` bytes of a WP stream. -/
def Run.pass (r : Run) (i n b : Nat) : Run :=
  match r.port i with
  | .ok x => r.setPort i (x.advance n b)
  | .error _ => r

/-- Distinct ports advance past `n` elements each: a port that an operation names twice advances once. -/
def Run.passAll (r : Run) (l : List Nat) (n : Nat) : Run := l.eraseDups.foldl (fun r i => r.pass i n 0) r

/-! ### Writing a port -/

/-- Bytes join the payload of the next frame (R319): `n` elements of format `f`, `k` codes of sub-byte width packed on. -/
def Run.append (r : Run) (f : Nat) (mx : Bool) (n : Nat) (l : List Byte) : Run :=
  { r with act := { r.act with out := r.act.out ++ l, outCount := r.act.outCount + n, outFmts := r.act.outFmts ++ [(f, mx)] } }

/-- Element codes appended: where a byte is part filled, the codes go on within it. -/
def Run.appendCodes (r : Run) (f : Nat) (l : List Nat) : Run :=
  let w := fmtBits f
  let used := r.act.outCount * w
  if used % 8 = 0 then r.append f false l.length (packCodes w l)
  else
    let old := unpackCodes w r.act.outCount r.act.out
    { r with act := { r.act with out := packCodes w (old ++ l), outCount := r.act.outCount + l.length,
                                 outFmts := r.act.outFmts ++ [(f, false)] } }

/-- Element codes written at the position of port description `x`. -/
def Run.putCodes (r : Run) (x : Stream) (l : List Nat) : Flow Run :=
  let w := fmtBits x.fmt
  if x.mx || x.acc || w == 0 then flowFault fFormat
  else if x.space = .out then .ok (r.appendCodes x.fmt l)
  else do
    let sp := r.span x l.length
    let old ← r.bytes x.space sp.1 sp.2
    let v := setBits (leNat old) (x.pos * w % 8) (l.length * w) (leNat (packCodes w l))
    r.store x.space sp.1 (natLe sp.2 v)

/-- Whole block images of `n` elements written at a position that starts a block. -/
def Run.putBlocks (r : Run) (x : Stream) (n : Nat) (l : List Byte) : Flow Run :=
  if !x.mx || !x.fixed || x.pos % 32 != 0 then flowFault fFormat
  else if x.space = .out then .ok (r.append x.fmt true n l)
  else r.store x.space (r.span x n).1 l

/-- WP elements written. -/
def Run.putWps (r : Run) (x : Stream) (l : List (List Byte)) : Flow Run :=
  if x.mx || x.acc || x.fmt != 14 then flowFault fFormat
  else if x.space = .out then .ok (r.append 14 false l.length l.flatten)
  else r.store x.space (x.off + x.bytes) l.flatten

/-- `l` in groups of 32, the last one short. -/
def groups32 {α : Type} (l : List α) : List (List α) := (List.range (cdiv l.length 32)).map fun i => (l.drop (32 * i)).take 32

/-! ### Checks by residue (R260, R333) -/

/-- The residue of a result as the operands give it, and that of the result with bit 0 inverted: the result is its bit pattern, read as an
unsigned integer (notes/assumptions/31.md). -/
def residuePair (v : Nat) : Nat × Nat := (v % 127, Nat.xor v 1 % 127)

/-- A result of a checked unit, with the unit's two operands where it has two that the model holds (R438). -/
structure UnitResult where
  value : Nat
  ops : Option (Nat × Nat)
  deriving DecidableEq, Repr

/-- The results of a unit whose operands the model does not hold. -/
def resultsOf (l : List Nat) : List UnitResult := l.map fun v => ⟨v, none⟩

/-- The results of a unit with its operands `a` and `b`. -/
def resultsOn (l a b : List Nat) : List UnitResult := l.zipIdx.map fun e => ⟨e.1, some (a.getD e.2 0, b.getD e.2 0)⟩

/-- The operand-pattern signature of two operands, each as its low 64 bits (R438). -/
def patternOf (a b : Nat) : Nat := crc32c (natLe 8 a ++ natLe 8 b)

/-- The signature of an arithmetic error's record: a free value where the spec or the model does not give the operands, and the state
after it. -/
def State.signed (s : State) (ops : Option (Nat × Nat)) : Nat × State :=
  match ops with
  | some (a, b) => (patternOf a b, s)
  | none => (s.free / 2 ^ 32, s.tickFree)

/-- The first of the armed injections that names result `i` of a unit, with that result; `l` holds the results by unit. -/
def firstArmed {α : Type} (arms : List α) (unit index : α → Nat) (l : List (Nat × List UnitResult)) : Option (α × UnitResult) :=
  l.findSome? fun q =>
    (arms.find? fun a => unit a == q.1 && decide (index a < q.2.length)).map fun a => (a, q.2.getD (index a) ⟨0, none⟩)

/-- The vector engines produce results by unit, `us`, element `i` on engine (i mod 1,024) / 64 and lane i mod 64: an armed
injection, or a mismatch that the hardware finds, stops the operation. -/
def Run.vecCheck (r : Run) (fmt : Nat) (us : List (Nat × List UnitResult)) : Flow Unit :=
  match r.find with
  | .residue e l u x o a b => .error (.vecResidue e l u x o fmt (some (a, b)))
  | _ => match firstArmed (r.st.core r.core).vecArm (fun a => a.2.2) (fun a => 64 * a.1 + a.2.1) us with
    | none => .ok ()
    | some ((e, l, u), v) => .error (.vecResidue e l u (residuePair v.value).1 (residuePair v.value).2 fmt v.ops)

/-- An injection armed on one of the exact-sum engines `engs` meets a result of its unit. -/
def Run.xseArmed (r : Run) (engs : List Nat) (fmt : Nat) (us : List (Nat × List UnitResult)) : Flow Unit :=
  match firstArmed ((r.st.core r.core).xseArm.filter fun a => engs.contains a.1) (fun a => a.2) (fun _ => 0) us with
  | none => .ok ()
  | some ((e, u), v) => .error (.xseResidue e u (residuePair v.value).1 (residuePair v.value).2 fmt v.ops)

/-- The exact-sum engine of the instruction produces results by unit: a mismatch that the hardware finds, or an armed injection, stops it. -/
def Run.xseCheck (r : Run) (fmt : Nat) (us : List (Nat × List UnitResult)) : Flow Unit :=
  match r.find with
  | .residue e _ u x o a b => .error (.xseResidue (e % 2) u x o fmt (some (a, b)))
  | _ => r.xseArmed [r.eng] fmt us

/-- The FP32 adder of the ordered gallery sum, XSE unit 4, on either engine (R251, R260, R262; notes/assumptions/31.md): a mismatch that the
hardware finds in it, or an armed injection, stops the operation. -/
def Run.orderedCheck (r : Run) (fmt : Nat) (res : List UnitResult) : Flow Unit :=
  match r.find with
  | .residue e _ 4 x o a b => .error (.xseResidue (e % 2) 4 x o fmt (some (a, b)))
  | _ => r.xseArmed [0, 1] fmt [(4, res)]

/-- A read of landing SRAM or of the residual area succeeds: an uncorrectable one stops the instruction. -/
def Run.readOk (r : Run) (area : Bool) : Flow Unit :=
  match r.find with
  | .uncorrectable a => .error (.ecc area a)
  | _ => .ok ()

/-- The read check over the source ports of an operation: only ports in the window or the area read memory. -/
def Run.readPorts (r : Run) (l : List Stream) : Flow Unit :=
  if l.any fun x => decide (x.space = .area) then r.readOk true
  else if l.any fun x => decide (x.space = .window) then r.readOk false
  else .ok ()

/-- The draw of a rounding (R235, R236). -/
def Run.draw (r : Run) (site hall index : Nat) : Nat :=
  srDraw r.ent.key.group r.ent.key.step r.ent.key.chunk index site hall

end Sys2Proof.Machine
end

