-- ==== Sys2Proof/Machine/Vector.lean ====
section
/-! DEFINITION. What the vector engines and the exact-sum engines do for one instruction: VLD, VST (R322), VBIN (R323), VCVT and
VQUANT (R324), XADD and XROUND (R325). Operands are read whole before any result is written. -/

namespace Sys2Proof.Machine

/-- Lane operations are counted on the VEC page. -/
def Run.laneOps (r : Run) (n : Nat) : Run := { r with st := r.st.count (vecPage r.core) 0x80 0 n }

/-- An operation on streams `l` is counted as AREA_STALL where one of them lies in the residual area (R328, R337). -/
def Run.areaOps (r : Run) (l : List Nat) : Run :=
  let area := l.any fun i => match r.port i with
    | .ok x => decide (x.space = .area)
    | .error _ => false
  { r with st := r.st.iff area fun s => s.count (vecPage r.core) 0x83 }

/-! ### Vector registers (R322) -/

/-- Lanes of vector register `i`. -/
def Run.lanes (r : Run) (i : Nat) : List Nat := Sparse.get [] r.act.v i

/-- VLD: 1,024 element codes of a port fill a vector register. -/
def Run.vld (r : Run) (w : Nat) : Flow Run := do
  let i := bits w 18 3
  let x ← r.source i
  need (decide (fmtBits x.fmt ≤ 32)) fFormat
  let l ← r.codes x 1024
  r.readPorts [x]
  let r := r.areaOps [i]
  .ok (({ r with act := { r.act with v := Sparse.set r.act.v (bits w 21 5) l } }.pass i 1024 0).laneOps 1024)

/-- VST: the 1,024 lanes of a vector register go to a port, each in the low bits of an element. -/
def Run.vst (r : Run) (w : Nat) : Flow Run := do
  let i := bits w 18 3
  let x ← r.port i
  need (decide (fmtBits x.fmt ≤ 32)) fFormat
  let l := r.lanes (bits w 21 5)
  let r := r.areaOps [i]
  let r ← r.putCodes x ((List.range 1024).map fun k => l.getD k 0 % 2 ^ fmtBits x.fmt)
  .ok ((r.pass i 1024 0).laneOps 1024)

/-! ### VBIN (R323) -/

/-- Format of a type code: FP32, FP64, INT32. -/
def typeFmt (ty : Nat) : Nat := if ty = 0 then 1 else if ty = 1 then 0 else 11

/-- The elements of a port widen exactly to a type, or are MX elements multiplied by their scale. -/
def widens (ty : Nat) (x : Stream) : Bool :=
  !x.acc && (
    if x.mx then decide (ty ≤ 1) && x.fixed
    else if ty = 0 then decide (1 ≤ x.fmt) && decide (x.fmt ≤ 10)
    else if ty = 1 then decide (x.fmt ≤ 11)
    else decide (9 ≤ x.fmt) && decide (x.fmt ≤ 11))

/-- An exact value as a code of a type, rounded to nearest-even under the IEEE setting; exact for a narrower input. -/
def toType (ty : Nat) (v : Val) : Nat := (roundVal (typeFmt ty) rNearest false 0 1 v).code

/-- `n` elements of a port as codes of a type. -/
def Run.operand (r : Run) (ty : Nat) (x : Stream) (n : Nat) : Flow (List Nat) := do
  need (widens ty x) fFormat
  if !x.mx && x.fmt == typeFmt ty then r.codes x n
  else
    let l ← r.vals x n
    .ok (l.map (toType ty))

/-- A lane as a code of a type; FP64 takes it as FP32 widened. -/
def laneCode (ty c : Nat) : Nat := if ty = 1 then toType 1 (floatVal 1 c) else c % 2 ^ 32

/-- One result of an arithmetic operation of R323 on codes of format `f`: `k` is b as a signed integer, for LDEXP. -/
def vbinResult (op f a b c : Nat) (k : Int) : Nat :=
  let rnd := fun v => (roundVal f rNearest false 0 1 v).code
  let va := codeVal f a
  let vb := codeVal f b
  match op with
  | 1 => rnd (addVal rNearest va vb)
  | 2 => rnd (addVal rNearest va (negVal vb))
  | 3 => rnd (mulVal va vb)
  | 4 => rnd (addVal rNearest (mulVal va vb) (codeVal f c))
  | 5 => combineCode opMin f a b
  | 6 => combineCode opMax f a b
  | 7 => Nat.land a b
  | 8 => Nat.lor a b
  | 9 => Nat.xor a b
  | _ => rnd (scaleVal va (max (-5000) (min 5000 k)))

/-- The product of an FMA before its addition, as the multiplier forms it: the product of the significands. -/
def fmaProduct (f a b : Nat) : Nat := match mulVal (codeVal f a) (codeVal f b) with
  | .num _ m _ => m
  | _ => 0

/-- Results of an operation by unit of VEC_RESIDUE: `res` its results, `prods` the products of FMA, `a` and `b` its operands. The adder of FMA
takes a product that no operand of the instruction is. -/
def vbinUnits (op : Nat) (res prods a b : List Nat) : List (Nat × List UnitResult) :=
  match op with
  | 1 | 2 => [(1, resultsOn res a b)]
  | 3 => [(0, resultsOn res a b)]
  | 4 => [(0, resultsOn prods a b), (1, resultsOf res)]
  | 10 => [(2, resultsOn res a b)]
  | _ => []

/-- MOV: elements of `a` to `d` unchanged. -/
def Run.vmov (r : Run) (a d n : Nat) : Flow Run := do
  let x ← r.source a
  let y ← r.port d
  need (x.fmt == y.fmt && x.mx == y.mx && !x.acc) fFormat
  r.readPorts [x]
  if x.mx then
    need (x.pos % 32 == 0) fFormat
    let l ← r.raw x n
    let r ← r.putBlocks y n l
    .ok ((r.passAll [a, d] n).laneOps n)
  else if x.fmt = 14 then
    let l ← r.wps x n
    let r ← r.putWps y l
    let b := l.flatten.length
    let r := r.pass a n b
    .ok ((if a = d then r else r.pass d n b).laneOps n)
  else
    let l ← r.codes x n
    let r ← r.putCodes y l
    .ok ((r.passAll [a, d] n).laneOps n)

/-- Operand b of VBIN as codes of the type, and as signed integers where the operation is LDEXP. -/
def Run.vbinB (r : Run) (ty op kind b n : Nat) : Flow (List Nat × List Int × List Stream) := do
  match kind with
  | 0 =>
    let x ← r.source (b % 8)
    if op = 10 then
      need (isInt x.fmt && !x.mx && !x.acc) fFormat
      let l ← r.codes x n
      .ok ([], l.map fun c => sgn (fmtBits x.fmt) c, [x])
    else
      let l ← r.operand ty x n
      .ok (l, [], [x])
  | 1 =>
    let v := r.sreg b
    .ok (List.replicate n (v % 2 ^ fmtBits (typeFmt ty)), List.replicate n (sgn 64 v), [])
  | 2 =>
    let l := r.lanes b
    .ok ((List.range n).map fun i => laneCode ty (l.getD (i % 1024) 0), (List.range n).map fun i => sgn 32 (l.getD (i % 1024) 0), [])
  | _ => flowFault fFormat

/-- VBIN. -/
def Run.vbin (r : Run) (w : Nat) : Flow Run := do
  let d := bits w 23 3
  let a := bits w 20 3
  let b := bits w 15 5
  let kind := bits w 13 2
  let n := r.sreg (bits w 8 5)
  let op := bits w 4 4
  let ty := bits w 2 2
  if n = 0 then return r
  need (decide (ty < 3) && decide (op ≤ 10)) fFormat
  let r := r.areaOps (a :: d :: if kind = 0 ∧ op ≠ 0 then [b % 8] else [])
  if op = 0 then r.vmov a d n
  else
    let f := typeFmt ty
    let x ← r.source a
    let y ← r.port d
    need (y.fmt == f && !y.mx && !y.acc) fFormat
    let va ← r.operand ty x n
    let (vb, ks, more) ← r.vbinB ty op kind b n
    let vc ← if op = 4 then (if d = 7 then flowFault fBound else r.codes y n) else .ok []
    r.readPorts (x :: more ++ if op = 4 then [y] else [])
    let res := (List.range n).map fun i => vbinResult op f (va.getD i 0) (vb.getD i 0) (vc.getD i 0) (ks.getD i 0)
    -- the ordered gallery sum of R251 and R252, checked as the exact-sum engines' FP32 adder (notes/assumptions/31.md)
    if op = 1 ∧ ty = 0 ∧ (r.grp.mode = mSplit ∨ r.grp.mode = mCompressed) then r.orderedCheck f (resultsOn res va vb)
    r.vecCheck f (vbinUnits op res (if op = 4 then List.zipWith (fmaProduct f) va vb else []) va
      (if op = 10 then ks.map (unsgn 64) else vb))
    let r ← r.putCodes y res
    .ok ((r.passAll (a :: d :: if kind = 0 then [b % 8] else []) n).laneOps n)

/-! ### VCVT and VQUANT (R324) -/

/-- Overflows, and results that R247 makes numbers of a special value in an integer format, counted on the XSE page. -/
def Run.roundCount (r : Run) (f overflows nans : Nat) : Run :=
  let a := xsePage r.core
  let s := r.st.iff (overflows != 0) fun s => (s.count a 0x86 0 overflows).irq a 7
  { r with st := s.iff (isInt f && nans != 0) fun s => s.count a 0x87 0 nans }

/-- How a rounding is made: mode, overflow setting, site and hall field of the draw, divisor. -/
structure RoundBy where
  mode : Nat
  sat : Bool
  site : Nat
  hall : Nat
  div : Nat
  deriving DecidableEq, Repr

/-- Values rounded once each to element codes of `f`, element `i` with draw index `base` + i. -/
def Run.roundAll (r : Run) (q : RoundBy) (f base : Nat) (l : List Val) : List Rounded :=
  l.zipIdx.map fun e => roundVal f q.mode q.sat (r.draw q.site q.hall (base + e.2)) q.div e.1

/-- Values written as MX blocks of `f` (R227), the last one completed with zeros. -/
def Run.blockAll (r : Run) (q : RoundBy) (f base : Nat) (l : List Val) : List MxBlock :=
  (groups32 l).zipIdx.map fun e => mxWrite f q.mode (fun j => r.draw q.site q.hall (base + 32 * e.2 + j)) q.div e.1

/-- Values rounded and written to a port; with a divisor of 0, which the spec gives no result for, each code is a free value. -/
def Run.putRounded (r : Run) (q : RoundBy) (y : Stream) (base unit : Nat) (l : List Val) : Flow (Run × Nat × Nat) := do
  if q.div = 0 then
    let n := if y.mx then cdiv l.length 32 * mxBlockBytes y.fmt else l.length
    let cs := (List.range n).map fun i => (Config.freeBits (r.st.freeCtr + i)).toNat % 2 ^ (if y.mx then 8 else fmtBits y.fmt)
    let r := { r with st := r.st.tickFree n }
    let r ← if y.mx then r.putBlocks y l.length (cs.map byte) else r.putCodes y cs
    .ok (r, 0, 0)
  else if y.mx then
    let bs := r.blockAll q y.fmt base l
    r.vecCheck y.fmt [(unit, resultsOf (bs.flatMap fun b => b.codes))]
    let r ← r.putBlocks y l.length (bs.flatMap fun b => b.bytes y.fmt)
    .ok (r, bs.foldl (fun a b => a + b.overflows) 0, 0)
  else
    let rs := r.roundAll q y.fmt base l
    r.vecCheck y.fmt [(unit, resultsOf (rs.map fun x => x.code))]
    let r ← r.putCodes y (rs.map fun x => x.code)
    .ok (r, (rs.filter fun x => x.overflow).length, (rs.filter fun x => x.nan).length)

/-- VCVT. -/
def Run.vcvt (r : Run) (w : Nat) : Flow Run := do
  let d := bits w 23 3
  let a := bits w 20 3
  let n := r.sreg (bits w 15 5)
  let mode := bits w 12 3
  let site := bits w 9 2
  if n = 0 then return r
  let x ← r.source a
  let y ← r.port d
  let named := decide (mode = 0) && !bit w 11
  need (site != 2 && (site == 3 || named) && decide (mode ≤ 4) && y.fixed && !y.acc) fFormat
  let l ← r.vals x n
  r.readPorts [x]
  let hall := if site = 1 ∨ (site = 3 ∧ bit w 8 = true) then r.st.planHall else 0
  let q := RoundBy.mk (if site = 3 then mode else r.grp.rounding) (if site = 3 then bit w 11 else r.grp.saturate) site hall
    (if bit w 7 then r.sreg 9 else 1)
  let b := if x.fmt = 14 then (match r.wps x n with
    | .ok t => t.flatten.length
    | .error _ => 0) else 0
  let (r, o, k) ← (r.areaOps [a, d]).putRounded q y (y.base + y.pos) 3 l
  -- clamped elements of MX blocks count at every site (R227), results and SPLIT partials under R247
  let r := if y.mx ∨ site ≤ 1 then r.roundCount y.fmt o (if site = 0 then k else 0) else r
  let r := r.pass a n b
  .ok ((if a = d then r else r.pass d n 0).laneOps n)

/-- VQUANT. -/
def Run.vquant (r : Run) (w : Nat) : Flow Run := do
  let d := bits w 23 3
  let a := bits w 20 3
  let e := bits w 17 3
  let n := r.sreg (bits w 11 5)
  if n = 0 then return r
  let x ← r.source a
  let y ← r.port d
  need (n % 32 == 0 && x.fmt == 1 && !x.mx && !x.acc && y.mx) fFormat
  let l ← r.vals x n
  r.readPorts [x]
  let bs := r.blockAll ⟨r.grp.rounding, r.grp.saturate, 2, r.st.planHall, 1⟩ y.fmt (y.base + y.pos) l
  r.vecCheck y.fmt [(4, resultsOf (bs.flatMap fun b => b.codes))]
  let r ← (r.areaOps (a :: d :: if bit w 16 then [e] else [])).putBlocks y n (bs.flatMap fun b => b.bytes y.fmt)
  let r := (r.roundCount y.fmt (bs.foldl (fun a b => a + b.overflows) 0) 0).pass d n 0
  if bit w 16 = false then .ok ((r.pass a n 0).laneOps n)
  else
    let z ← r.port e
    need (z.fmt == 1 && !z.mx && !z.acc) fFormat
    let q := bs.flatMap fun b => b.codes.map fun c => if b.scale = 0xFF then Val.nan else mxVal y.fmt b.scale c
    let res := (List.range n).map fun i => match q.getD i .nan with
      | .nan => 0
      | v => toType 0 (addVal rNearest (l.getD i .nan) (negVal v))
    r.vecCheck z.fmt [(1, resultsOf res)]
    let r ← r.putCodes z res
    .ok ((r.passAll [a, e] n).laneOps n)

/-! ### XADD (R325, R243, R244, R249) -/

/-- Accumulators of positions from `off`. -/
def Run.accums (r : Run) (off n : Nat) : Flow (List Accum) := do
  let a := r.wordBytes
  let l ← r.bytes .window (off * a) (n * a)
  .ok ((List.range n).map fun i => Accum.ofWord r.grp.wide (leNat (slice l (i * a) a)))

/-- SUM and MEAN: the source's elements, WP elements or accumulator words added. -/
def Run.xaddSum (r : Run) (a off n kind : Nat) (x : Stream) : Flow Run := do
  let g := r.grp
  let own := x.fmt == g.inFmt && x.mx == g.inMx
  -- a contribution in WP is added as WP, so that the flight of the worked example serves any EXACT SUM group (notes/assumptions/32.md)
  let kind := if kind = 0 && x.fmt == 14 && (own || (x.fmt, x.mx) == g.partFmt) then 1 else kind
  let old ← r.accums off n
  let (new, b) ← match kind with
    | 0 => do
      need (!x.acc && x.fmt != 14 && (own || ((x.fmt, x.mx) == (1, false) && g.partFmt == (1, false)))) fFormat
      let l ← r.vals x n
      Except.ok (List.zipWith (fun (y : Accum) v => y.add g.inFmt g.inMx (!own) v) old l, 0)
    | 1 => do
      need (!x.acc && x.fmt == 14 && !x.mx) fFormat
      let l ← r.wps x n
      Except.ok (List.zipWith (fun (y : Accum) e => y.addWp g.inFmt g.inMx (Wp.read e).1) old l, l.flatten.length)
    | _ => do
      need x.acc fFormat
      let l ← r.raw x n
      let k := r.wordBytes
      Except.ok ((List.range n).map fun i =>
        ((old.getD i ⟨0, false, false, false, false, false⟩).merge (Accum.ofWord g.wide (leNat (slice l (i * k) k))), false), 0)
  r.readOk false
  let words := new.map fun e => e.1.word g.wide
  let pattern := fun (v : Int) => unsgn (vBits g.wide) v
  let added := List.zipWith (fun o (e : Accum × Bool) => pattern (e.1.v - o.v)) old new
  let sums := (1, resultsOn (new.map fun e => pattern e.1.v) (old.map fun e => pattern e.v) added)
  r.xseCheck g.inFmt (if kind = 2 then [sums] else [(0, resultsOf added), sums])
  let r ← r.store .window (off * r.wordBytes) (words.flatMap fun v => natLe r.wordBytes v)
  let p := xsePage r.core
  let out := (new.filter fun e => e.2).length
  let s := r.st.count p (if g.wide then 0x80 else 0x81) 0 n
  .ok ({ r with st := s.iff (out != 0) fun s => (s.count p 0x85 0 out).irq p 6 }.pass a n b)

/-- The running values of the block at position `p` whose image is `img`: those kept in `runs`, as long as they are what the image was
written from, otherwise those of the image. -/
def runsAt (runs : Sparse Nat) (f mode : Nat) (r : Nat → Nat) (p : Nat) (img : List Byte) : List Nat :=
  let l := (List.range 32).map fun j => Sparse.get 0 runs (p + j)
  if Sparse.has runs p && (runBlock f mode r l).bytes f == img then l else blockRuns f img

/-- The draws of running value blocks, at site 0 (R249). -/
def Run.runDraw (r : Run) (p : Nat) : Nat → Nat := fun j => r.draw 0 0 (p + j)

/-- MIN and MAX of MX elements: the running values of `n` elements from position `off` combined with those of stream `x`, kept exact beside
the block images that the window holds (R227, R233, R249). -/
def Run.xaddMx (r : Run) (off n : Nat) (x : Stream) (old new : List Byte) : Flow Run := do
  let g := r.grp
  let b := mxBlockBytes x.fmt
  let given := if x.space = .input then r.act.event.runs else []
  let l := (List.range (cdiv n 32)).map fun i =>
    let p := off + 32 * i
    let img := slice new (i * b) b
    let y := runsAt given x.fmt g.rounding (r.runDraw (x.pos + 32 * i)) (x.pos + 32 * i) img
    if bit r.lnd.written p then
      let z := List.zipWith (combineRun g.op x.fmt) (runsAt r.lnd.runs x.fmt g.rounding (r.runDraw p) p (slice old (i * b) b)) y
      (p, z, (runBlock x.fmt g.rounding (r.runDraw p) z).bytes x.fmt)
    else (p, y, img)
  r.xseCheck x.fmt [(3, resultsOf (l.flatMap fun e => unpackCodes (fmtBits x.fmt) 32 (e.2.2.drop 1)))]
  let r ← r.putBlocks ⟨.window, g.inFmt, true, false, 0, off, 0, 0⟩ n (l.flatMap fun e => e.2.2)
  let runs := l.foldl (fun a e => e.2.1.zipIdx.foldl (fun a v => Sparse.set a (e.1 + v.2) v.1) a) r.lnd.runs
  .ok { r with lnd := { r.lnd with runs := runs } }

/-- MIN, MAX and the bitwise operations: the first write to a position stores, later ones combine. -/
def Run.xaddRun (r : Run) (a off n kind : Nat) (x : Stream) : Flow Run := do
  let g := r.grp
  let y := Stream.mk .window g.inFmt g.inMx false 0 off 0 0
  need (kind != 1 && !x.acc && x.fmt == g.inFmt && x.mx == g.inMx) fFormat
  need (!x.mx || (off % 32 == 0 && x.pos % 32 == 0)) fFormat
  let r2 ← if x.mx then do
      let b := mxBlockBytes x.fmt
      let old ← r.raw y n
      let new ← r.raw x n
      if g.op = opMin ∨ g.op = opMax then r.xaddMx off n x old new
      else
        r.xseCheck x.fmt []
        r.putBlocks y n ((List.range (cdiv n 32)).flatMap fun i =>
          if bit r.lnd.written (off + 32 * i) then combineBytes g.op (slice old (i * b) b) (slice new (i * b) b) else slice new (i * b) b)
    else do
      let old ← r.codes y n
      let new ← r.codes x n
      r.xseCheck x.fmt []
      r.putCodes y ((List.range n).map fun i =>
        if bit r.lnd.written (off + i) then combineCode g.op x.fmt (old.getD i 0) (new.getD i 0) else keepCode g.op x.fmt (new.getD i 0))
  r.readOk false
  let w := Nat.lor r2.lnd.written ((2 ^ n - 1) * 2 ^ off)
  let s := r2.st.count (xsePage r.core) (if g.wide then 0x80 else 0x81) 0 n
  .ok ({ r2 with st := s, lnd := { r2.lnd with written := w } }.pass a n 0)

/-- XADD. In FAST it faults with FORMAT (R325), but for the sums of integer formats, which take no FAST path (R238, R253,
notes/assumptions/60.md). -/
def Run.xadd (r : Run) (w : Nat) : Flow Run := do
  let a := bits w 23 3
  let off := r.sreg (bits w 18 5)
  let n := r.sreg (bits w 13 5)
  let kind := bits w 11 2
  if n = 0 then return r
  need ((r.grp.mode != mFast || r.grp.exactSums) && kind != 3) fFormat
  let x ← r.source a
  let r := r.areaOps [a]
  if r.grp.sums then r.xaddSum a off n kind x else r.xaddRun a off n kind x

/-! ### XROUND (R325, R245, R247, R248) -/

/-- The port that XROUND writes, in the format its target names; sp7 needs no configuration. -/
def Run.xdest (r : Run) (d f : Nat) (mx : Bool) : Flow Stream :=
  match r.port d with
  | .ok y => .ok { y with fmt := f, mx := mx }
  | .error h => if d = 7 then .ok ⟨.out, f, mx, false, 0, 0, 0, 0⟩ else .error h

/-- The exact values of `n` positions from `off`: accumulator words, or the FP32 or FP64 sums of a FAST group (R238, R319). -/
def Run.positions (r : Run) (off n : Nat) : Flow (List Val) :=
  if r.grp.exactSums then do
    let l ← r.accums off n
    .ok (l.map fun a => a.val r.grp.inFmt r.grp.inMx)
  else r.vals ⟨.window, if r.grp.inFmt = 0 then 0 else 1, false, false, 0, off, 0, 0⟩ n

/-- The quotient of R248 of a value divided by `n` for a result of format `f`, without block scale or as an element of a block of scale
exponent `e`. -/
def divQuotient (f n : Nat) (e : Option Int) (v : Val) : Nat :=
  match scaleVal v (-(e.getD 0)) with
  | .num _ m k =>
    let g := if isInt f then (if e.isSome then -6 else 0) else floatUlp f m n k
    if m = 0 then 0 else (quotient32 m n k g).1
  | _ => 0

/-- Sums rounded, or written as WP elements. -/
def Run.xroundSum (r : Run) (d off n target : Nat) : Flow Run := do
  let g := r.grp
  let vals ← r.positions off n
  r.readOk false
  need (g.exactSums || target != 2) fFormat
  let f := if target = 0 then g.resFmt else if target = 1 then 1 else 14
  if f = 14 then
    let y ← r.xdest d 14 false
    let l := vals.map fun v => wpWrite (r.ent.wpMembers (r.act.event.code == 5)) v
    r.xseCheck 14 [(3, resultsOf (l.map leNat))]
    let r ← r.putWps y l
    .ok (r.pass d n l.flatten.length)
  else
    let mx := target == 0 && g.resMx
    let y ← r.xdest d f mx
    let mean := target == 0 && g.op == opMean
    let site := if target = 0 then 0 else if g.mode = mSplit then 1 else 3
    let q := RoundBy.mk g.rounding g.saturate site (if target = 0 then 0 else r.st.planHall) (if mean then r.ent.members else 1)
    let div := fun (e : Nat → Option Int) => if mean then [(2, resultsOf (vals.zipIdx.map fun v => divQuotient f r.ent.members (e v.2) v.1))] else []
    if mx then
      let bs := r.blockAll q f off vals
      r.xseCheck f (div (fun i => some (((bs.map fun b => b.scale).getD (i / 32) 127 : Int) - 127)) ++ [(3, resultsOf (bs.flatMap fun b => b.codes))])
      let r ← r.putBlocks y n (bs.flatMap fun b => b.bytes f)
      .ok ((r.roundCount f (bs.foldl (fun a b => a + b.overflows) 0) 0).pass d n 0)
    else
      let rs := r.roundAll q f off vals
      r.xseCheck f (div (fun _ => none) ++ [(3, resultsOf (rs.map fun x => x.code))])
      let r ← r.putCodes y (rs.map fun x => x.code)
      .ok ((r.roundCount f (rs.filter fun x => x.overflow).length (rs.filter fun x => x.nan).length).pass d n 0)

/-- Running values as results: element codes as they stand, MX blocks written under R227 at site 0 for MIN and MAX. -/
def Run.xroundRun (r : Run) (d off n : Nat) : Flow Run := do
  let g := r.grp
  let x := Stream.mk .window g.inFmt g.inMx false 0 off 0 0
  let y ← r.xdest d g.inFmt g.inMx
  r.readOk false
  if g.inMx then
    need (off % 32 == 0) fFormat
    let raw ← r.raw x n
    let b := mxBlockBytes g.inFmt
    let bs := (List.range (cdiv n 32)).map fun i =>
      let p := off + 32 * i
      runBlock g.inFmt g.rounding (r.runDraw p) (runsAt r.lnd.runs g.inFmt g.rounding (r.runDraw p) p (slice raw (i * b) b))
    if g.op = opMin ∨ g.op = opMax then
      r.xseCheck g.inFmt [(3, resultsOf (bs.flatMap fun b => b.codes))]
      -- the partial is the running value itself, so the values go on as the blocks that the peers combine (R249)
      let gone := fun p => r.act.event.code == 3 && decide (off ≤ p) && decide (p < off + 32 * cdiv n 32)
      let r := { r with lnd := { r.lnd with runs := Sparse.delIf r.lnd.runs gone } }
      let r ← r.putBlocks y n (bs.flatMap fun b => b.bytes g.inFmt)
      .ok ((r.roundCount g.inFmt (bs.foldl (fun a b => a + b.overflows) 0) 0).pass d n 0)
    else
      r.xseCheck g.inFmt []
      let r ← r.putBlocks y n raw
      .ok (r.pass d n 0)
  else
    let l ← r.codes x n
    r.xseCheck g.inFmt []
    let r ← r.putCodes y (l.map (keepCode g.op g.inFmt))
    .ok (r.pass d n 0)

/-- XROUND. -/
def Run.xround (r : Run) (w : Nat) : Flow Run := do
  let d := bits w 23 3
  let off := r.sreg (bits w 18 5)
  let n := r.sreg (bits w 13 5)
  let target := bits w 11 2
  if n = 0 then return r
  need (target != 3) fFormat
  let r := r.areaOps [d]
  if r.grp.sums then r.xroundSum d off n target
  else
    need (target == 0) fFormat
    r.xroundRun d off n

end Sys2Proof.Machine
end

