-- ==== Sys2Proof/Machine/Flight.lean ====
section
/-! DEFINITION. Flights: loading a slot (R312, R313), activations (R315 to R317), issue and its waits (R328 to R331), faults (R332,
R333), the scalar instructions, stream and tile descriptors, FSEND (R327, R274, R283) and PASS (R326, R294 to R304). -/

namespace Sys2Proof.Machine

/-! ### Loading (R312, R313, R423) -/

/-- A measurement register is extended with the digest `d`. -/
def State.extend (s : State) (m d : Nat) : State :=
  { s with sec := { s.sec with meas := Sparse.set s.sec.meas m (sm3 (digestBytes (Sparse.get 0 s.sec.meas m) ++ digestBytes d)) } }

/-- Opcode of an instruction word. -/
def opOf (w : Nat) : Nat := bits w 26 6

/-- Reserved bits of an instruction by opcode, as a mask; none for a reserved opcode. -/
def reservedBits (op : Nat) : Option Nat :=
  match op with
  | 0x00 | 0x01 | 0x02 => some 0x3FFFFFF
  | 0x03 | 0x04 => some 0x1F0000
  | 0x05 => some 0
  | 0x06 | 0x07 => some 0xFFC0
  | 0x08 => some 0x7F0
  | 0x09 | 0x0A => some 0xF
  | 0x0B | 0x0C => some 0
  | 0x0D | 0x0E | 0x0F | 0x10 => some 0xFE00
  | 0x11 | 0x12 => some 0x1E00
  | 0x13 => some 0x3FFFE00
  | 0x18 | 0x19 => some 0x3FFFF
  | 0x1A | 0x1B => some 0x3FFFF
  | 0x1C => some 0x3
  | 0x1D => some 0x7F
  | 0x1E => some 0x7FF
  | 0x20 | 0x21 => some 0x7FF
  | 0x24 => some 0x3F
  | 0x28 => some 0x3FFF
  | _ => none

/-- The rules of R313 that one instruction must keep, in an image of `n`. -/
def wordOk (n w : Nat) : Bool :=
  let op := opOf w
  (match reservedBits op with
    | none => false
    | some m => Nat.land w m == 0)
  && (!(decide (0x0D ≤ op) && decide (op ≤ 0x13)) || decide (bits w 0 9 < n))
  && (op != 0x18 || bits w 23 3 != 0)
  && (!(op == 0x1B) || bits w 18 3 != 0)
  && (!(op == 0x1C || op == 0x1D || op == 0x21) || bits w 23 3 != 0)
  && (op != 0x1E || (bits w 23 3 != 0 && !(bit w 16 && bits w 17 3 == 0)))
  && (!(op == 0x09 || op == 0x0A) || decide (bits w 10 6 + bits w 4 6 + 1 ≤ 64))

/-- An image is well formed (R313). -/
def imageOk (l : List Nat) : Bool :=
  l.all (wordOk l.length) && (opOf (l.getLastD 0) == 0x01 || opOf (l.getLastD 0) == 0x13)

/-- An open landing of core `c` is bound to slot `n`. -/
def State.slotBound (s : State) (c n : Nat) : Bool :=
  s.coll.dir.any fun e => (s.group e.key.group).flight == n && e.landings.any fun l => l.core == c

/-- FLIGHT_LOAD by session `n` with descriptor words `d`: the status and the state. -/
def State.opFlightLoad (s : State) (n : Nat) (d : List Nat) : Nat × State :=
  let job := bits (d.getD 0 0) 32 16
  let c := bits (d.getD 1 0) 0 5
  let i := bits (d.getD 1 0) 8 6
  let len := bits (d.getD 3 0) 0 10
  if !stagingOk (d.getD 2 0) (4 * len) then (stPermission, s)
  else if s.slotBound c i then (stBusy, s)
  else if len = 0 ∨ 512 < len then (stInvalid, s)
  else
    let image := s.staged n (d.getD 2 0) (4 * len)
    let words := (List.range len).map fun k => leAt image (4 * k) 4
    if !imageOk words then (stInvalid, s)
    else
      let x := s.core c
      let s := s.setCore c { x with slots := Sparse.set x.slots i ⟨words, job, crc32c image⟩ }
      let s := s.extend 5 (sm3 (image ++ natLe 4 (c + 256 * i)))
      let s := { s with sec := { s.sec with m5Count := s.sec.m5Count + 1 } }
      (stOk, s.irq (cmbPage c) 5)

/-! ### Faults (R332, R333, R260) -/

/-- What is known of the landing an error struck, for its record (R437). -/
def Run.errRec (r : Run) (kind block : Nat) : ErrRec :=
  { ErrRec.of r.lnd.die kind with block := block, core := r.core, rail := 3, job := r.grp.job, group := r.ent.key.group,
                                  step := r.ent.key.step, chunk := r.ent.key.chunk }

/-- The instruction word at the activation's pc. -/
def Run.word (r : Run) : Nat := match (r.st.core r.core).slots.find? fun e => e.1 == r.act.slot with
  | some e => e.2.words.getD r.act.pc 0
  | none => 0

/-- A flight fault: recorded, and the landing's entry abandoned under R281. `pc` and `w` are the instruction's. -/
def Run.faulted (r : Run) (s : State) (pc w reason : Nat) : State :=
  (s.faultRegs r.core r.act.slot pc w r.ent.key.group r.grp.job reason).abandon r.ent.key

/-- A residue mismatch in a vector lane: VEC_RESIDUE, the error record, RESIDUE_MISMATCH, and the armed injection is spent. -/
def Run.vecMismatch (r : Run) (e l u x o fmt : Nat) (ops : Option (Nat × Nat)) : State :=
  let a := vecPage r.core
  let s := r.st
  let s := if decide (r.find matches .residue ..) then s else s.setCore r.core { s.core r.core with vecArm := (s.core r.core).vecArm.erase (e, l, u) }
  let s := ((s.wr VEC_RESIDUE.engine a e).wr VEC_RESIDUE.unit a u).wr VEC_RESIDUE.expected a x
  let s := ((s.wr VEC_RESIDUE.observed a o).wr VEC_RESIDUE.lane a l).inc VEC_RESIDUE.count a
  let (g, s) := s.signed ops
  s.hwError { r.errRec 0x0109 2 with lane := l, unit := u, format := fmt, residues := x * 128 + o, signature := g } a 4 0x0032 2 r.core 0x81 0

/-- A residue mismatch in an exact-sum unit. -/
def Run.xseMismatch (r : Run) (e u x o fmt : Nat) (ops : Option (Nat × Nat)) : State :=
  let a := xsePage r.core
  let s := r.st
  let s := if decide (r.find matches .residue ..) then s else s.setCore r.core { s.core r.core with xseArm := (s.core r.core).xseArm.erase (e, u) }
  let s := ((s.wr XSE_RESIDUE.engine a e).wr XSE_RESIDUE.unit a u).wr XSE_RESIDUE.expected a x
  let s := (s.wr XSE_RESIDUE.observed a o).inc XSE_RESIDUE.count a
  let (g, s) := s.signed ops
  s.hwError { r.errRec 0x0109 0 with lane := e, unit := u, format := fmt, residues := x * 128 + o, signature := g } a 4 0x0032 2 r.core 0x82 0

/-- An uncorrectable read of landing SRAM at window offset `x` (R433). -/
def Run.sramBad (r : Run) (x : Nat) : State :=
  let q := r.st.memRecord { r.errRec 0x0101 2 with memory := 2, uncorrectable := true, rail := 2, addr := x } none
  q.2.hwError q.1 (vecPage r.core) 0 0x0031 3 (2 + r.lnd.die * 256) 0xFFFF 0

/-- A corrected read of landing SRAM: the operation goes on (R333, R433). -/
def Run.sramCorrected (r : Run) (x : Nat) : State :=
  let q := r.st.memRecord { r.errRec 0x0100 2 with memory := 2, rail := 2, addr := x } none
  q.2.hwError q.1 (vecPage r.core) 5 0x0030 0 (2 + r.lnd.die * 256) 0x82 0

/-- An instruction stops its activation: `w` at `pc`. -/
def Run.halt (r : Run) (pc w : Nat) (h : Halt) : State :=
  match h with
  | .fault n => r.faulted r.st pc w n
  | .vecResidue e l u x o f ops => r.faulted (r.vecMismatch e l u x o f ops) pc w fResidue
  | .xseResidue e u x o f ops => (r.xseMismatch e u x o f ops).abandon r.ent.key
  | .ecc area x => r.faulted (if area then r.st.dramUncorrected r.lnd.die 2 x else r.sramBad x) pc w fEcc

/-! ### Activations (R315 to R317) -/

/-- Scalar registers at the start of an activation (R317): s4 of a HALL event is the element count of the partial that it sends, so the flight
of a landing of identity contributions only sends the identity partial (R245, notes/assumptions/71.md). -/
def State.startRegs (s : State) (x : Group) (e : Entry) (l : Landing) (v : FlightEvent) : Sparse Nat :=
  let q := [v.code, v.s1, v.s2, v.s3, e.countOf (v.code != 3), x.chunkElements, x.k, x.rank e.key.origin, s.planHall, e.members, l.size,
    x.g 2, x.g 3, x.g 4, x.fragElems, x.resElems, x.g 5]
  (List.range 17).map fun i => (i, q.getD i 0)

/-- sp0 of an event. -/
def FlightEvent.sp0 (v : FlightEvent) : Stream := ⟨.input, v.fmt, v.mx, v.acc, 0, 0, 0, 0⟩

/-- A landing has an activation in a context of its core. -/
def Core.running (x : Core) (v : FlightEvent) : Bool :=
  x.ctxs.any fun a => decide (a.2.event.key = v.key) && a.2.event.die == v.die

/-- ACTIVATION_START of core `c`: the first waiting event whose landing runs nothing starts in the lowest free context. The CLAIM
activation of a landing whose slot is not loaded, or is bound to another job, faults at its first instruction (R314). -/
def activationStart (c : Nat) (s : State) : State :=
  let x := s.core c
  match x.events.find? (fun v => !x.running v), (List.range 4).find? (fun i => !Sparse.has x.ctxs i) with
  | some v, some i =>
    let x := { x with events := x.events.erase v }
    match s.live? v.key with
    | none => (s.setCore c x).dropEvent v
    | some e => match e.on? v.die with
      | none => (s.setCore c x).dropEvent v
      | some l =>
        let g := s.group v.key.group
        let a := Activation.mk v g.flight 0 (s.startRegs g e l v) [] [] [(0, v.sp0)] [] 0 [] 0 false 0
        let slot := x.slots.find? fun e => e.1 == g.flight
        let x := { x with ctxs := Sparse.set x.ctxs i a }
        let x := { x with uses := Sparse.set x.uses g.flight ((Sparse.get 0 x.uses g.flight + 1) % 2 ^ 32) }
        let s := (s.setCore c x).count (cmbPage c) 0x80
        let r := Run.mk s c i a l e g .ok 0
        match slot with
        | none => r.faulted s 0 0 fSlotEmpty
        | some f => if v.code = 0 ∧ f.2.job ≠ g.job then r.faulted s 0 (f.2.words.getD 0 0) fJob else s
  | _, _ => s

/-! ### Issue (R328 to R331) -/

/-- Passes of an array: those queued, and those whose values a bank holds. -/
def Array_.held (x : Array_) : List PassReq := x.queue ++ x.bank0.pass.toList ++ x.bank1.pass.toList

/-- The pass of a bank that is not over: a pass whose bank is held for its chain has nothing more to do. -/
def Bank.busy (b : Bank) : List PassReq := if b.state = .chainHeld then [] else b.pass.toList

/-- Passes of a core that are not over. -/
def Core.passes (x : Core) : List PassReq := x.array.queue ++ x.array.bank0.busy ++ x.array.bank1.busy

/-- Outstanding operations of a core: PASS instructions, by context and number in their activation. -/
def Core.operations (x : Core) : List (Nat × Nat) := (x.passes.map fun p => (p.ctx, p.op)).eraseDups

/-- Context `i` has passes outstanding. -/
def Core.outstanding (x : Core) (i : Nat) : Bool := x.passes.any fun p => p.ctx == i

/-- Opcodes that may wait for the activation's outstanding passes: END, SYNC, and what reads or writes the window (R329). -/
def waitsForPasses (op : Nat) : Bool :=
  op == 0x01 || op == 0x02 || op == 0x0B || op == 0x0C || decide (0x1A ≤ op ∧ op ≤ 0x21) || op == 0x28

/-- Fields of a tile descriptor (R321). -/
def tileStride (d : Nat) : Nat := bits d 48 16
def tilePerm (d : Nat) : Nat := bits d 38 2
def tileMx (d : Nat) : Bool := bit d 37
def tileFmt (d : Nat) : Nat := bits d 33 4
def tileOff (d : Nat) : Nat := bits d 0 32

/-- Bytes of a row of `n` elements. -/
def rowBytes (f : Nat) (mx : Bool) (n : Nat) : Nat := packedBytes f mx n

/-- Byte ranges of `rows` rows of `len` bytes of a tile. -/
def tileRows (d rows len : Nat) : List (Nat × Nat) := (List.range rows).map fun i => (tileOff d + i * tileStride d, len)

/-- A range of one list meets a range of another. -/
def rangesMeet (a b : List (Nat × Nat)) : Bool := a.any fun x => b.any fun y => decide (x.1 < y.1 + y.2 ∧ y.1 < x.1 + x.2)

/-- A pass of a COMPLEX product. -/
def PassReq.complex (p : PassReq) : Bool := decide (p.partA ≠ .plain ∧ p.partA ≠ .hi ∧ p.partA ≠ .lo)

/-- Window ranges that a pass reads as operands, and those that its drain writes. -/
def PassReq.reads (p : PassReq) : List (Nat × Nat) :=
  let tile := fun d rows => tileRows d rows (rowBytes (tileFmt d) (tileMx d) p.k)
  tile p.a0 p.m ++ (if p.complex then tile p.a1 p.m else []) ++
    (if p.bconst = 0 then tile p.b0 p.n ++ (if p.complex then tile p.b1 p.n else []) else [])
def PassReq.writes (p : PassReq) : List (Nat × Nat) :=
  p.dests.flatMap fun d => tileRows d p.m (if p.drain = 2 then rowBytes p.outFmt p.outMx p.n else 4 * p.n)

/-- Register fields of an instruction. -/
def rdOf (w : Nat) : Nat := bits w 21 5
def raOf (w : Nat) : Nat := bits w 16 5
def rbOf (w : Nat) : Nat := bits w 11 5

/-- Window bytes of `n` elements of a port description; WP elements are taken at their largest. -/
def Run.windowRange (r : Run) (x : Stream) (n : Nat) : List (Nat × Nat) :=
  if n = 0 ∨ x.space ≠ .window then [] else if x.fmt = 14 ∧ x.acc = false then [(x.off + x.bytes, 48 * n)] else [r.span x n]

/-- Window bytes of `n` elements of port `i`. -/
def Run.portRange (r : Run) (i n : Nat) : List (Nat × Nat) :=
  match r.port i with
  | .ok x => r.windowRange x n
  | .error _ => []

/-- Window bytes of `n` positions from `off`: accumulators, FAST sums, or running values in the input format. -/
def Run.positionRange (r : Run) (off n : Nat) : List (Nat × Nat) :=
  if r.grp.sums then (if n = 0 then [] else [(off * r.wordBytes, n * r.wordBytes)])
  else r.windowRange ⟨.window, r.grp.inFmt, r.grp.inMx, false, 0, off, 0, 0⟩ n

/-- Window ranges that instruction `w` reads, and those that it writes (R329). -/
def Run.touches (r : Run) (w : Nat) : List (Nat × Nat) × List (Nat × Nat) :=
  let quad := [((r.sreg (raOf w) + 8 * bits w 0 16) % 2 ^ 64, 8)]
  let d := bits w 23 3
  let a := bits w 20 3
  match opOf w with
  | 0x0B => (quad, [])
  | 0x0C => ([], quad)
  | 0x1A => (r.portRange (bits w 18 3) 1024, [])
  | 0x1B => ([], r.portRange (bits w 18 3) 1024)
  | 0x1C =>
    let n := r.sreg (bits w 8 5)
    (r.portRange a n ++ (if bits w 13 2 = 0 ∧ bits w 4 4 ≠ 0 then r.portRange (bits w 15 3) n else []) ++
      (if bits w 4 4 = 4 then r.portRange d n else []), r.portRange d n)
  | 0x1D => (r.portRange a (r.sreg (bits w 15 5)), r.portRange d (r.sreg (bits w 15 5)))
  | 0x1E =>
    let n := r.sreg (bits w 11 5)
    (r.portRange a n, r.portRange d n ++ if bit w 16 then r.portRange (bits w 17 3) n else [])
  | 0x20 =>
    let p := r.positionRange (r.sreg (bits w 18 5)) (r.sreg (bits w 13 5))
    (r.portRange d (r.sreg (bits w 13 5)) ++ p, p)
  | 0x21 =>
    let n := r.sreg (bits w 13 5)
    let f := if r.grp.sums = false then (r.grp.inFmt, r.grp.inMx) else if bits w 11 2 = 0 then (r.grp.resFmt, r.grp.resMx)
      else if bits w 11 2 = 1 then (1, false) else (14, false)
    (r.positionRange (r.sreg (bits w 18 5)) n, match r.port d with
      | .ok y => r.windowRange { y with fmt := f.1, mx := f.2, acc := false } n
      | .error _ => [])
  | _ => ([], [])

/-- Instruction `w` must wait for passes of its activation (R329): END and SYNC for any that is outstanding; another where a pass writes what
it reads or writes, or reads what it writes, or where 16 operations are outstanding and it would be one more. -/
def Run.mustWait (r : Run) (w : Nat) : Bool :=
  let x := r.st.core r.core
  let op := opOf w
  let old := x.passes.filter fun p => p.ctx == r.ctx
  let t := r.touches w
  waitsForPasses op && x.outstanding r.ctx && (op == 0x01 || op == 0x02
    || rangesMeet (t.1 ++ t.2) (old.flatMap PassReq.writes) || rangesMeet t.2 (old.flatMap PassReq.reads)
    || decide (16 ≤ (x.operations.filter fun o => o.1 == r.ctx).length))

/-- What a completed instruction leaves: the activation, the landing and the state. -/
def Run.commit (r : Run) : State :=
  let s := if r.areaOpen then r.st.tickFree 65536 else r.st
  let s := match r.find with
    | .corrected x => { r with st := s }.sramCorrected x
    | _ => s
  let x := s.core r.core
  (s.setCore r.core { x with ctxs := Sparse.set x.ctxs r.ctx r.act }).setLanding r.ent.key r.lnd

/-- Context `i` of core `c` issues its next instruction if that is of opcode `op`: an instruction that must wait, or another
opcode, changes nothing. `f` is the instruction's effect on its word, with the pc already past it. -/
def issue (op c i : Nat) (find : Find) (eng : Nat) (f : Nat → Run → Flow Run) (s : State) : State :=
  let x := s.core c
  match x.ctxs.find? fun e => e.1 == i with
  | none => s
  | some (_, a) => match s.live? a.event.key with
    | none => s
    | some e => match e.on? a.event.die with
      | none => s
      | some l =>
        let r := Run.mk s c i a l e (s.group a.event.key.group) find eng
        match x.slots.find? fun e => e.1 == a.slot with
        | none => r.faulted s a.pc 0 fSlotEmpty
        | some sl =>
          let w := sl.2.words.getD a.pc 0
          if opOf w ≠ op then s
          else if r.mustWait w then s.count (cmbPage c) 0x83
          else if s.rd CMB_CFG.max_steps (cmbPage c) ≤ a.steps then r.faulted s a.pc w fSteps
          else
            let s := s.count (cmbPage c) 0x81
            let r := { r with st := s, act := { a with pc := a.pc + 1, steps := a.steps + 1 } }
            match f w r with
            | .ok r => r.commit
            | .error h => r.halt a.pc w h

/-! ### Scalar instructions (R322) -/

/-- The operations of ALU; codes 14 and 15 are reserved and their result is a free value `z`. -/
def aluResult (fn a b z : Nat) : Nat :=
  match fn with
  | 0 => add64 a b
  | 1 => sub64 a b
  | 2 => Nat.land a b
  | 3 => Nat.lor a b
  | 4 => Nat.xor a b
  | 5 => a * 2 ^ (b % 64) % 2 ^ 64
  | 6 => a / 2 ^ (b % 64)
  | 7 => unsgn 64 (sgn 64 a / (2 ^ (b % 64) : Int))
  | 8 => a * b % 2 ^ 64
  | 9 => b2n (decide (a < b))
  | 10 => b2n (decide (sgn 64 a < sgn 64 b))
  | 11 => popCount 64 a
  | 12 => min a b
  | 13 => max a b
  | _ => z

/-- The 16-bit immediate, sign-extended to 64 bits. -/
def immS (w : Nat) : Nat := unsgn 64 (sgn 16 w)

/-- Branch to the target in bits [8:0] where `b` holds. -/
def Run.branch (r : Run) (w : Nat) (b : Bool) : Run := if b then { r with act := { r.act with pc := bits w 0 9 } } else r

/-- ALU. -/
def Run.alu (r : Run) (w : Nat) : Run :=
  let fn := bits w 0 4
  let v := aluResult fn (r.sreg (raOf w)) (r.sreg (rbOf w)) r.st.free
  let r := if fn < 14 then r else { r with st := r.st.tickFree }
  r.setS (rdOf w) v

/-- Window offset of LDW and STW: ra + 8 x imm modulo 2^64, 8-aligned. -/
def Run.quadAddr (r : Run) (w : Nat) : Flow Nat := do
  let a := (r.sreg (raOf w) + 8 * bits w 0 16) % 2 ^ 64
  need (a % 8 == 0) fBound
  .ok a

/-- LDW. -/
def Run.ldw (r : Run) (w : Nat) : Flow Run := do
  let a ← r.quadAddr w
  let l ← r.bytes .window a 8
  r.readOk false
  .ok (r.setS (rdOf w) (leNat l))

/-- STW. -/
def Run.stw (r : Run) (w : Nat) : Flow Run := do
  let a ← r.quadAddr w
  r.store .window a (natLe 8 (r.sreg (rdOf w)))

/-- FINS: a field of rd takes the low bits of ra. -/
def Run.fins (r : Run) (w : Nat) : Run :=
  r.setS (rdOf w) (setBits (r.sreg (rdOf w)) (bits w 10 6) (bits w 4 6 + 1) (r.sreg (raOf w)))

/-- END: the activation ends (R316); with a chain open it faults (R330). -/
def Run.finish (r : Run) : Flow Run := do
  need (!r.act.chain) fOperand
  .ok r

/-- END as a step: the context is freed, the event's frame is released and what follows the activation happens. -/
def flightEnd (c i : Nat) (s : State) : State :=
  let x := s.core c
  match x.ctxs.find? fun e => e.1 == i with
  | none => s
  | some (_, a) =>
    let t := issue 0x01 c i .ok 0 (fun _ r => r.finish) s
    match (t.core c).ctxs.find? fun e => e.1 == i with
    | none => t
    | some (_, b) =>
      if b.steps = a.steps then t
      else
        let y := t.core c
        ((t.setCore c { y with ctxs := Sparse.del y.ctxs i }).dropEvent a.event).activationEnded a.event

/-! ### FSEND (R327, R274, R283) -/

/-- The frame of an FSEND is well formed: its payload is `n` whole elements of the format `f`. -/
def Run.payloadOk (r : Run) (f : Nat × Bool) (n : Nat) : Bool :=
  r.act.outFmts.all (fun x => x == f) && r.act.outCount == n && (f.1 == 14 || r.act.out.length == packedBytes f.1 f.2 n)

/-- First element and length satisfy R275 for a partial of `c` chunk elements, or R283 for a result. -/
def Group.fragOk (g : Group) (result : Bool) (c first n : Nat) : Bool :=
  let per := if result then g.resElems else g.fragElems
  let p := if result then c else g.partElems c
  if c = 0 then first == 0 && n == 0 else first % per == 0 && decide (first < p) && n == min per (p - first)

/-- Header of a frame that a landing sends. -/
def Run.sendHeader (r : Run) (result : Bool) (c first : Nat) : Hjt :=
  let k := r.ent.key
  let g := r.grp
  let f := if result then (g.resFmt, g.resMx) else g.partFmt
  let check := if c = 0 ∧ result = false then 0 else r.ent.checkOf g result
  let mark := r.ent.downgraded || (decide (r.lnd.kind = .relay) && (g.mode == mSplit || g.mode == mCompressed))
  let h := { Hjt.zero (if result then tResult else tContrib) with
    job := g.job, group := k.group, step := k.step, chunk := k.chunk, mode := g.mode, op := g.op, format := f.1, mx := f.2, check := check }
  if result then { h with repro := r.ent.repro g }
  else { h with member := 2 ^ 19 + b2n mark * 2 ^ 18 + k.origin % 64 * 64 + r.st.planHall % 64, remote := c * 2 ^ 32 + first }

/-- Addressees of a frame: for a partial the peers' spines, for a result every local member with its own address. -/
def Run.sendTo (r : Run) (pl : Plan) (result : Bool) (first : Nat) : List CopyHdr :=
  let g := r.grp
  if result then
    let o := if g.resFmt = 14 then r.act.sent else packedBytes g.resFmt g.resMx first
    g.members.map fun m => ⟨m.fea, some (m.index, (m.base + r.ent.key.chunk * g.stride + o) % 2 ^ 64)⟩
  else (g.hallList.filter fun h => h != pl.hall).map fun h => ⟨spineFea h pl.rail pl.spine 1, none⟩

/-- A frame enters the store in treads its landing reserved. -/
def State.newReserved (s : State) (f : Frame) : Nat × State :=
  let id := s.sw.nextId
  (id, { s with sw := { s.sw with nextId := id + 1 } }.setFrame id f)

/-- FSEND. -/
def Run.fsend (r : Run) (w : Nat) : Flow Run := do
  let kind := bits w 24 2
  let first := r.sreg (bits w 19 5)
  let n := r.sreg (bits w 14 5)
  let g := r.grp
  let result := kind == 1
  let c := r.ent.countOf result
  need (decide (kind < 2) && decide (r.lnd.kind ≠ .die)) fFrame
  need (if result then decide (r.lnd.kind = .head) else (decide (r.lnd.kind = .relay) || g.k != 1)) fFrame
  need (r.payloadOk (if result then (g.resFmt, g.resMx) else g.partFmt) n) fFrame
  need (g.fragOk result c first n) fFrame
  let t := frameTreads r.act.out.length
  need (decide (t ≤ r.lnd.treads)) fFrame
  match r.st.boot.plan with
  | none => flowFault fFrame
  | some pl =>
    let cls := if result then 2 else 1
    let hs := r.sendTo pl result first
    let dst := match hs with
      | h :: _ => h.fea
      | [] => r.st.ownFea 1
    let u := hjtFrame (r.st.fabricAddr dst) (r.st.fabricAddr (r.st.ownFea 1)) cls 64
      (r.st.rd SWP_PARSE_CFG.hjt_port (swpPage 0)) (r.sendHeader result c first) r.act.out
    -- the catcher's own gallery stage takes a relay's partial without a port, from the treads that hold it (R279)
    let own := decide (r.lnd.kind = .relay)
    let (id, s) := r.st.newReserved (Frame.mk u 0xFFFF r.lnd.die .result t cls g.job (1 + b2n own) true true false result)
    let s := (s.placeTo id r.lnd.die hs).count (cmbPage r.core) 0x85
    let s := if own then
        match s.acceptContrib id r.lnd.die (r.core / 2) u with
        | (none, s) => s
        | (some _, s) => s.release id
      else s
    let s := s.iff (!result) fun s => s.updEntry r.ent.key fun e => { e with sent := true }
    .ok { r with st := s, lnd := { r.lnd with treads := r.lnd.treads - t }, act := { r.act with
      out := [], outCount := 0, outFmts := [], sent := r.act.sent + r.act.out.length } }

/-! ### PASS (R326, R294 to R304) -/

/-- Row of R294 of a PLAIN operand: 1 16-bit floats, 2 FP8 and MXFP8, 3 INT8, 4 MXINT8, 5 FP6, FP4 and their MX forms. -/
def arrRow (f : Nat) (mx : Bool) : Option Nat :=
  if (f = 2 ∨ f = 3) ∧ mx = false then some 1
  else if f = 4 ∨ f = 5 then some 2
  else if f = 9 then some (if mx then 4 else 3)
  else if 6 ≤ f ∧ f ≤ 8 then some 5
  else none

/-- rho of R294 by row. -/
def rowRho (row : Nat) : Nat := if row = 1 then 1 else if row = 5 then 4 else 2

/-- A's operand format under a product: its row; FP32 for FP32_SPLIT and bfloat16 for COMPLEX count as row 1. -/
def operandRow (product f : Nat) (mx : Bool) : Option Nat :=
  if product = 0 then arrRow f mx
  else if product = 1 then (if f = 1 ∧ mx = false then some 1 else none)
  else if f = 2 ∧ mx = false then some 1 else none

/-- The smallest power of two at or above `n`, up to 128. -/
def pow2Up (n : Nat) : Nat := ((List.range 8).find? fun i => decide (n ≤ 2 ^ i)).elim 128 fun i => 2 ^ i

/-- Fold factors of R298. -/
def foldM (m : Nat) : Nat := min 4 (128 / pow2Up m)
def fold (m n : Nat) : Nat := foldM m * foldM n
/-- Kc of R298. -/
def foldK (m n k : Nat) : Nat := 32 * cdiv k (32 * fold m n)

/-- `rows` rows of `n` elements of a tile lie in the window. -/
def Run.tileIn (r : Run) (d rows f : Nat) (mx : Bool) (n : Nat) : Bool :=
  decide (tileOff d + (rows - 1) * tileStride d + rowBytes f mx n ≤ r.lnd.size)

/-- The tile descriptor of handle `i`; OPERAND where it is not bound. -/
def Run.tile (r : Run) (i : Nat) : Flow Nat :=
  match r.act.t.find? fun e => e.1 == i % 8 with
  | some e => .ok e.2
  | none => flowFault fOperand

/-- The array's passes of one PASS: one, or the three of R302 or R303. -/
def subPasses (product : Nat) (p : PassReq) : List PassReq :=
  if product = 0 then [p]
  else if product = 1 then
    [{ p with partA := .lo, partB := .hi, drain := 3 },
     { p with partA := .hi, partB := .lo, chained := true, drain := 3 },
     { p with partA := .hi, partB := .hi, chained := true }]
  else
    [{ p with partA := .reIm, partB := .re, drain := 0 },
     { p with partA := .im, partB := .negReIm, chained := false, drain := 1, dests := p.dests.take 1 },
     { p with partA := .re, partB := .imRe, chained := false, drain := 1, dests := p.dests.drop 1 }]

/-- The passes `new` of a PASS of context `i` must wait: an outstanding pass of its activation writes what one of them reads or writes, or
reads what one of them writes, or 16 operations are outstanding (R329). -/
def Core.mustWait (x : Core) (i : Nat) (new : List PassReq) : Bool :=
  let old := x.passes.filter fun p => p.ctx == i
  let written := old.flatMap PassReq.writes
  rangesMeet (new.flatMap fun p => p.reads ++ p.writes) written
    || rangesMeet (new.flatMap PassReq.writes) (old.flatMap PassReq.reads)
    || decide (16 ≤ (x.operations.filter fun o => o.1 == i).length)

/-- A work pass arrives at an array: the wait of R309 at the duty then in force, and the end of the gap, if it meets one. -/
def State.passArrives (s : State) (c : Nat) : State :=
  let a := arrPage c
  let x := (s.core c).array
  let d := s.rd ARR_STATUS.duty a
  let s := (s.wr ARR_RAMP.last_wait_ns a ((128 - d) * 1000 / 128)).iff (decide (d < 128)) fun s => s.count a 0x89
  match x.queue, x.gapAt with
  | [], some t => s.wr ARR_RAMP.last_gap_ns a (min (s.now - t) (2 ^ 32 - 1))
  | _, _ => s

/-- PASS; none where it must wait: for room in the queue, for another activation's chain (R330), or under R329. With a chain open the
pass must go on with it (R296); a chained pass with none open is the array's to abandon (R304). -/
def Run.arrayPass (r : Run) (w : Nat) : Flow (Option Run) := do
  let q := r.sreg (rdOf w)
  let x := r.st.core r.core
  let m := bits q 0 8
  let n := bits q 8 8
  let k := bits q 16 18
  let product := bits q 34 2
  let drain := bits q 36 2
  let chained := bit q 46
  let bc := bits w 6 2
  let ta := bits w 18 3
  let tb := bits w 15 3
  need (decide (m ≤ 128) && decide (n ≤ 128) && product != 3) fOperand
  if m = 0 ∨ n = 0 ∨ k = 0 then return some r
  need (!r.act.chain || chained) fOperand
  let a0 ← r.tile ta
  let a1 ← if product = 2 then r.tile (ta + 1) else .ok 0
  let b0 ← if bc = 0 then r.tile tb else .ok 0
  let b1 ← if bc = 0 && product == 2 then r.tile (tb + 1) else .ok 0
  let d0 ← if drain = 3 && product != 2 then .ok 0 else r.tile (bits w 12 3)
  let d1 ← if bit w 8 then r.tile (bits w 9 3) else .ok 0
  need (bc == 0 || (k == 128 && n == 128)) fOperand
  need ([a0, a1, b0, b1].all fun d => tilePerm d != 3) fOperand
  let outOk := drain != 2 || product == 2 || (fmtBits (bits q 38 4) != 0 && (!bit q 47 || (decide (4 ≤ bits q 38 4) && decide (bits q 38 4 ≤ 9)))
    && decide (bits q 42 3 ≤ 4))
  let row ← match operandRow product (tileFmt a0) (tileMx a0) with
    | some i => .ok i
    | none => flowFault fFormat
  need (outOk && (bc != 0 || operandRow product (tileFmt b0) (tileMx b0) == some row)) fFormat
  need (product != 2 || (operandRow 2 (tileFmt a1) (tileMx a1) == some 1 && (bc != 0 || operandRow 2 (tileFmt b1) (tileMx b1) == some 1))) fFormat
  need (decide (foldK m n k / (if product = 0 then rowRho row else 1) ≤ 4096)) fPassLength
  let outF := if drain = 2 ∧ product ≠ 2 then bits q 38 4 else 1
  let outMx := drain == 2 && product != 2 && bit q 47
  let dests := if drain = 3 ∧ product ≠ 2 then [] else d0 :: if bit w 8 then [d1] else []
  need (r.tileIn a0 m (tileFmt a0) (tileMx a0) k && (product != 2 || r.tileIn a1 m 2 false k)
    && (bc != 0 || (r.tileIn b0 n (tileFmt b0) (tileMx b0) k && (product != 2 || r.tileIn b1 n 2 false k)))
    && dests.all fun d => r.tileIn d m outF outMx n) fBound
  let p := PassReq.mk r.ent.key r.lnd.die r.ctx (r.act.pc - 1) w r.act.steps (r.act.slot * 1024) m n k a0 a1 b0 b1 bc .plain .plain chained drain dests
    (bits q 38 4) outMx (bits q 42 3) (bit q 45)
  let ps := subPasses product p
  if 64 < x.array.queue.length + ps.length ∨ (x.ctxs.any fun e => e.1 != r.ctx && e.2.chain) = true ∨ x.mustWait r.ctx ps = true then
    .ok none
  else
    let ps := ps.zipIdx.map fun e => { e.1 with tag := e.1.tag + (x.array.seq + e.2) % 1024 }
    let s := r.st.passArrives r.core
    let s := s.setCore r.core { x with array := { x.array with queue := x.array.queue ++ ps, seq := x.array.seq + ps.length } }
    .ok (some { r with st := s, act := { r.act with chain := decide (drain = 3) && product != 2 } })

/-- The next instruction of context `i` of core `c` is a PASS that must wait. -/
def State.passWaits (s : State) (c i : Nat) : Bool :=
  let x := s.core c
  match x.ctxs.find? fun e => e.1 == i with
  | none => false
  | some (_, a) => match s.live? a.event.key with
    | none => false
    | some e => match e.on? a.event.die, x.slots.find? fun e => e.1 == a.slot with
      | some l, some sl =>
        let w := sl.2.words.getD a.pc 0
        opOf w == 0x24 && match (Run.mk s c i a l e (s.group a.event.key.group) .ok 0).arrayPass w with
          | .ok none => true
          | _ => false
      | _, _ => false

/-- PASS as a step: where it must wait, nothing changes. -/
def flightPass (c i : Nat) (s : State) : State :=
  if s.passWaits c i then s.count (cmbPage c) 0x83
  else issue 0x24 c i .ok 0 (fun w r => match r.arrayPass w with
    | .ok (some r) => .ok r
    | .ok none => .ok r
    | .error h => .error h) s

/-! ### The instructions -/

def pure1 (f : Nat → Run → Run) : Nat → Run → Flow Run := fun w r => .ok (f w r)

def fiNop (c i : Nat) (s : State) : State := issue 0x00 c i .ok 0 (pure1 fun _ r => r) s
def fiSync (c i : Nat) (s : State) : State := issue 0x02 c i .ok 0 (pure1 fun _ r => r) s
def fiLi (c i : Nat) (s : State) : State := issue 0x03 c i .ok 0 (pure1 fun w r => r.setS (rdOf w) (immS w)) s
def fiLsi (c i : Nat) (s : State) : State :=
  issue 0x04 c i .ok 0 (pure1 fun w r => r.setS (rdOf w) (r.sreg (rdOf w) * 65536 + bits w 0 16)) s
def fiAddi (c i : Nat) (s : State) : State :=
  issue 0x05 c i .ok 0 (pure1 fun w r => r.setS (rdOf w) (r.sreg (raOf w) + immS w)) s
def fiShli (c i : Nat) (s : State) : State :=
  issue 0x06 c i .ok 0 (pure1 fun w r => r.setS (rdOf w) (r.sreg (raOf w) * 2 ^ bits w 0 6)) s
def fiShri (c i : Nat) (s : State) : State :=
  issue 0x07 c i .ok 0 (pure1 fun w r => r.setS (rdOf w) (r.sreg (raOf w) / 2 ^ bits w 0 6)) s
def fiAlu (c i : Nat) (s : State) : State := issue 0x08 c i .ok 0 (pure1 fun w r => r.alu w) s
def fiFld (c i : Nat) (s : State) : State :=
  issue 0x09 c i .ok 0 (pure1 fun w r => r.setS (rdOf w) (bits (r.sreg (raOf w)) (bits w 10 6) (bits w 4 6 + 1))) s
def fiFins (c i : Nat) (s : State) : State := issue 0x0A c i .ok 0 (pure1 fun w r => r.fins w) s
def fiLdw (c i : Nat) (find : Find) (s : State) : State := issue 0x0B c i find 0 (fun w r => r.ldw w) s
def fiStw (c i : Nat) (s : State) : State := issue 0x0C c i .ok 0 (fun w r => r.stw w) s

/-- A branch that compares two registers, with its opcode. -/
def fiBranch (op : Nat) (p : Nat → Nat → Bool) (c i : Nat) (s : State) : State :=
  issue op c i .ok 0 (pure1 fun w r => r.branch w (p (r.sreg (rdOf w)) (r.sreg (raOf w)))) s

/-- A branch that compares a register with an 8-bit immediate. -/
def fiBranchImm (op : Nat) (p : Nat → Nat → Bool) (c i : Nat) (s : State) : State :=
  issue op c i .ok 0 (pure1 fun w r => r.branch w (p (r.sreg (rdOf w)) (bits w 13 8))) s

def fiJmp (c i : Nat) (s : State) : State := issue 0x13 c i .ok 0 (pure1 fun w r => r.branch w true) s
def fiSpcfg (c i : Nat) (s : State) : State :=
  issue 0x18 c i .ok 0 (pure1 fun w r => r.setPort (bits w 23 3) (portOf (bits w 23 3) (r.sreg (bits w 18 5)))) s
def fiTdef (c i : Nat) (s : State) : State :=
  issue 0x19 c i .ok 0 (pure1 fun w r =>
    { r with act := { r.act with t := Sparse.set r.act.t (bits w 23 3) (r.sreg (bits w 18 5)) } }) s
def fiVld (c i : Nat) (find : Find) (s : State) : State := issue 0x1A c i find 0 (fun w r => r.vld w) s
def fiVst (c i : Nat) (s : State) : State := issue 0x1B c i .ok 0 (fun w r => r.vst w) s
def fiVbin (c i : Nat) (find : Find) (s : State) : State := issue 0x1C c i find 0 (fun w r => r.vbin w) s
def fiVcvt (c i : Nat) (find : Find) (s : State) : State := issue 0x1D c i find 0 (fun w r => r.vcvt w) s
def fiVquant (c i : Nat) (find : Find) (s : State) : State := issue 0x1E c i find 0 (fun w r => r.vquant w) s
def fiXadd (c i : Nat) (find : Find) (eng : Nat) (s : State) : State := issue 0x20 c i find eng (fun w r => r.xadd w) s
def fiXround (c i : Nat) (find : Find) (eng : Nat) (s : State) : State := issue 0x21 c i find eng (fun w r => r.xround w) s
def fiFsend (c i : Nat) (s : State) : State := issue 0x28 c i .ok 0 (fun w r => r.fsend w) s

end Sys2Proof.Machine
end

