-- ==== Sys2Proof/Machine/Arrays.lean ====
section
/-! DEFINITION. The matrix arrays: operands and cells (R293 to R298), folding and drains (R299 to R303), pass boundaries, pre-emption
and abandonment (R304 to R306), filler passes and the current ramp (R308, R309), and the injections of R262. -/

namespace Sys2Proof.Machine

/-! ### Operands (R294, R296, R302, R303, R321) -/

/-- The element index that the array takes at position `p` of a row (R321). -/
def permIndex (perm p : Nat) : Nat :=
  let b := p / 128 * 128
  let q := p % 128
  if perm = 1 then b + 8 * (q % 16) + q / 16
  else if perm = 2 then b + 16 * (q % 8) + q / 8
  else p

/-- Code of element `e` in row `i` of a tile without block scale, of `w` bits. -/
def tileCode (win : List Host.Cell) (d i e w : Nat) : Nat :=
  let o := tileOff d + i * tileStride d
  bits (leNat (Memory.readN win (o + e * w / 8) (cdiv (e * w % 8 + w) 8))) (e * w % 8) w

/-- Value of element `e` in row `i` of a tile. -/
def tileVal (win : List Host.Cell) (d i e : Nat) : Val :=
  let f := tileFmt d
  if tileMx d then
    let o := tileOff d + i * tileStride d + e / 32 * mxBlockBytes f
    let blk := Memory.readN win o (mxBlockBytes f)
    mxVal f (leNat (blk.take 1)) (bits (leNat (blk.drop 1)) (e % 32 * fmtBits f) (fmtBits f))
  else codeVal f (tileCode win d i e (fmtBits f))

/-- A value rounded once to bfloat16 nearest-even. -/
def toBf16 (v : Val) : Val := floatVal 2 (roundVal 2 rNearest false 0 1 v).code

/-- The upper and lower part of an FP32 code (R302). -/
def splitHi (c : Nat) : Val := match floatVal 1 c with
  | .num .. => floatVal 2 (c / 65536)
  | v => v
def splitLo (c : Nat) : Val := match floatVal 1 c with
  | .num s m e => toBf16 (addVal rNearest (.num s m e) (negVal (floatVal 2 (c / 65536))))
  | _ => .num false 0 0

/-- An entry of a constant B (R296): 1 IDENTITY, 2 HADAMARD_8, 3 HADAMARD_16. -/
def constVal (c k j : Nat) : Val :=
  let n := if c = 2 then 8 else 16
  if c = 1 then .num false (b2n (k == j)) 0
  else if k / n ≠ j / n then .num false 0 0
  else .num (popCount 4 (Nat.land (k % n) (j % n)) % 2 == 1) 1 0

/-- An operand of a pass as part `p` takes it: `x` and `y` are the real and imaginary element, `c` the FP32 code. -/
def partVal (p : Part) (x y : Val) (c : Nat) : Val :=
  match p with
  | .plain | .re => x
  | .im => y
  | .hi => splitHi c
  | .lo => splitLo c
  | .reIm => toBf16 (addVal rNearest x y)
  | .imRe => toBf16 (addVal rNearest y (negVal x))
  | .negReIm => negVal (toBf16 (addVal rNearest x y))

/-- Element `k` of row `i` of tile `d`, in the order of the tile's own perm; 0 beyond K (R321). -/
def PassReq.elem (p : PassReq) (win : List Host.Cell) (d i k : Nat) : Val :=
  let e := permIndex (tilePerm d) k
  if p.k ≤ e then .num false 0 0 else tileVal win d i e

/-- Its code, as FP32. -/
def PassReq.elemCode (p : PassReq) (win : List Host.Cell) (d i k : Nat) : Nat :=
  let e := permIndex (tilePerm d) k
  if p.k ≤ e then 0 else tileCode win d i e 32

/-- Element `k` of row `i` of A; 0 beyond K. -/
def PassReq.aVal (p : PassReq) (win : List Host.Cell) (i k : Nat) : Val :=
  if p.k ≤ k then .num false 0 0
  else partVal p.partA (p.elem win p.a0 i k) (p.elem win p.a1 i k) (p.elemCode win p.a0 i k)

/-- Element `k` of column `j` of B; a constant has no imaginary part and no lower part. -/
def PassReq.bVal (p : PassReq) (win : List Host.Cell) (j k : Nat) : Val :=
  if p.k ≤ k then .num false 0 0
  else if p.bconst ≠ 0 then
    let v := constVal p.bconst k j
    match p.partB with
    | .lo | .im => .num false 0 0
    | .imRe | .negReIm => negVal v
    | _ => v
  else partVal p.partB (p.elem win p.b0 j k) (p.elem win p.b1 j k) (p.elemCode win p.b0 j k)

/-- The bank holds INT32. -/
def PassReq.int (p : PassReq) : Bool := decide (p.partA = .plain) && tileFmt p.a0 == 9 && !tileMx p.a0

/-- rho of a pass. -/
def PassReq.rho (p : PassReq) : Nat :=
  if p.partA = .plain then rowRho ((arrRow (tileFmt p.a0) (tileMx p.a0)).getD 1) else 1

/-- Length of a pass in stream cycles (R298). -/
def PassReq.cycles (p : PassReq) : Nat := foldK p.m p.n p.k / p.rho

/-! ### Cells (R295, R298, R299) -/

/-- The signed integer of an exact integer value. -/
def valInt (v : Val) : Int := match v with
  | .num s m e => unitsOf s m e 0
  | _ => 0

/-- A cell takes one group of products. -/
def cellStep (int : Bool) (acc : Nat) (ps : List Val) : Nat :=
  if int then unsgn 32 ((acc : Int) + ps.foldl (fun a v => a + valInt v) 0)
  else match ps with
    | [] => acc
    | v :: l => (roundVal 1 rNearest false 0 1 (addVal rNearest (floatVal 1 acc) (l.foldl (addVal rNearest) v))).code

/-- A cell's value after the k indices `ks`, in groups of rho, from `acc`. `fuel` is the number of groups. -/
def cellRun (int : Bool) (rho : Nat) (prod : Nat → Val) : Nat → Nat → Nat → Nat
  | 0, _, acc => acc
  | fuel + 1, k, acc =>
    cellRun int rho prod fuel (k + rho) (cellStep int acc ((List.range rho).map fun i => prod (k + i)))

/-- Sub-array and element of cell (row, column) in a fold of M x N: none for a cell that holds no output (R298). -/
def foldCell (m n row col : Nat) : Option (Nat × Nat × Nat) :=
  let hm := 128 / foldM m
  let hn := 128 / foldM n
  let i := row % hm
  let j := col % hn
  if i < m ∧ j < n then some (row / hm + foldM m * (col / hn), i, j) else none

/-- What a unit of cell (row, column) first produces in a pass: the product of the first two significands, the exact sum of the first
group as aligned, and the bank after it. -/
def PassReq.cellResult (p : PassReq) (win : List Host.Cell) (old : Sparse Nat) (row col unit : Nat) : Option Nat :=
  match foldCell p.m p.n row col with
  | none => none
  | some (s, i, j) =>
    let k := s * foldK p.m p.n p.k
    let ps := (List.range p.rho).map fun q => mulVal (p.aVal win i (k + q)) (p.bVal win j (k + q))
    let mag := fun (v : Val) => match v with
      | .num _ m _ => m
      | _ => 0
    if unit = 0 then some (mag (ps.getD 0 .nan))
    else if unit = 1 then (if p.int then none else some (mag (ps.foldl (addVal rNearest) (.num false 0 0))))
    else some (cellStep p.int (Sparse.get 0 old (128 * row + col)) ps)

/-- The first result of the operand stage, unit 5, in a pass: a pre-sum, before its negation, or the operand that the split takes first
(R302, R303, R305). -/
def PassReq.stageResult (p : PassReq) (win : List Host.Cell) : List (Nat × Nat) :=
  let code := fun v => (roundVal 2 rNearest false 0 1 v).code
  match p.partA, p.partB with
  | .plain, _ => []
  | _, .negReIm => [(5, code (negVal (p.bVal win 0 0)))]
  | _, .imRe => [(5, code (p.bVal win 0 0))]
  | _, _ => [(5, code (p.aVal win 0 0))]

/-- The bank after a pass, from the cells `old`, which a pass that is not chained finds clear. -/
def PassReq.run (p : PassReq) (win : List Host.Cell) (old : Sparse Nat) : Sparse Nat :=
  let kc := foldK p.m p.n p.k
  (List.range 16384).filterMap fun c =>
    let prev := Sparse.get 0 old c
    let v := match foldCell p.m p.n (c / 128) (c % 128) with
      | none => prev
      | some (s, i, j) =>
        let prod := fun k => if k < (s + 1) * kc then mulVal (p.aVal win i k) (p.bVal win j k) else .num false 0 0
        cellRun p.int p.rho prod (kc / p.rho) (s * kc) prev
    if v = 0 then none else some (c, v)

/-- Sub-array values of output element (i, j) of a pass in its bank, and one addition of the fold (R298, R299). -/
def PassReq.part (p : PassReq) (cells : Sparse Nat) (i j s : Nat) : Nat :=
  Sparse.get 0 cells ((s % foldM p.m * (128 / foldM p.m) + i) * 128 + (s / foldM p.m * (128 / foldM p.n) + j))
def PassReq.foldAdd (p : PassReq) (a b : Nat) : Nat := if p.int then (a + b) % 2 ^ 32 else fp32Add a b

/-- Output element (i, j) of a pass from its bank: the sub-arrays added in order (R299). -/
def PassReq.output (p : PassReq) (cells : Sparse Nat) (i j : Nat) : Nat :=
  (List.range (fold p.m p.n - 1)).foldl (fun a s => p.foldAdd a (p.part cells i j (s + 1))) (p.part cells i j 0)

/-! ### Faults (R305, R306) -/

/-- The array of a core changed. -/
def State.setArray (s : State) (c : Nat) (x : Array_) : State := s.setCore c { s.core c with array := x }

/-- ARR_FAULT of core `c`. -/
def State.arrFault (s : State) (c reason unit row col expected observed tag : Nat) : State :=
  let a := arrPage c
  let s := ((s.wr ARR_FAULT.reason a reason).wr ARR_FAULT.unit a unit).wr ARR_FAULT.row a row
  let s := ((s.wr ARR_FAULT.column a col).wr ARR_FAULT.expected a expected).wr ARR_FAULT.observed a observed
  s.wr ARR_FAULT.tag a tag

/-- The record of an array error. -/
def State.arrRec (s : State) (c : Nat) (p : Option PassReq) (kind : Nat) : ErrRec :=
  let e := { ErrRec.of (c / 8) kind with block := 1, core := c, rail := 3 }
  match p with
  | none => e
  | some p =>
    let e := { e with format := tileFmt p.a0, job := (s.group p.key.group).job, group := p.key.group }
    { e with step := p.key.step, chunk := p.key.chunk }

/-- A residue mismatch of an array, in work or in filler; `ops` are the failing unit's operands, where they are known (R438). -/
def State.arrMismatch (s : State) (c : Nat) (p : Option PassReq) (unit row col expected observed : Nat) (ops : Option (Nat × Nat)) : State :=
  let s := s.arrFault c 1 unit row col expected observed ((p.map fun p => p.tag).getD 0)
  let (g, s) := s.signed ops
  s.hwError { s.arrRec c p 0x0109 with lane := row, unit := col, detail := unit, residues := expected * 128 + observed, signature := g }
    (arrPage c) 4 0x0032 2 c 0x86 0

/-- The activation that issued a pass faults with `reason` at the PASS (R332), and its landing's entry is abandoned, the pass with it. -/
def State.passFault (s : State) (c : Nat) (p : PassReq) (reason : Nat) : State :=
  (s.faultRegs c (p.tag / 1024) p.pc p.word p.key.group (s.group p.key.group).job reason).abandon p.key

/-- What stops a pass: a residue, an uncorrectable operand read at a window offset, a tag. -/
inductive PassStop where
  | residue (unit row col expected observed : Nat) (ops : Option (Nat × Nat))
  | ecc (addr : Nat)
  | tag
  deriving DecidableEq, Repr

/-- A pass of core `c` is abandoned (R306). -/
def State.passStop (s : State) (c : Nat) (p : PassReq) (h : PassStop) : State :=
  match h with
  | .residue u row col x o ops => (s.arrMismatch c (some p) u row col x o ops).passFault c p fResidue
  | .ecc a =>
    let s := s.arrFault c 2 0 0 0 0 0 p.tag
    let q := s.memRecord { s.arrRec c (some p) 0x0101 with memory := 2, uncorrectable := true, rail := 2, addr := a } none
    (q.2.hwError q.1 (arrPage c) 0 0x0031 3 (2 + c / 8 * 256) 0xFFFF 0).passFault c p fEcc
  | .tag => (s.arrFault c 3 0 0 0 0 0 p.tag).abandon p.key

/-- What the hardware finds, or an armed injection does, in a pass, and the injection that is spent by it: `units` are the first results of
the units outside the cells, `cells` that of a unit of a cell. -/
def State.passCheck (s : State) (c : Nat) (find : Find) (units : List (Nat × Nat)) (cells : Nat → Nat → Nat → Option Nat) :
    Option (PassStop × Option (Nat × Nat × Nat)) :=
  match find with
  | .uncorrectable a => some (.ecc a, none)
  | .residue row col u x o a b => some (.residue u row col x o (some (a, b)), none)
  | _ => (s.core c).arrArm.findSome? fun a =>
    let at_ := if a.2.2 ≤ 2 then (a.1, a.2.1) else (0, 0)
    let result := if a.2.2 ≤ 2 then cells a.1 a.2.1 a.2.2 else (units.find? fun q => q.1 == a.2.2).map fun q => q.2
    result.map fun v => (.residue a.2.2 at_.1 at_.2 (residuePair v).1 (residuePair v).2 none, some a)

/-- The injection that caused a stop is spent. -/
def State.spendArm (s : State) (c : Nat) (arm : Option (Nat × Nat × Nat)) : State :=
  match arm with
  | some a => s.setCore c { s.core c with arrArm := (s.core c).arrArm.erase a }
  | none => s

/-- A corrected operand read is counted and the pass goes on (R305). -/
def State.passCorrected (s : State) (c : Nat) (p : PassReq) (find : Find) : State :=
  match find with
  | .corrected a =>
    let q := s.memRecord { s.arrRec c (some p) 0x0100 with memory := 2, rail := 2, addr := a } none
    q.2.hwError q.1 (arrPage c) 0 0x0030 0 (2 + c / 8 * 256) 0x87 0
  | _ => s

/-! ### Pass boundaries (R300, R304) -/

def Array_.bank (x : Array_) (b : Nat) : Bank := if b = 0 then x.bank0 else x.bank1
def Array_.setBank (x : Array_) (b : Nat) (v : Bank) : Array_ := if b = 0 then { x with bank0 := v } else { x with bank1 := v }

/-- The first bank in a state, bank 0 first. -/
def Array_.inState (x : Array_) (st : BankState) : Option Nat :=
  if x.bank0.state = st then some 0 else if x.bank1.state = st then some 1 else none

/-- The last stream cycle of the pass in progress: its bank is held for the chain or drains, the other bank has had its cycles, and a gap
starts where nothing is queued (R300, R304, R308). -/
def Array_.boundary (x : Array_) (now : Nat) : Array_ :=
  match x.inState .accumulating with
  | none => x
  | some b =>
    let v := x.bank b
    let other := x.bank (1 - b)
    let none_ := match v.pass with
      | some p => p.drain == 3
      | none => false
    let ran := match v.pass with
      | some p => p.cycles
      | none => 0
    { (x.setBank b { v with state := if none_ then .chainHeld else .draining, since := 0 }).setBank (1 - b) { other with since := other.since + ran }
      with gapAt := if x.queue.isEmpty then some now else x.gapAt }

/-- Cycles that a pass stalls for bank `b` at the boundary that array `y` has come to from `x`: what is left of the 128 since the bank's last
stream cycle (R300). -/
def Array_.stall (x y : Array_) (b : Nat) : Nat := if x.inState .accumulating = none then 0 else 128 - (y.bank b).since

/-- The bank a pass takes: the held one for a chained pass, otherwise the other than the last pass's, or than a held one. -/
def Array_.bankFor (x : Array_) (p : PassReq) : Option Nat :=
  match x.inState .chainHeld with
  | some b => some (if p.chained then b else 1 - b)
  | none => if p.chained then none else some (1 - x.last)

/-- ARRAY_PASS_START of core `c`: the pass in progress has ended, and the next queued pass starts where its bank is free and the
duty is full. -/
def arrayPassStart (c : Nat) (find : Find) (s : State) : State :=
  let x := (s.core c).array
  let a := arrPage c
  match x.queue with
  | [] => s
  | p :: rest =>
    if s.rd ARR_STATUS.duty a < 128 then s
    else
      let y := x.boundary s.now
      match y.bankFor p with
      | none => (s.setArray c y).passStop c p .tag
      | some b =>
        let v := y.bank b
        if p.chained && v.tag / 1024 != p.tag / 1024 then (s.setArray c y).passStop c p .tag
        else if !p.chained && decide (v.state ≠ .free) then
          let wait := x.stall y b
          (s.setArray c y).iff (wait != 0) fun s => (s.inc ARR_STALL.drain_stall_cycles a wait).count a 0x82
        else match s.landing? p.key p.die with
          | none => s.setArray c { y with queue := rest }
          | some l =>
            -- a chained pass goes under the tag that its bank keeps (R301)
            let p := if p.chained then { p with tag := v.tag } else p
            let old := if p.chained then v.values else []
            let units := p.stageResult l.window
            match s.passCheck c find units (p.cellResult l.window old) with
            | some h => ((s.setArray c y).spendArm c h.2).passStop c p h.1
            | none =>
              let cells := p.run l.window old
              let slot := p.tag / 1024
              let other := decide (y.lastSlot ≠ none) && decide (y.lastSlot ≠ some slot)
              let z := { y.setBank b ⟨.accumulating, p.tag, some p, cells, v.since⟩ with
                queue := rest, last := if p.chained then y.last else b, gapAt := none, lastSlot := some slot }
              let s := ((s.setArray c z).count a 0x80).count a 0x81 0 p.cycles
              (s.iff other fun s => s.count a 0x83).passCorrected c p find

/-! ### Drains (R299, R301) -/

/-- One output element as a drain writes it, with its destination bytes before: the code and whether an INT32 sum wrapped. -/
def PassReq.drained (p : PassReq) (v old draw : Nat) : Nat × Bool :=
  if p.drain = 1 then
    if p.int then
      let z := sgn 32 old + sgn 32 v
      (unsgn 32 z, decide (z < -(2 ^ 31 : Int)) || decide ((2 ^ 31 : Int) ≤ z))
    else (fp32Add old v, false)
  else if p.drain = 2 then
    ((roundVal p.outFmt p.rounding p.overflow draw 1 (if p.int then intVal (sgn 32 v) else floatVal 1 v)).code, false)
  else (v, false)

/-- The draw of output element (i, j) of a CONVERT drain: site 3 (R301), with an index and a hall field that depend on the element and on
the plan hall alone. -/
def PassReq.draw (p : PassReq) (s : State) (i j : Nat) : Nat :=
  srDraw p.key.group p.key.step p.key.chunk (Config.drainIndex i j).toNat 3 (Config.drainHall s.planHall).toNat

/-- A row of the output tile as bytes, from the row's bytes before, with the INT32 sums that wrapped, or the elements of MX blocks that
count as ROUND_OVERFLOW (R227). -/
def PassReq.rowOut (p : PassReq) (s : State) (cells : Sparse Nat) (i : Nat) (old : List Byte) : List Byte × Nat :=
  let vs := (List.range p.n).map fun j => p.output cells i j
  let draw := p.draw s i
  if p.drain = 2 ∧ p.outMx = true then
    let vals := vs.map fun v => if p.int then intVal (sgn 32 v) else floatVal 1 v
    let bs := (groups32 vals).zipIdx.map fun e => mxWrite p.outFmt p.rounding (fun j => draw (32 * e.2 + j)) 1 e.1
    (bs.flatMap fun b => b.bytes p.outFmt, bs.foldl (fun a b => a + b.overflows) 0)
  else
    let w := if p.drain = 2 then fmtBits p.outFmt else 32
    let out := vs.zipIdx.map fun e => p.drained e.1 (leAt old (4 * e.2) 4) (draw e.2)
    (packCodes w (out.map fun e => e.1), (out.filter fun e => e.2).length)

/-- The output tile written to a destination of window `win`: the window after, and what its rows count. -/
def PassReq.writeTile (p : PassReq) (s : State) (cells : Sparse Nat) (d : Nat) (win : List Host.Cell) : List Host.Cell × Nat :=
  (List.range p.m).foldl (fun a i =>
    let o := tileOff d + i * tileStride d
    let r := p.rowOut s cells i (Memory.readN a.1 o (4 * p.n))
    (Memory.writeN a.1 o r.1, a.2 + r.2)) (win, 0)

/-- The first result of each unit that a drain uses: fold combiner, drain adder, converter. -/
def PassReq.drainResults (p : PassReq) (s : State) (cells : Sparse Nat) (win : List Host.Cell) : List (Nat × Nat) :=
  let v := p.output cells 0 0
  let r := (p.drained v (leNat (Memory.readN win (tileOff (p.dests.headD 0)) 4)) (p.draw s 0 0)).1
  let w := bits (leNat ((p.rowOut s cells 0 []).1.drop (b2n p.outMx))) 0 (fmtBits p.outFmt)
  (if fold p.m p.n = 1 then [] else [(3, p.foldAdd (p.part cells 0 0 0) (p.part cells 0 0 1))]) ++
    (if p.drain = 1 then [(4, r)] else []) ++ if p.drain = 2 then [(6, if p.outMx then w else r)] else []

/-- What the drain of a pass counts: INT_WRAP of ADD, or, once for the tile, ROUND_OVERFLOW of MX blocks. -/
def State.drainCounts (s : State) (c : Nat) (p : PassReq) (n : Nat) : State :=
  if n = 0 then s
  else if p.drain = 2 then (s.count (xsePage c) 0x86 0 (n / p.dests.length)).irq (xsePage c) 7
  else (s.count (arrPage c) 0x8A 0 n).irq (arrPage c) 7

/-- The bank whose drain is next: drains complete in pass order. -/
def Array_.drainBank (x : Array_) : Option Nat :=
  if x.bank0.state = .draining ∧ x.bank1.state = .draining then some (1 - x.last) else x.inState .draining

/-- ARRAY_DRAIN of core `c`: the oldest bank that drains, or that of the pass in progress, whose last stream cycle has come, writes
its tile and is free. -/
def arrayDrain (c : Nat) (find : Find) (s : State) : State :=
  let x := (s.core c).array
  let a := arrPage c
  let y := if x.drainBank.isSome then x else x.boundary s.now
  match y.drainBank with
  | none => s.setArray c y
  | some b =>
    let v := y.bank b
    match v.pass with
    | none => s.setArray c (y.setBank b { v with state := .free })
    | some p => match s.landing? p.key p.die with
      | none => s.setArray c (y.setBank b ⟨.free, v.tag, none, [], v.since⟩)
      | some l =>
        match s.passCheck c find (p.drainResults s v.values l.window) (fun _ _ _ => none) with
        | some h => ((s.setArray c y).spendArm c h.2).passStop c p h.1
        | none =>
          let r := p.dests.foldl (fun q d => let w := p.writeTile s v.values d q.1; (w.1, q.2 + w.2)) (l.window, 0)
          let s := (s.setArray c (y.setBank b ⟨.free, v.tag, none, [], v.since⟩)).setLanding p.key { l with window := r.1 }
          ((s.inc ARR_PASS_COUNT.completed a).drainCounts c p r.2).passCorrected c p find

/-! ### Filler and ramp (R308, R309) -/

/-- The array of core `c` is in a gap. -/
def State.inGap (s : State) (c : Nat) : Bool :=
  let x := (s.core c).array
  x.queue.isEmpty && x.gapAt.isSome && decide (x.inState .accumulating = none)

/-- A filler pass is streaming: the array is in a gap and its duty is not 0 (R308, R309). -/
def State.fillerActive (s : State) (c : Nat) : Bool := s.inGap c && s.rd ARR_STATUS.duty (arrPage c) != 0

/-- FILLER_PASS of core `c`: a filler pass ends, the CRC-32C of its tile right (`ok`) or wrong, with what `find` says of its residues; it reads
no landing SRAM. An armed injection of a cell shows as a residue mismatch, whose result is free: the spec does not give the operand
generator's seeding. Without filler_enable nothing is checked. -/
def fillerPass (c : Nat) (ok : Bool) (find : Find) (s : State) : State :=
  let a := arrPage c
  if s.fillerActive c = false ∨ s.flag ARR_CFG.filler_enable a = false then s
  else match s.passCheck c find [] (fun _ _ _ => some (s.free % 2 ^ 32)) with
    | some (.residue u row col x o ops, arm) => (s.spendArm c arm).arrMismatch c none u row col x o ops
    | _ =>
      let s := (s.inc ARR_FILLER.filler_passes a).count a 0x84
      if ok then s
      else
        let s := (s.inc ARR_FILLER.kat_fail a).arrFault c 4 0 0 0 0 0 0
        s.tickFree.hwError { s.arrRec c none 0x010A with signature := s.free } a 5 0 0 0 0x85 0

/-- DUTY_RAMP of core `c`, every 62.5 ns: the duty falls by 2 from 2 us of a gap on, and rises by 8 while a pass waits. -/
def dutyRamp (c : Nat) (s : State) : State :=
  let a := arrPage c
  let d := s.rd ARR_STATUS.duty a
  let x := (s.core c).array
  if x.queue.isEmpty = false then s.wr ARR_STATUS.duty a (min 128 (d + 8))
  else match x.gapAt with
    | some t => if x.inState .accumulating = none ∧ t + 2000 ≤ s.now then s.wr ARR_STATUS.duty a (d - 2) else s
    | none => s

/-! ### Injections (R262) -/

/-- One more injection is armed; one that is armed already stays. -/
def arm {α : Type} [BEq α] (l : List α) (a : α) : List α := if l.contains a then l else l ++ [a]

/-- XSE_INJECT written with `v` on core `c`. -/
def xseInject (c v : Nat) (s : State) : State :=
  if bit v 0 then s.setCore c { s.core c with xseArm := arm (s.core c).xseArm (bits v 4 1, bits v 1 3) } else s

/-- ARR_INJECT written with `v` on core `c`. -/
def arrInject (c v : Nat) (s : State) : State :=
  if bit v 0 then s.setCore c { s.core c with arrArm := arm (s.core c).arrArm (bits v 4 7, bits v 11 7, bits v 1 3) } else s

/-- VEC_INJECT written with `v` on core `c`. -/
def vecInject (c v : Nat) (s : State) : State :=
  if bit v 0 then s.setCore c { s.core c with vecArm := arm (s.core c).vecArm (bits v 4 4, bits v 8 6, bits v 1 3) } else s

end Sys2Proof.Machine
end

