-- ==== Sys2Proof/WellFormed.lean ====
section
/-! DEFINITION. Which commands are well formed: the checks on operands that their types do not make. -/

namespace Sys2Proof

/-- The operands are within the ranges the spec gives them. -/
def Instr.wellFormed : Instr → Bool
  | .powerOn _ => true
  | .railBoundMissed => true
  | .railRetry => true
  | .vin48Trip _ => true
  | .isolationLinkSilent _ => true
  | .coldBoot _ trained => trained.length == 24
  | .warmRstPin => true
  | .warmResetRegister _ => true
  | .warmResetRelease trained _ => trained.length == 24
  | .dieReset _ _ => true
  | .dieResetRelease _ trained => trained.length == 6
  | .pageSoftReset _ page => Machine.isPage page
  | .pageConfigRestore page => Machine.isPage page
  | .portReset _ _ => true
  | .sysclkLoss => true
  | .serdesRefLoss _ => true
  | .serdesRefReturn _ => true
  | .timeRefLoss _ => true
  | .timeRefReturn => true
  | .ppsInEdge => true
  | .ppsMiss => true
  | .meshLaneGroupFail _ _ _ flits => flits.length == 4
  | .meshCrossing src dst _ => src != dst
  | .rdmaWrite _ _ _ _ _ _ => true
  | .rdmaRead _ _ _ _ _ _ _ => true
  | .registerWrite _ addr _ => addr % 8 == 0 && decide (addr < 0x10000000)
  | .hostSend _ _ _ => true
  | .localAckTimeout _ _ => true
  | .rnrRetryTimer _ _ => true
  | .cmReq _ hostQpn _ _ => decide (hostQpn < 2 ^ 24)
  | .cmRtu _ _ _ _ => true
  | .sessionIdleTimeout _ => true
  | .ringOwnerRelease _ => true
  | .mkaKeyInstall _ _ => true
  | .mkaTimeout _ => true
  | .mgtLinkChange _ _ => true
  | .pgCommitWrite _ page _ => Machine.isPage page
  | .pgCommitAbort _ page => Machine.isPage page
  | .bankSwap page => Machine.isPage page
  | .dualTimeout _ => true
  | .pgGuardWrite _ page _ => Machine.isPage page
  | .ringDoorbell _ _ _ => true
  | .descriptorFetch _ _ => true
  | .ringEnable _ _ => true
  | .ringDisable _ _ => true
  | .cqHeadWrite _ _ _ => true
  | .evrEnable _ _ => true
  | .evrDisable _ _ => true
  | .evrHeadWrite _ _ _ => true
  | .coreWatchdogExpiry _ _ => true
  | .coreRestart _ => true
  | .nop _ => true
  | .bankCommit _ => true
  | .tableSearch _ => true
  | .tableNext _ => true
  | .tableInsert _ _ => true
  | .tableDelete _ => true
  | .flushByPort _ => true
  | .routeDrain _ => true
  | .routeDrainQueuesEmpty table => table == 2 || table == 3
  | .routeDrainExpiry table => table == 2 || table == 3
  | .portAccept _ => true
  | .bypassEnable _ => true
  | .bypassReset _ => true
  | .bypassRead _ => true
  | .groupWrite _ _ => true
  | .groupDisable _ => true
  | .flightLoad _ _ => true
  | .triggerArm _ => true
  | .quotaSet _ => true
  | .planLoad _ _ => true
  | .configSave _ _ => true
  | .configSaveAuto _ => true
  | .powerCapSet _ => true
  | .powerCapAboveDefault _ => true
  | .keyEnrol _ _ => true
  | .protectTableCommit _ => true
  | .counterSnapshot _ _ => true
  | .moduleAssociate _ _ => true
  | .i3cRetry _ => true
  | .moduleRediscovery _ _ => true
  | .moduleIbi _ _ => true
  | .laserInputLow _ _ _ => true
  | .laserInputRestore _ _ _ => true
  | .engineBringup _ => true
  | .laserInputsReady _ taps => taps.length == 8
  | .calibrationDone _ taps => taps.length == 8
  | .engineStepTimeout _ => true
  | .optRecal _ _ => true
  | .portTxEnable _ => true
  | .partnerLightLock _ => true
  | .alignmentLock _ => true
  | .linkHoldUpExpiry _ => true
  | .linkDownDeclare _ cause => decide (1 ≤ cause ∧ cause ≤ 6)
  | .rxFaultOrderedSet _ _ => true
  | .berWindow _ corrected errors => corrected.length == 4 && errors.length == 4
  | .portSleep _ _ => true
  | .portWake _ _ => true
  | .subPortEnableWrite _ _ _ => true
  | .shutterClose _ => true
  | .bypassDrainExpiry _ => true
  | .switchingStart _ => true
  | .switchingDone _ _ => true
  | .periodicReadback _ => true
  | .bypReadbackWrite _ _ => true
  | .frameReceive _ _ _ => true
  | .pfcXoffRefresh _ _ => true
  | .pfcPauseExpiry _ _ => true
  | .heldFrameAdmit _ _ => true
  | .frameTransmit _ _ => true
  | .mcResidencyExpiry _ _ => true
  | .helloSend _ => true
  | .neighbourLivenessTimeout _ _ => true
  | .lldpSend _ => true
  | .discoveryCompare _ => true
  | .learnApply _ _ => true
  | .agingSweep => true
  | .lpmScrub _ _ => true
  | .escapeReevaluate _ => true
  | .escapeTimer _ _ => true
  | .banisterContinue _ _ => true
  | .ringWaitAlarm _ => true
  | .sprayDecay _ => true
  | .tokenBucketUpdate => true
  | .gateEntryChange _ => true
  | .gateChangeRequest _ _ => true
  | .gateChangeCancel _ _ => true
  | .gateChangeTime _ => true
  | .queueSample _ _ => true
  | .activationStart _ => true
  | .flightNop _ _ => true
  | .flightEnd _ _ => true
  | .sync _ _ => true
  | .li _ _ => true
  | .lsi _ _ => true
  | .addi _ _ => true
  | .shli _ _ => true
  | .shri _ _ => true
  | .alu _ _ => true
  | .fld _ _ => true
  | .fins _ _ => true
  | .ldw _ _ _ => true
  | .stw _ _ => true
  | .beq _ _ => true
  | .bne _ _ => true
  | .bltu _ _ => true
  | .bgeu _ _ => true
  | .beqi _ _ => true
  | .bnei _ _ => true
  | .jmp _ _ => true
  | .spcfg _ _ => true
  | .tdef _ _ => true
  | .vld _ _ _ => true
  | .vst _ _ => true
  | .vbin _ _ _ => true
  | .vcvt _ _ _ => true
  | .vquant _ _ _ => true
  | .xadd _ _ _ _ => true
  | .xround _ _ _ _ => true
  | .pass _ _ => true
  | .fsend _ _ => true
  | .arrayPassStart _ _ => true
  | .arrayDrain _ _ => true
  | .fillerPass _ _ => true
  | .dutyRamp _ => true
  | .xseInject _ _ _ => true
  | .arrInject _ _ _ => true
  | .vecInject _ _ _ => true
  | .hallStageComplete _ => true
  | .dieLandingMerge _ _ => true
  | .landingEmit _ => true
  | .landingTimerCheck _ => true
  | .tombstoneExpiry _ => true
  | .residualAreaHold _ => true
  | .residualCopyDone _ _ => true
  | .residualWriteBack _ => true
  | .dramRefresh _ _ => true
  | .dramScrub _ _ => true
  | .lpddr6Refresh _ => true
  | .lpddr6TempRead _ _ _ _ _ => true
  | .lpddr6Retrain _ _ _ => true
  | .lpddr6Scrub _ _ => true
  | .sramScrub _ _ => true
  | .timSet _ _ => true
  | .timAdd _ _ => true
  | .timOffsetWrite _ _ _ => true
  | .domainModeWrite _ _ _ => true
  | .livenessCheck => true
  | .t1FollowFeed => true
  | .gptpSyncSend _ _ => true
  | .txqPop _ _ => true
  | .ppsOutRise => true
  | .ppsOutFall => true
  | .throttlePeriod _ _ _ => true
  | .throttleRelease _ => true
  | .capExceeded _ => true
  | .thermalSensorRead _ _ engines _ _ => engines.length == 4
  | .thermalNotch _ => true
  | .thermNRelease => true
  | .clusterGate _ _ _ => true
  | .clusterGateComplete _ _ => true
  | .clusterUngate _ _ _ => true
  | .dieStandbyEnter _ _ => true
  | .dieStandbyExit _ _ trained => trained.length == 6
  | .packageStandbyEnter _ => true
  | .packageStandbyExit _ trained => trained.length == 24
  | .grpReplLoad _ _ _ => true
  | .grpReplStore _ _ _ => true
  | .quoteRequest _ _ => true
  | .errorCorrelation => true
  | .retireWrite _ _ => true
  | .healthEvaluation => true
  | .counterSweep => true
  | .sweepOnce _ => true
  | .sysclkReturn => true
  | .rocev2AckReceive _ _ _ _ => true
  | .neighborDiscovery _ target _ => decide (target < 2 ^ 128)
  | .bypassTemperatureWaitExpiry _ => true

end Sys2Proof
end

