-- ==== Sys2Proof/Machine/Command.lean ====
section
/-! DEFINITION. What every command does around its effect: the outputs of the one before are taken away, the queue and the clock stay
as they are (time passes only while no command waits), and the FAULT_N pin follows PWR_FAULT (R393). -/

namespace Sys2Proof.Machine

/-- The fields of PWR_FAULT (R393, R396). -/
def faultFields : List Fld :=
  [PWR_FAULT.therm_crit, PWR_FAULT.cap_exceeded, PWR_FAULT.overcurrent, PWR_FAULT.overvoltage, PWR_FAULT.undervoltage,
   PWR_FAULT.rail_fault, PWR_FAULT.isolation_link, PWR_FAULT.sysclk_loss, PWR_FAULT.boot_mem]

/-- Some bit of PWR_FAULT is 1. -/
def State.faulted (s : State) : Bool := faultFields.any fun f => s.flag f pwrPkgPage

/-- The FAULT_N pin is low while any bit of PWR_FAULT is 1, and high else (R393). -/
def State.drivePins (s : State) : State := { s with power := { s.power with faultN := !s.faulted } }

/-- The outputs of the command before are taken away. -/
def State.cleared (s : State) : State := { s with out := [] }

/-- The state that effect `f` of one command leaves. -/
def State.run (s : State) (f : State → State) : State :=
  let t := f s.cleared
  { t with pending := s.pending, now := s.now }.drivePins

/-- A command with effect `f` is performed. -/
def State.command (s : State) (f : State → State) : Host.Outcome State Fault Refusal := .next (s.run f)

/-- A command whose operands must satisfy `ok`. -/
def State.commandIf (s : State) (ok : Bool) (f : State → State) : Host.Outcome State Fault Refusal :=
  if ok then s.command f else .fault .illFormed

end Sys2Proof.Machine
end

