-- ==== Sys2Proof/Machine/Discovery.lean ====
section
/-! DEFINITION. The stair hello, LLDP and discovery: R133 to R138, R410 to R413, with the penalties of R446 that follow from them. -/

namespace Sys2Proof.Machine

/-! ### Health penalties (R446) -/

/-- A penalty of physical port `p`, kept for the 60 s in which it counts. -/
def State.penalty (s : State) (p n : Nat) : State :=
  let h := Sparse.get Health.fresh s.rel.health p
  let recent := h.penalties.filter fun x => decide (s.now < x.1 + 60000000000)
  { s with rel := { s.rel with health := Sparse.set s.rel.health p { h with penalties := (s.now, n) :: recent } } }

/-! ### HELLO (R133 to R137) -/

/-- Code of a discovery state in HELLO byte 11. -/
def Disc.hello : Disc → Nat
  | .accepted => 1
  | .held => 2
  | _ => 0

/-- The 48-byte payload of a HELLO on logical port `l` (R134). -/
def State.helloPayload (s : State) (pl : Plan) (l : Nat) : List Byte :=
  let r := s.portRec (l / 4)
  let x := s.sub l
  let g := if r.role = roleGallery then r.group else r.uplink
  [1, 2, byte pl.hall, byte pl.rail, byte pl.plane, byte pl.spine, 0x03, 0xFF] ++ natBe 2 (l / 4) ++ [byte g, byte x.disc.hello]
    ++ natBe 4 pl.seq ++ natBe 8 Config.packageSerial.toNat ++ natBe 8 (if x.heard then x.nbr.serial else 0)
    ++ natBe 2 (if x.heard then x.nbr.port else 0) ++ natBe 2 1000 ++ zeros 12

/-- HELLO_SEND on logical port `l`: UP, of role DOWN or GALLERY, with a plan active (R133, R135). -/
def helloSend (l : Nat) (s : State) : State :=
  match s.boot.plan with
  | none => s
  | some pl =>
    let role := s.role (l / 4)
    if s.isUp l = false ∨ (role ≠ roleDown ∧ role ≠ roleGallery) ∨ s.power.stopped then s
    else
      let x := s.sub l
      let port := s.rd SWP_PARSE_CFG.hjt_port (swpPage (pipeOfPort (l / 4)))
      let u := hjtFrame allNodes (s.fabricAddr (s.ownFea 0)) 6 255 port { Hjt.zero tHello with seq := x.helloSeq }
        (s.helloPayload pl l)
      (s.setSub l { x with helloSeq := (x.helloSeq + 1) % 2 ^ 32 }).sendOn l 6 (patch u 0 (natBe 6 macHello)) true

/-- A HELLO payload carries role 1 or 2 and no reserved value (R134, R135). Which values beside the reserved bytes are reserved the spec does
not list: a version, a leaf, a port, a state and an interval outside what R134 gives them are taken so; the other fields stand as they come
(DESIGN CHOICE, notes/assumptions/76.md). -/
def helloOk (p : List Byte) : Bool :=
  beAt p 0 1 == 1 && (beAt p 1 1 == 1 || beAt p 1 1 == 2) && decide (beAt p 6 2 ≤ 0x3FF) && decide (beAt p 8 2 ≤ 511)
    && decide (beAt p 11 1 ≤ 2) && decide (100 ≤ beAt p 34 2) && decide (beAt p 34 2 ≤ 1000) && beAt p 36 12 == 0

/-- The neighbour a payload shows. -/
def helloNeighbour (p : List Byte) : Neighbour :=
  ⟨beAt p 1 1, beAt p 2 1, beAt p 3 1, beAt p 4 1, beAt p 5 1, beAt p 6 2, beAt p 8 2, beAt p 10 1, beAt p 16 8⟩

/-- HELLO_RECEIVE: a valid HELLO on logical port `l` (R135 to R137). A changed serial returns the sub-port to UNACCEPTED, to be
compared again, and ends an acceptance by command (R412), be it after a silence; its frames stay queued. -/
def State.helloReceive (s : State) (l : Nat) (u : List Byte) : State :=
  let p := hjtPayload u
  let x := s.sub l
  let n := helloNeighbour p
  let names := beAt p 24 8 == Config.packageSerial.toNat && beAt p 32 2 == l / 4
  let changed := x.nbr.serial != n.serial
  let y := { x with nbrMac := ethSrc u, nbr := n, heard := true, nbrSeq := (Hjt.decode u).seq, twoWay := x.twoWay || names,
                    disc := if changed && decide (x.disc ≠ .notUp) then .unaccepted else x.disc,
                    holdReason := if changed then 0 else x.holdReason, byCommand := x.byCommand && !changed }
  s.setSub l y

/-- CTL die events, in the order of R417 (R455). -/
def evHeld : Nat := 0x80
def evAccepted : Nat := 0x81
def evNeighbourLost : Nat := 0x82
def evCablingSwap : Nat := 0x83

/-- NEIGHBOUR_LIVENESS_TIMEOUT: 5 ms without a HELLO that keeps the two-way neighbour, or with `silent` without any valid HELLO
(R135, R413). After that silence HELLOs say again that none was heard (DESIGN CHOICE, notes/assumptions/76.md). -/
def neighbourLivenessTimeout (l : Nat) (silent : Bool) (s : State) : State :=
  let x := s.sub l
  let y := if silent then { x with heard := false } else x
  if x.twoWay = false then s.setSub l y
  else
    let z := { y with twoWay := false, disc := if x.disc = .notUp then .notUp else .unaccepted, holdReason := 0 }
    let s := ((s.setSub l z).count (ctlDiePage (l / 512)) evNeighbourLost).penalty (l / 4) 100
    s.flushPort l 0x1B

/-! ### Comparison (R410) -/

/-- A neighbour identity as CTL_DISC_NEIGHBOUR packs it. -/
def Neighbour.word (n : Neighbour) : Nat :=
  n.role % 256 * 2 ^ 56 + n.hall % 256 * 2 ^ 48 + n.rail % 256 * 2 ^ 40 + n.plane % 256 * 2 ^ 32 + n.spine % 256 * 2 ^ 24
    + n.leaf % 1024 * 2 ^ 14 + n.port % 512 * 2 ^ 5 + n.gou % 8 * 2 ^ 2

/-- ACCEPTED sub-ports other than `l` that satisfy `f`. -/
def State.acceptedCount (s : State) (l : Nat) (f : Nat → SubPort → Bool) : Nat :=
  (s.subs.filter fun e => e.1 != l && decide (e.2.disc = .accepted) && f e.1 e.2).length

/-- Reason code of the first failing check, 0 for none (R410). -/
def State.discoveryReason (s : State) (pl : Plan) (l : Nat) : Nat :=
  let r := s.portRec (l / 4)
  let n := (s.sub l).nbr
  if r.role = roleDown then
    if n.role ≠ 1 then 1
    else if n.hall ≠ pl.hall ∨ n.rail ≠ pl.rail then 2
    else if n.leaf ≠ r.leaf then 3
    else if r.serial ≠ 0 ∧ n.serial ≠ r.serial then 4
    else if (s.leafPorts r.leaf).length ≤ s.acceptedCount l fun k x => s.role (k / 4) == roleDown && x.nbr.leaf == r.leaf then 5
    else 0
  else
    if n.role ≠ 2 then 1
    else if n.rail ≠ pl.rail ∨ groupHall pl.n pl.hall r.group ≠ some n.hall then 2
    else if n.plane ≠ pl.plane ∨ n.spine ≠ pl.spine ∨ n.gou ≠ r.group then 3
    else if r.serial ≠ 0 ∧ n.serial ≠ r.serial then 4
    else if (groupPorts pl r.group).length ≤ s.acceptedCount l fun k x =>
      s.role (k / 4) == roleGallery && x.nbr.gou == r.group then 5
    else 0

/-- The sub-port becomes ACCEPTED, with its cabling swap noted. -/
def State.accept (s : State) (l : Nat) : State :=
  let r := s.portRec (l / 4)
  let x := s.sub l
  let swap := if r.role = roleDown then x.nbr.gou != r.uplink else x.nbr.port != r.peer
  let a := ctlDiePage (l / 512)
  let s := (s.setSub l { x with disc := .accepted, holdReason := 0, cablingSwap := swap }).count a evAccepted
  s.iff swap fun s => (s.count a evCablingSwap).irq a 5

/-- DISCOVERY_COMPARE: firmware compares the two-way neighbour of logical port `l` with the plan (R410). An acceptance by command
that still stands keeps the sub-port ACCEPTED (R412). -/
def discoveryCompare (l : Nat) (s : State) : State :=
  match s.boot.plan with
  | none => s
  | some pl =>
    let x := s.sub l
    let role := s.role (l / 4)
    if s.isUp l = false ∨ x.twoWay = false ∨ x.disc ≠ .unaccepted ∨ s.boot.cores = 0 ∨ (role ≠ roleDown ∧ role ≠ roleGallery)
    then s
    else
      let why := if x.byCommand then 0 else s.discoveryReason pl l
      if why = 0 then s.accept l
      else
        let a := ctlDiePage (l / 512)
        let s := ((s.setSub l { x with disc := .held, holdReason := why }).count a evHeld).irq a 4
        s.alarm 0x0012 2 a (l / 4) x.nbr.word

/-- PORT_ACCEPT of physical port `p`: every HELD sub-port becomes ACCEPTED by command (R412); none HELD is NOT_FOUND (R415). -/
def State.portAccept (s : State) (p : Nat) : Nat × State :=
  let ls := [4 * p, 4 * p + 1, 4 * p + 2, 4 * p + 3].filter fun l => decide ((s.sub l).disc = .held)
  if ls = [] then (stNotFound, s)
  else (stOk, s.each ls fun l s =>
    (s.setSub l { s.sub l with disc := .accepted, holdReason := 0, byCommand := true }).count (ctlDiePage (l / 512)) evAccepted)

/-! ### LLDP (R138) -/

/-- A TLV of IEEE Std 802.1AB: 7-bit type, 9-bit length. -/
def tlv (t : Nat) (v : List Byte) : List Byte := natBe 2 (t * 512 + v.length % 512) ++ v

/-- Text as bytes. -/
def textBytes (t : String) : List Byte := t.toList.map fun c => byte c.toNat

/-- The LLDPDU of logical port `l` with a time to live (R138). The interface number, which the spec does not give, is 0 (DESIGN CHOICE,
notes/assumptions/76.md). -/
def State.lldpdu (s : State) (l ttl : Nat) : List Byte :=
  let id := s.boot.copy.identity
  let (h, r, k) := match s.boot.plan with
    | none => (0, 0, 0)
    | some pl => (pl.hall, pl.rail, pl.spine)
  let desc := "Hall " ++ toString h ++ " rail " ++ toString r ++ " spine " ++ toString k ++ " port " ++ toString (l / 4)
  tlv 1 (4 :: natBe 6 id.macBase) ++ tlv 2 (3 :: natBe 6 (s.portMac l)) ++ tlv 3 (natBe 2 ttl) ++ tlv 4 (textBytes desc)
    ++ tlv 5 id.sysName ++ tlv 8 ([17, 2] ++ natBe 16 (id.mgtAddrs.getD 0 0) ++ [2] ++ zeros 4 ++ [0]) ++ tlv 0 []

/-- An LLDP frame is queued on logical port `l`, in TC6 as HELLO is, for which the spec names no class (DESIGN CHOICE,
notes/assumptions/76.md). -/
def State.lldpOut (s : State) (l ttl : Nat) : State := s.sendOn l 6 (ethHdr macLldp 0 0x88CC ++ s.lldpdu l ttl) false

/-- LLDP_SEND on logical port `l`: by firmware, on an UP sub-port of role DOWN or GALLERY. -/
def lldpSend (l : Nat) (s : State) : State :=
  let role := s.role (l / 4)
  if s.isUp l = false ∨ (role ≠ roleDown ∧ role ≠ roleGallery) ∨ s.boot.cores = 0 ∨ s.power.stopped then s else s.lldpOut l 120

/-- LLDP_RECEIVE: the LLDPDU is kept, cut at 1,500 bytes, Ethernet padding with it (DESIGN CHOICE, notes/assumptions/76.md). -/
def State.lldpReceive (s : State) (l : Nat) (u : List Byte) : State :=
  let b := u.drop 14
  if s.boot.cores = 0 then s
  else s.setSub l { s.sub l with lldp := b.take 1500, lldpTruncated := decide (1500 < b.length) }

end Sys2Proof.Machine
end

