-- ==== Sys2Proof/Machine/Optics.lean ====
section
/-! DEFINITION. Optical engines and ports: laser modules (R81 to R84), bring-up (R85, R86), link monitoring (R87 to R89), transmit
states (R91, R92), and what OPT_PORT_CFG, OPT_PRBS and OPT_ENG_CTRL command (R93 to R95). -/

namespace Sys2Proof.Machine

/-! ### States and causes -/

/-- Codes of OPT_PORT_STATE.state (R94). -/
def psDisabled : Nat := 0
def psWaitEngine : Nat := 1
def psTxOn : Nat := 2
def psRxLock : Nat := 3
def psPcsLock : Nat := 4
def psUpHold : Nat := 5
def psUp : Nat := 6
def psSleep : Nat := 7
def psFaultTx : Nat := 8
def psDark : Nat := 9

/-- Causes of LINK_DOWN that commands and resets give (R88). -/
def cSerFault : Nat := 0x04
def cLaserLow : Nat := 0x07
def cRefLoss : Nat := 0x08
def cAdmin : Nat := 0x09
def cEngine : Nat := 0x0A
def cBreakout : Nat := 0x0B
def cReset : Nat := 0x0C

/-- Codes of OPT_ENG_STATUS.cal_state (R93). -/
def calIdle : Nat := 0
def calLaserWait : Nat := 1
def calCalibrating : Nat := 2
def calReady : Nat := 3
def calFault : Nat := 4

def State.setLink (s : State) (l v : Nat) : State := s.wr OPT_PORT_STATE.state (portPage (l / 4)) v (l % 4)

def State.calState (s : State) (e : Nat) : Nat := s.rd OPT_ENG_STATUS.cal_state (engPage e)

def State.setCal (s : State) (e v : Nat) : State := s.wr OPT_ENG_STATUS.cal_state (engPage e) v

def State.module (s : State) (e : Nat) : Module := Sparse.get Module.absent s.modules e

def State.setModule (s : State) (e : Nat) (x : Module) : State := { s with modules := Sparse.set s.modules e x }

/-- Physical ports of engine `e`. -/
def engPorts (e : Nat) : List Nat := (List.range 32).map fun j => 32 * e + j

/-- Logical ports of a list of physical ports. -/
def lportsOf (ps : List Nat) : List Nat := ps.flatMap fun p => [4 * p, 4 * p + 1, 4 * p + 2, 4 * p + 3]

/-! ### Which sub-ports may run -/

/-- The laser input of physical port `p` is not low (R76, R83). -/
def State.inputOk (s : State) (p : Nat) : Bool :=
  let a := engPage (engOfPort p)
  bit (s.rd OPT_ENG_STATUS.laser_ok a) (p % 32 / 4) && !bit (s.rd OPT_ENG_STATUS.lsm_fault a) (p % 32 / 4)

/-- Die `d` is in reset, so its ports wait for the release (R92). -/
def State.dieHeld (s : State) (d : Nat) : Bool := s.rd CTL_DIE_STATE.state (ctlDiePage d) == 2

/-- Standby of die `d`, or of the package, keeps its ports dark (R389, R390). -/
def State.standbyHolds (s : State) (d : Nat) : Bool :=
  s.rd PWR_DIE_STATUS.state (pwrDiePage d) == 1 || s.rd PWR_DIE_STATUS.state (pwrDiePage d) == 2
    || (d == 0 && s.flag PWR_PKG_CTRL.standby_req pwrPkgPage)

/-- Steps 1 to 4 hold for physical port `p`: SERDES reference present, engine READY, laser input not low; and no standby holds it. -/
def State.engineServes (s : State) (p : Nat) : Bool :=
  s.flag CLK_REF_STATUS.serdes_ref_present (clkPage (dieOfPort p)) && s.calState (engOfPort p) == calReady && s.inputOk p
    && !s.standbyHolds (dieOfPort p)

/-- Port `p` is draining and no longer waits for its queues. -/
def State.closing (s : State) (p : Nat) : Bool := s.byp.draining.any fun e => e.1 == p && e.2.closing

/-- Plan and OPT_PORT_CFG ask for sub-port `l` (R78, R86, R91, R105), and no drain of R101 is closing it. -/
def State.wanted (s : State) (l : Nat) : Bool :=
  let p := l / 4
  let a := portPage p
  (s.role p == roleDown || s.role p == roleGallery) && s.boot.plan.isSome && s.lportUsed l && s.cellsBar p
    && bit (s.rd OPT_PORT_CFG.sub_enable a) (l % 4) && !s.flag OPT_PORT_CFG.sleep a && !s.closing p

/-- The state of a dark sub-port: SLEEP, DISABLED, or DARK where it is wanted (R94, R100). -/
def State.restState (s : State) (l : Nat) : Nat :=
  if s.wanted l then psDark
  else if s.flag OPT_PORT_CFG.sleep (portPage (l / 4)) && s.lportUsed l && (s.role (l / 4) == roleDown || s.role (l / 4) == roleGallery) then psSleep
  else psDisabled

/-- The PRBS pattern that drives the lanes of port `p`, 0 for none (R95): a port of role DOWN or GALLERY that is awake, whose engine serves it
and whose standby does not keep it dark (R31, R91). -/
def State.prbs (s : State) (p : Nat) : Nat :=
  let a := portPage p
  if s.rd OPT_PORT_CFG.sub_enable a = 0 ∧ (s.role p = roleDown ∨ s.role p = roleGallery) ∧ s.flag OPT_PORT_CFG.sleep a = false
      ∧ s.engineServes p = true then
    s.rd OPT_PRBS.gen_pattern a
  else 0

/-- What the lanes of sub-port `l` carry: a dark one carries the pattern that drives its port. Unpowered, they pass the light of a module
output that was left on (R91). -/
def State.lanesCarry (s : State) (l : Nat) : TxMode :=
  if s.power.pwrOk = false then if bit (s.module (l / 128)).outEn (l / 4 % 32 / 4) then .cw else .dark
  else if (s.sub l).tx = .dark ∧ s.prbs (l / 4) ≠ 0 then .pattern (s.prbs (l / 4)) else (s.sub l).tx

/-! ### Leaving UP (R87, R176) -/

/-- Sub-port `l` leaves UP with a cause: LINK_DOWN, its penalty, its queues discarded under `flush`, its discovery state lost. -/
def State.linkDown (s : State) (l cause flush : Nat) : State :=
  let a := portPage (l / 4)
  let x := s.sub l
  let s := s.setSub l { x with disc := .notUp, holdReason := 0, cablingSwap := false, byCommand := false, twoWay := false }
  let s := ((s.setLink l psRxLock).wr OPT_PORT_STATE.last_cause a cause).irq a 5
  let s := (s.alarm 0x0011 1 a (l / 4) cause).count a 0x86 (l % 4)
  (s.penalty (l / 4) 200).flushPort l flush

/-- The receive path of `l` is not valid and it waits in step 6 (R86, R88). -/
def State.toStep6 (s : State) (l : Nat) : State :=
  (s.setLink l psRxLock).setSub l { s.sub l with tx := .remoteFault, rxValid := false, rxFault := .none }

/-- Sub-port `l` is dark, in state `v`. -/
def State.goDark (s : State) (l v : Nat) : State :=
  (s.setLink l v).setSub l { s.sub l with tx := .dark, rxValid := false, rxFault := .none, after := .stay }

/-- Sub-port `l` starts at step 5, or waits for its engine (R86); in a die reset it waits for the release, which starts it (R92). -/
def State.startSub (s : State) (l : Nat) : State :=
  if s.dieHeld (l / 512) then s
  else if s.wanted l then s.goDark l (if s.engineServes (l / 4) then psTxOn else psWaitEngine) else s.goDark l (s.restState l)

/-- The last LLDPDU before local fault, with Time To Live 0 (R138): firmware sends it on an UP sub-port. -/
def State.lldpShutdown (s : State) (l : Nat) : State :=
  s.iff (s.isUp l && s.boot.cores != 0 && !s.power.stopped) fun s =>
    s.sendWire l (ethHdr macLldp (s.portMac l) 0x88CC ++ s.lldpdu l 0)

/-- The device stops sub-port `l` by its own action (R91, R92): LINK_DOWN where it was UP, then local fault; one that is dark
stays so. -/
def State.stopSub (s : State) (l cause flush : Nat) (after : AfterDark) : State :=
  let s := s.lldpShutdown l
  let s := s.iff (s.isUp l) fun s => s.linkDown l cause flush
  let x := s.sub l
  if x.tx = .dark then
    match after with
    | .stay => s.goDark l (s.restState l)
    | .restart => s.startSub l
    | .rejoin =>
      let s := s.goDark l (s.restState l)
      s.setSub l { s.sub l with after := .rejoin }
  else
    ((s.setLink l psFaultTx).setSub l { x with tx := .localFault, rxValid := false, rxFault := .none, after := after }).iff
      (decide (x.tx ≠ .localFault)) fun s => s.emit (.localFault l)

/-- A new transfer to engine `e`'s module writes MOD_OUT_EN with `v` (R82); no failure of it has been seen. -/
def State.outputs (s : State) (e v : Nat) : State :=
  (s.setModule e { s.module e with outEn := v, failed := 0 }).emit (.i3cWrite e 0x08 v)

/-- Under package standby the outputs of engine `e`'s module are commanded off once its ports are dark, and the engine leaves READY: it
returns from step 3 (R91, R390). -/
def State.lasersOff (s : State) (e : Nat) : State :=
  let lit := s.subs.any fun x => x.1 / 128 == e && decide (x.2.tx ≠ .dark)
  if s.flag PWR_PKG_CTRL.standby_req pwrPkgPage = false ∨ (s.module e).associated = false ∨ (s.module e).outEn = 0 ∨ lit = true then s
  else (s.outputs e 0).setCal e calIdle

/-- What waits for every sub-port of port `p` to be dark: the drain of R101 ends and the role BYPASS takes effect, and the sub-ports
that a breakout change holds start at step 5 (R80). After a drain they are DISABLED (R100). Under package standby the engine's lasers go off
once all of its ports are dark. -/
def State.portDark (s : State) (p : Nat) : State :=
  if (lportsOf [p]).any fun l => s.linkState l == psFaultTx then s
  else
    let s := s.iff (s.closing p) fun s =>
      let s := { s with byp := { s.byp with draining := Sparse.del s.byp.draining p } }
      s.each (lportsOf [p]) fun l s => s.goDark l (s.restState l)
    (s.each (lportsOf [p]) fun l s => s.iff (decide ((s.sub l).after = .rejoin)) fun s => s.startSub l).lasersOff (p / 32)

/-- Sub-port `l` goes dark without local fault (R91: reference loss and engine fault). -/
def State.cutSub (s : State) (l cause v : Nat) : State :=
  let s := s.iff (s.isUp l) fun s => s.linkDown l cause 0x1B
  let live := (s.sub l).tx != .dark || s.linkState l == psTxOn || s.linkState l == psWaitEngine || s.linkState l == psDark
  let after := (s.sub l).after
  let s := s.iff live fun s => s.goDark l (if s.wanted l then v else s.restState l)
  (s.iff (decide (after = .rejoin)) fun s => s.setSub l { s.sub l with after := after }).portDark (l / 4)

/-! ### Port bring-up and link events (R86 to R89) -/

/-- PORT_TX_ENABLE: step 5 is complete, and the sub-port sends remote fault and looks for light. -/
def portTxEnable (l : Nat) (s : State) : State :=
  if s.linkState l = psTxOn ∧ s.wanted l ∧ s.engineServes (l / 4) then s.toStep6 l else s

/-- PARTNER_LIGHT_LOCK: step 6 is complete. -/
def partnerLightLock (l : Nat) (s : State) : State := if s.linkState l = psRxLock then s.setLink l psPcsLock else s

/-- What a sub-port with a valid receive path transmits (R88). -/
def txFor (f : RxFault) : TxMode := if f = .localFault then .remoteFault else .idle

/-- ALIGNMENT_LOCK: step 7 is complete; a fault threshold of 0 never lets it be (R89). -/
def alignmentLock (l : Nat) (s : State) : State :=
  if s.linkState l = psPcsLock ∧ s.rd OPT_BER_CFG.fault (portPage (l / 4)) ≠ 0 then
    (s.setLink l psUpHold).setSub l { s.sub l with rxValid := true, rxFault := .none, tx := .idle }
  else s

/-- LINK_HOLD_UP_EXPIRY: step 8 is complete and the sub-port is UP, UNACCEPTED, with LINK_UP written. A port in loopback is never
UP (R95). -/
def linkHoldUpExpiry (l : Nat) (s : State) : State :=
  let a := portPage (l / 4)
  if s.linkState l = psUpHold ∧ (s.sub l).rxFault = .none ∧ s.rd OPT_PORT_CFG.loopback a = 0 ∧ s.wanted l then
    let s := (s.setLink l psUp).setSub l { s.sub l with
      disc := .unaccepted, twoWay := false, byCommand := false, cablingSwap := false, holdReason := 0 }
    (s.irq a 4).alarm 0x0010 0 a (l / 4) 0
  else s

/-- A condition of R87 on sub-port `l`: an UP one goes down with its cause, one in steps 7 and 8 returns to step 6 without an
event. -/
def State.lose (s : State) (l cause : Nat) : State :=
  if s.isUp l then (s.linkDown l cause 0x1B).toStep6 l
  else if s.linkState l = psPcsLock ∨ s.linkState l = psUpHold then s.toStep6 l
  else s

/-- LINK_DOWN_DECLARE: causes 1 to 6 of R88; a received fault must be the one that stands. -/
def linkDownDeclare (l cause : Nat) (s : State) : State :=
  if cause = 5 ∧ (s.sub l).rxFault ≠ .remoteFault then s
  else if cause = 6 ∧ (s.sub l).rxFault ≠ .localFault then s
  else s.lose l cause

/-- RX_FAULT_ORDERED_SET: the fault received on `l` changes (R88, R94). -/
def rxFaultOrderedSet (l : Nat) (f : RxFault) (s : State) : State :=
  let x := s.sub l
  let a := portPage (l / 4)
  if x.rxValid = false ∨ x.rxFault = f then s
  else
    let s := s.setSub l { x with rxFault := f, tx := txFor f }
    match f with
    | .none => s
    | .localFault => s.irq a 8
    | .remoteFault => s.irq a 9

/-- Sub-port of a lane (R78). -/
def laneSub (breakout lane : Nat) : Nat := if breakout = 2 then lane else if breakout = 1 then lane / 2 else 0

/-- BER_WINDOW: a 10 ms window of port `p` ends with `corrected` RS symbols per lane, `bad` uncorrectable codewords per lane and
`wrong` bit errors of the pattern checker per lane (R89, R95, R446). Every lane counts what it received in the window, whatever has become
of its sub-port since; none counts a checker error with the checker off. -/
def berWindow (p : Nat) (corrected bad wrong : List Nat) (s : State) : State :=
  let a := portPage p
  let s := s.iff (s.rd OPT_PRBS.chk_pattern a != 0) fun s => s.each [0, 1, 2, 3] fun k s => s.count a (0x80 + k) 0 (wrong.getD k 0)
  let b := (s.portRec p).breakout
  let lanes := List.range 4
  let warn := s.rd OPT_BER_CFG.warn a
  let fault := s.rd OPT_BER_CFG.fault a
  let s := s.each lanes fun k s =>
    let n := corrected.getD k 0
    let u := bad.getD k 0
    let s := ((s.incSat OPT_FEC_CORR.count a n).incSat OPT_FEC_UNCORR.count a u).count a 0x84 k n
    (s.count a 0x85 k u).iff (u != 0) fun s => s.penalty p (20 * u)
  let warned := lanes.filter fun k => decide (warn ≤ corrected.getD k 0)
  let s := s.iff (warned != []) fun s => (s.irq a 6).penalty p warned.length
  let down := (lanes.filter fun k => decide (fault ≤ corrected.getD k 0)).map (laneSub b)
  let s := s.iff (down != []) fun s => s.irq a 7
  s.each down.eraseDups fun k s => s.lose (4 * p + k) cSerFault

/-- SHUTTER_CLOSE: the local fault of sub-port `l` has been sent for its time; it goes dark and, where it is to restart, starts
at step 5 (R91). -/
def shutterClose (l : Nat) (s : State) : State :=
  let x := s.sub l
  if s.linkState l ≠ psFaultTx then s
  else
    let s := match x.after with
      | .stay => s.goDark l (s.restState l)
      | .restart => if s.flag PG_STATUS.ready (portPage (l / 4)) = false then s.goDark l psDark else s.startSub l
      | .rejoin =>
        let s := s.goDark l (s.restState l)
        s.setSub l { s.sub l with after := .rejoin }
    s.portDark (l / 4)

/-! ### Commands of OPT_PORT_CFG -/

/-- PORT_SLEEP: every sub-port of port `p` sends local fault and goes dark. -/
def State.portSleep (s : State) (p : Nat) : State := s.each (lportsOf [p]) fun l s => s.stopSub l cAdmin 0x1B .stay

/-- Sub-port `l` is asked to start at step 5: one still sending local fault starts when its shutter has closed (R92), and one that transmits
already goes on. -/
def State.askStart (s : State) (l : Nat) : State :=
  if s.linkState l = psFaultTx then s.setSub l { s.sub l with after := .restart }
  else if (s.sub l).tx = .dark then s.startSub l
  else s

/-- PORT_WAKE: port `p` starts at step 5. -/
def State.startPort (s : State) (p : Nat) : State := s.each (lportsOf [p]) fun l s => s.askStart l

/-- A write of sub_enable from `old` to `new` (R91). -/
def State.subEnable (s : State) (p old new : Nat) : State :=
  s.each [0, 1, 2, 3] fun k s =>
    let l := 4 * p + k
    if bit old k = bit new k then s
    else if bit new k then s.askStart l
    else s.stopSub l cAdmin 0x1B .stay

/-- A loopback that is switched on takes UP sub-ports down, back to step 6 (R95). The spec names no cause code for it: ADMIN, and step
6, are the model's choice (DESIGN CHOICE, notes/assumptions/55.md). -/
def State.loopbackOn (s : State) (p : Nat) : State :=
  s.each (lportsOf [p]) fun l s => s.iff (s.isUp l) fun s => (s.linkDown l cAdmin 0x1B).toStep6 l

/-! ### Laser modules (R81 to R84) -/

/-- The device raises an engine fault. -/
def State.engineFault (s : State) (e : Nat) : State := s.irq (engPage e) 7

/-- Step 3 of R85: MOD_OUT_EN is written with laser_enable. -/
def State.engineStep3 (s : State) (e : Nat) : State :=
  (s.outputs e (s.rd OPT_ENG_CTRL.laser_enable (engPage e))).setCal e calLaserWait

/-- Step 4 of R85: calibration, or verification where coefficients are kept. -/
def State.engineStep4 (s : State) (e : Nat) : State :=
  (s.setModule e { s.module e with calStart := s.now }).setCal e calCalibrating

/-- The die of engine `e` is powered and out of reset and standby. -/
def State.engineAlive (s : State) (e : Nat) : Bool :=
  s.power.pwrOk && (s.rd CTL_DIE_STATE.state (ctlDiePage (e / 4)) == 0 || s.rd CTL_DIE_STATE.state (ctlDiePage (e / 4)) == 3)
    && s.rd PWR_DIE_STATUS.state (pwrDiePage (e / 4)) == 0 && !(e / 4 == 0 && s.flag PWR_PKG_CTRL.standby_req pwrPkgPage)

/-- A module with its strap naming engine `e` is associated; an engine waiting at step 2 goes on to step 3, and one past it has its
outputs set again. Before step 1 nothing is written (R85). -/
def State.associate (s : State) (e : Nat) : State :=
  let a := engPage e
  let s := s.setModule e { s.module e with associated := true, failed := 0 }
  let s := (s.wr OPT_ENG_STATUS.lsm_present a 1).wr OPT_LSM_CFG.lsm_addr a (0x10 + e % 4)
  if s.flag CLK_PLL_LOCK.lane_tx_lock (clkPage (e / 4)) = false then s
  else if s.calState e = calIdle then s.engineStep3 e
  else s.outputs e (s.rd OPT_ENG_CTRL.laser_enable a)

/-- A module that answers on bus `d` with strap `k`: associated, or refused with an engine fault where the engine is claimed. A
strap that names no engine of the die names no affected engine either. -/
def State.strap (s : State) (d k : Nat) : State :=
  let e := 4 * d + k
  if 4 ≤ k then s
  else if (s.module e).associated then s.engineFault e
  else s.associate e

/-- A module of bus `d` answered with a strap that names no engine of the die: the engines left without a module are the ones it
affects (R81; DESIGN CHOICE, notes/assumptions/55.md). -/
def State.strayStrap (s : State) (d : Nat) : State :=
  s.each [4 * d, 4 * d + 1, 4 * d + 2, 4 * d + 3] fun e s => s.iff (!(s.module e).associated) fun s => s.engineFault e

/-- MODULE_ASSOCIATE: the modules on bus `d` answer ENTDAA with these straps (R81). -/
def moduleAssociate (d : Nat) (straps : List Nat) (s : State) : State :=
  if s.engineAlive (4 * d) then (s.each straps fun k s => s.strap d k).iff (straps.any fun k => decide (4 ≤ k)) fun s => s.strayStrap d
  else s

/-- I3C_RETRY: a transfer of engine `e`'s module is not acknowledged, the one that failed before where `again`: it is sent again, which
a write of MOD_OUT_EN (`write`) shows, and after the third failure the module is absent (R84). -/
def i3cRetry (e : Nat) (again write : Bool) (s : State) : State :=
  let m := s.module e
  let a := engPage e
  let n := if again then m.failed else 0
  if m.associated = false then s
  else if n < 2 then
    ((s.setModule e { m with failed := n + 1 }).iff write fun s => s.emit (.i3cWrite e 0x08 m.outEn)).count a 0x81
  else
    let s := s.setModule e { m with associated := false, failed := 0 }
    ((s.wr OPT_ENG_STATUS.lsm_present a 0).wr OPT_LSM_CFG.lsm_addr a 0).engineFault e

/-- MODULE_REDISCOVERY: the 1 s retry of engine `e`'s absent module, which answers with a strap, or not (R84). -/
def moduleRediscovery (e : Nat) (answer : Option Nat) (s : State) : State :=
  match answer with
  | none => s
  | some k =>
    if (s.module e).associated || !s.engineAlive e then s
    else (s.strap (e / 4) k).iff (decide (4 ≤ k)) fun s => s.engineFault e

/-- The ports of laser input `k` of engine `e` go down, local fault first (R83, R91). -/
def State.inputLow (s : State) (e k : Nat) : State :=
  let s := (s.irq (engPage e) 4).count (engPage e) 0x80 k
  s.each (lportsOf ((List.range 4).map fun j => 32 * e + 4 * k + j)) fun l s => s.stopSub l cLaserLow 0x1B .restart

/-- LASER_INPUT_LOW: the tap of input `k` has read `tap`, below the threshold, for 10 us (R83). -/
def laserInputLow (e k tap : Nat) (s : State) : State :=
  let a := engPage e
  if s.rd OPT_LSM_CFG.laser_low_dbm a ≤ tap then s
  else
    let ok := s.rd OPT_ENG_STATUS.laser_ok a
    let s := s.wr OPT_LASER_PWR.tap_dbm a tap k
    if bit ok k = false then s else (s.wr OPT_ENG_STATUS.laser_ok a (ok - 2 ^ k)).inputLow e k

/-- Sub-ports of a list of ports that wait for their engine start at step 5. -/
def State.startWaiting (s : State) (ps : List Nat) : State :=
  s.each (lportsOf ps) fun l s => s.iff (s.linkState l == psWaitEngine) fun s => s.startSub l

/-- LASER_INPUT_RESTORE: input `k` has read `tap`, at or above the threshold, for 10 ms (R83). -/
def laserInputRestore (e k tap : Nat) (s : State) : State :=
  let a := engPage e
  if tap < s.rd OPT_LSM_CFG.laser_low_dbm a ∨ bit (s.rd OPT_ENG_STATUS.lsm_fault a) k then s
  else
    let s := (s.wr OPT_LASER_PWR.tap_dbm a tap k).wr OPT_ENG_STATUS.laser_ok a (Nat.lor (s.rd OPT_ENG_STATUS.laser_ok a) (2 ^ k))
    s.startWaiting ((List.range 4).map fun j => 32 * e + 4 * k + j)

/-- MODULE_IBI: the module's fault register now reads `faults` (R82, R83): a newly faulted output makes its input low. -/
def moduleIbi (e faults : Nat) (s : State) : State :=
  let a := engPage e
  let old := s.rd OPT_ENG_STATUS.lsm_fault a
  if (s.module e).associated = false ∨ old = faults then s
  else
    let s := (s.wr OPT_ENG_STATUS.lsm_fault a faults).irq a 5
    s.each ((List.range 8).filter fun k => bit faults k && !bit old k) fun k s => s.inputLow e k

/-! ### Engine bring-up (R85) -/

/-- ENGINE_BRINGUP: step 1 holds on engine `e`; it goes on to step 4 where its lasers stayed on and its coefficients are kept, and to step
3 with its module associated. -/
def engineBringup (e : Nat) (s : State) : State :=
  let m := s.module e
  if s.engineAlive e = false ∨ s.flag CLK_REF_STATUS.serdes_ref_present (clkPage (e / 4)) = false ∨ s.calState e ≠ calIdle then s
  else
    let s := s.wr CLK_PLL_LOCK.lane_tx_lock (clkPage (e / 4)) 1
    if m.coeffs && m.outEn == s.rd OPT_ENG_CTRL.laser_enable (engPage e) then s.engineStep4 e
    else if m.associated then s.engineStep3 e else s

/-- Taps of engine `e` read again. -/
def State.readTaps (s : State) (e : Nat) (taps : List Nat) : State :=
  let a := engPage e
  let th := s.rd OPT_LSM_CFG.laser_low_dbm a
  let s := s.each (List.range 8) fun k s => s.wr OPT_LASER_PWR.tap_dbm a (taps.getD k 0) k
  s.wr OPT_ENG_STATUS.laser_ok a ((List.range 8).foldl (fun n k => if th ≤ taps.getD k 0 then n + 2 ^ k else n) 0)

/-- LASER_INPUTS_READY: every enabled input reads at or above the threshold, so step 4 starts. -/
def laserInputsReady (e : Nat) (taps : List Nat) (s : State) : State :=
  let a := engPage e
  let th := s.rd OPT_LSM_CFG.laser_low_dbm a
  let on := s.rd OPT_ENG_CTRL.laser_enable a
  if s.calState e ≠ calLaserWait then s
  else if (List.range 8).all fun k => !bit on k || decide (th ≤ taps.getD k 0) then (s.readTaps e taps).engineStep4 e
  else s

/-- CALIBRATION_DONE: step 4 is complete; the engine is READY and its waiting ports start. -/
def calibrationDone (e : Nat) (taps : List Nat) (s : State) : State :=
  let a := engPage e
  let m := s.module e
  if s.calState e ≠ calCalibrating then s
  else
    let s := ((s.readTaps e taps).setModule e { m with coeffs := true }).setCal e calReady
    let s := (s.inc OPT_CAL_TIME.cal_count a).wr OPT_CAL_TIME.last_ms a ((s.now - m.calStart) / 1000000)
    ((s.irq a 6).count a 0x82).startWaiting (engPorts e)

/-- Every port of engine `e` goes dark with cause ENGINE. -/
def State.engineDark (s : State) (e : Nat) : State := s.each (lportsOf (engPorts e)) fun l s => s.cutSub l cEngine psWaitEngine

/-- ENGINE_STEP_TIMEOUT: step 3 or 4 exceeds its bound. -/
def engineStepTimeout (e : Nat) (s : State) : State :=
  if s.calState e = calLaserWait ∨ s.calState e = calCalibrating then
    ((s.setCal e calFault).engineFault e).engineDark e
  else s

/-- OPT_RECAL: full recalibration of engine `e` from step 4, its ports down with cause ENGINE; nothing where step 4 has not been
reached. -/
def State.recal (s : State) (e : Nat) : State :=
  if s.calState e < calCalibrating then s
  else
    let s := (s.setModule e { s.module e with coeffs := false }).engineStep4 e
    s.each (lportsOf (engPorts e)) fun l s => s.stopSub l cEngine 0x1B .restart

/-! ### SERDES reference (R40) -/

/-- SERDES_REF_LOSS: the ports of die `d` go dark at once. What becomes of the management ports that share the reference is not stated:
their PLL loses lock, their links and sessions stay as they are (DESIGN CHOICE, notes/assumptions/56.md). -/
def serdesRefLoss (d : Nat) (s : State) : State :=
  let a := clkPage d
  if s.flag CLK_REF_STATUS.serdes_ref_present a = false then s
  else
    let s := (s.wr CLK_REF_STATUS.serdes_ref_present a 0).wr CLK_REF_STATUS.serdes_ref_lost a 1
    let s := ((s.wr CLK_PLL_LOCK.lane_tx_lock a 0).wr CLK_PLL_LOCK.mgt_lock a 0).count a 0x80
    s.each (lportsOf ((List.range 128).map fun q => 128 * d + q)) fun l s => s.cutSub l cRefLoss psWaitEngine

/-- The clocks of die `d` that need SERDES_REFd lock where it is present: the lane synthesisers, and on dies 0 and 3 the management SerDes. -/
def State.serdesLock (s : State) (d : Nat) : State :=
  let a := clkPage d
  s.iff (s.flag CLK_REF_STATUS.serdes_ref_present a) fun s =>
    (s.wr CLK_PLL_LOCK.lane_tx_lock a 1).iff (d == 0 || d == 3) fun s => s.wr CLK_PLL_LOCK.mgt_lock a 1

/-- SERDES_REF_RETURN: the reference has been present for 10 ms, and bring-up on die `d` resumes at step 1; where a reset or standby holds
the die, when that ends. An engine that was READY is not calibrated again, so its ports start at step 5: R40 says 'through the bring-up
sequence' and no more (DESIGN CHOICE, notes/assumptions/56.md). -/
def serdesRefReturn (d : Nat) (s : State) : State :=
  let a := clkPage d
  if s.flag CLK_REF_STATUS.serdes_ref_present a || !s.power.pwrOk then s
  else
    let s := s.wr CLK_REF_STATUS.serdes_ref_present a 1
    if s.dieHeld d ∨ s.rd PWR_DIE_STATUS.state (pwrDiePage d) = 2 then s
    else
      let s := s.serdesLock d
      let s := s.each [4 * d, 4 * d + 1, 4 * d + 2, 4 * d + 3] fun e s => engineBringup e s
      s.startWaiting ((List.range 128).map fun q => 128 * d + q)

end Sys2Proof.Machine
end

