-- ==== Sys2Proof/Machine/Bypass.lean ====
section
/-! DEFINITION. Photonic bypass circuits: cells and circuits (R96), drains (R101), switchings (R102 to R104, R107), readback and
reconciliation (R105, R106, R108, R109). -/

namespace Sys2Proof.Machine

/-! ### Cells and circuits (R96, R106) -/

/-- The port that the switch fabric joins to engine-local port `j`. -/
def State.path (s : State) (e j : Nat) : Option Nat :=
  let v := Sparse.get 0 s.byp.paths (32 * e + j)
  if v = 0 then none else some (v - 1)

/-- The four cells of a and b are CROSS and the fabric joins them. -/
def State.isCircuit (s : State) (e a b : Nat) : Bool :=
  s.cell e a 0 == 1 && s.cell e a 1 == 1 && s.cell e b 0 == 1 && s.cell e b 1 == 1 && s.path e a == some b && s.path e b == some a

/-- Some cell of port `j` is UNCERTAIN. -/
def State.cellUncertain (s : State) (e j : Nat) : Bool := s.cell e j 0 == 2 || s.cell e j 1 == 2

/-- Partner code of port `j`: its partner, 0xFE with an UNCERTAIN cell, 0xFF in no circuit (R106). -/
def State.partnerCode (s : State) (e j : Nat) : Nat :=
  if s.cellUncertain e j then 0xFE
  else match s.path e j with
    | some k => if s.isCircuit e j k then k else 0xFF
    | none => 0xFF

/-- The complete circuits of engine `e`, as (a, b) with a < b. -/
def State.circuits (s : State) (e : Nat) : List (Nat × Nat) :=
  (List.range 32).filterMap fun j =>
    let k := s.partnerCode e j
    if k < 32 ∧ j < k then some (j, k) else none

/-- The active plan makes engine-local ports a and b of engine `e` BYPASS partners (R30). -/
def State.plannedPair (s : State) (e a b : Nat) : Bool :=
  let p := 32 * e + a
  let q := 32 * e + b
  (s.planRec p).role == roleBypass && (s.planRec q).role == roleBypass && (s.planRec p).partner == q && (s.planRec q).partner == p

def State.cellCount (s : State) (k : Nat) : Nat := Sparse.get 0 s.byp.counts k

/-- A mask of the engine's ports that satisfy `f`. -/
def portMask (f : Nat → Bool) : Nat := (List.range 32).foldl (fun n j => if f j then n + 2 ^ j else n) 0

/-! ### Readback and reconciliation (R108, R109) -/

/-- The cell with the highest count of engine `e`, as (count, cell index). -/
def State.worstCell (s : State) (e : Nat) : Nat × Nat :=
  (List.range 64).foldl (fun a i => let n := s.cellCount (64 * e + i); if a.1 < n then (n, i) else a) (0, 0)

/-- The circuit record of engine `e` in the configuration copy. -/
def State.recordOf (s : State) (e : Nat) : List (Nat × Nat) :=
  (s.boot.copy.circuits.filter fun c => c.1 == e).map fun c => c.2

/-- Ports of engine `e` with a cell that is not BAR leave service: local fault, then dark (R105, R109). -/
def State.outOfService (s : State) (e : Nat) : State :=
  s.each ((engPorts e).filter fun p => !s.cellsBar p && !Sparse.has s.byp.draining p) fun p s =>
    s.each (lportsOf [p]) fun l s => s.iff (decide ((s.sub l).tx ≠ .dark) || s.linkState l != s.restState l) fun s => s.stopSub l cAdmin 0x1B .stay

/-- BYPASS_RECONCILE: the cells against the plan and the circuit record (R109). No cell changes. -/
def State.reconcile (s : State) (e : Nat) : State :=
  let s := s.outOfService e
  let a := bypPage e
  let unplanned := portMask fun j => decide (s.partnerCode e j < 32) && !s.plannedPair e j (s.partnerCode e j)
  let missing := portMask fun j => (s.planRec (32 * e + j)).role == roleBypass && s.cell e j 0 == 0 && s.cell e j 1 == 0
  let odd := (List.range 32).any fun j => s.cellUncertain e j
    || ((s.cell e j 0 == 1 || s.cell e j 1 == 1) && decide (32 ≤ s.partnerCode e j))
  let drift := decide (s.circuits e ≠ s.recordOf e)
  let s := (s.wr BYP_MISMATCH.unplanned a unplanned).wr BYP_MISMATCH.missing a missing
  let s := { s with byp := { s.byp with drift := Sparse.set s.byp.drift e drift } }
  let s := s.iff (unplanned != 0 || missing != 0) fun s => s.irq a 6
  (s.iff odd fun s => s.irq a 7).iff drift fun s => s.irq a 8

/-- BYP_WEAR follows the switching counts (R110). -/
def State.wearView (s : State) (e : Nat) : State :=
  let a := bypPage e
  let w := s.worstCell e
  ((s.wr BYP_WEAR.max_count a w.1).wr BYP_WEAR.port a (w.2 / 2)).wr BYP_WEAR.side a (w.2 % 2)

/-- A readback of engine `e`, and the registers that show it (R110). -/
def State.readback (s : State) (e : Nat) : State :=
  let a := bypPage e
  let s := s.each (List.range 32) fun j s => s.wr BYP_CIRCUIT_MAP.partner a (s.partnerCode e j) j
  let s := s.each (List.range 64) fun i s => s.wr BYP_CELL_STATE.cell a (s.cell e (i / 2) (i % 2)) i
  let s := (s.wr BYP_STATUS.uncertain a (portMask fun j => s.cellUncertain e j)).wr BYP_STATUS.circuits a (s.circuits e).length
  let s := (s.wr BYP_STATUS.readback_valid a 1).wr BYP_LAST_READBACK.seconds a (secOf s.time.t0)
  let s := (s.wr BYP_LAST_READBACK.nanoseconds a (nsOf s.time.t0)).wearView e
  let bad := ((List.range 64).filter fun i => s.cell e (i / 2) (i % 2) == 2).length
  (s.count a 0x81).iff (bad != 0) fun s => s.count a 0x82 0 bad

/-- The engine is powered and its die out of reset, so its cells can be read and switched; in die standby it is not (R108, R387). -/
def State.bypAlive (s : State) (e : Nat) : Bool :=
  s.power.pwrOk && s.rd CTL_DIE_STATE.state (ctlDiePage (e / 4)) != 2 && s.rd PWR_DIE_STATUS.state (pwrDiePage (e / 4)) != 2

/-- Readback with reconciliation: at a reset, every readback_hours, and on BYP_CTRL.readback. -/
def State.readbackNow (s : State) (e : Nat) : State := (s.readback e).reconcile e

/-- PERIODIC_READBACK: readback_hours have passed; 0 means none (R108). -/
def periodicReadback (e : Nat) (s : State) : State :=
  if s.rd BYP_CTRL.readback_hours (bypPage e) = 0 ∨ s.bypAlive e = false then s else s.readbackNow e

/-! ### Switchings (R103, R104) -/

def State.switchQueue (s : State) (e : Nat) : List Switching := Sparse.get [] s.byp.queue e

def State.switching (s : State) (e : Nat) : Bool := s.flag BYP_STATUS.switching (bypPage e)

/-- The queue of engine `e` replaced, with BYP_STATUS. -/
def State.setSwitchQueue (s : State) (e : Nat) (q : List Switching) (busy : Bool) : State :=
  let s := { s with byp := { s.byp with queue := if q = [] then Sparse.del s.byp.queue e else Sparse.set s.byp.queue e q } }
  (s.wr BYP_STATUS.switching (bypPage e) (b2n busy)).wr BYP_STATUS.queued (bypPage e) (q.length - b2n busy)

/-- A switching is queued, or refused with BUSY where 16 wait: the status, none while it waits. -/
def State.queueSwitching (s : State) (e : Nat) (x : Switching) : Option Nat × State :=
  let q := s.switchQueue e
  if 16 ≤ q.length - b2n (s.switching e) then (some stBusy, s)
  else (none, s.setSwitchQueue e (q ++ [x]) (s.switching e))

/-- The oldest waiting switching of engine `e` is for a port that still drains: no cell changes state during a drain (R101). -/
def State.switchDrains (s : State) (e : Nat) : Bool :=
  match s.switchQueue e with
  | [] => false
  | x :: _ => Sparse.has s.byp.draining (32 * e + x.a) || Sparse.has s.byp.draining (32 * e + x.b)

/-- SWITCHING_START: the oldest waiting switching of engine `e` starts, unless VIN48 is below 42 V (R107) or one of its ports drains. -/
def switchingStart (e : Nat) (s : State) : State :=
  if s.switching e ∨ s.switchQueue e = [] ∨ s.switchDrains e = true ∨ s.rd PWR_PKG_STATUS.vin pwrPkgPage < 420 ∨ s.bypAlive e = false then s
  else s.setSwitchQueue e (s.switchQueue e) true

/-- The four cells of a switching, as indices of the engine: receive a, transmit a, receive b, transmit b. -/
def switchCells (x : Switching) : List Nat := [2 * x.a, 2 * x.a + 1, 2 * x.b, 2 * x.b + 1]

/-- Cells set by codes. The fabric joins the two ports alone, or neither once all four cells are BAR. -/
def State.setCells (s : State) (e : Nat) (x : Switching) (codes : List Nat) : State :=
  let pairs := (switchCells x).zip codes
  let cells := pairs.foldl (fun m p => if p.2 = 0 then Sparse.del m (64 * e + p.1) else Sparse.set m (64 * e + p.1) p.2) s.byp.cells
  let ka := 32 * e + x.a
  let kb := 32 * e + x.b
  let others := s.byp.paths.filter fun p => p.1 / 32 != e || (p.1 != ka && p.1 != kb && p.2 != x.a + 1 && p.2 != x.b + 1)
  let paths := if codes.all fun c => c == 0 then others else Sparse.set (Sparse.set others ka (x.b + 1)) kb (x.a + 1)
  { s with byp := { s.byp with cells := cells, paths := paths } }

/-- The four cells' switching counts rise. -/
def State.wearCells (s : State) (e : Nat) (x : Switching) : State :=
  { s with byp := { s.byp with
    counts := (switchCells x).foldl (fun m i => Sparse.upd 0 m (64 * e + i) (· + 1)) s.byp.counts } }

/-- The device sets wear_warn as the count of a cell of the switching reaches 9 x 10^7 (R110). -/
def State.wearWarn (s : State) (e : Nat) (x : Switching) : State :=
  s.iff ((switchCells x).any fun i => s.cellCount (64 * e + i) == 90000000) fun s => s.irq (bypPage e) 9

/-- Firmware rewrites the circuit record and the counts of engine `e` into the configuration copy (R109). -/
def State.recordCircuits (s : State) (e : Nat) : State :=
  if s.boot.cores = 0 then s
  else
    let c := s.boot.copy
    let others := c.circuits.filter fun x => x.1 != e
    let mine := (s.circuits e).map fun x => (e, x.1, x.2)
    let cs := others.filter (fun x => decide (x.1 < e)) ++ mine ++ others.filter fun x => decide (e < x.1)
    { s with boot := { s.boot with copy := { c with circuits := cs, counts := s.byp.counts }, saveDue := true } }

/-- SWITCHING_DONE: the switching in progress and its readback are complete; bit k of `bad` says that cell k of it reads
UNCERTAIN. Its command completes with OK and its outcome (R103); a BYPASS_RESET whose cells do not read BAR completes with HW_ERROR
(notes/assumptions/25.md). R109 orders neither before the other: the record is rewritten first, so a switching's own change is no drift
(DESIGN CHOICE, notes/assumptions/57.md). -/
def switchingDone (e bad : Nat) (s : State) : State :=
  match s.switching e, s.switchQueue e with
  | true, x :: rest =>
    let codes := (List.range 4).map fun k => if bit bad k then 2 else b2n x.cross
    let s := ((((s.setCells e x codes).wearCells e x).wearWarn e x).setSwitchQueue e rest false).readback e
    let s := (s.recordCircuits e).reconcile e
    let ok := bad % 16 == 0
    let s := s.irq (bypPage e) (if ok then 4 else 5)
    let s := s.count (bypPage e) 0x80
    let s := s.iff (!x.cross && ok) fun s => (s.startPort (32 * e + x.a)).startPort (32 * e + x.b)
    if x.cross then s.complete x.ring stOk (b2n (!ok)) 0 else s.complete x.ring (if ok then stOk else stHwError) 0 0
  | _, _ => s

/-- Loss of power during a switching: each of its cells is left in a state that nothing gives (R107). -/
def State.breakSwitching (s : State) (e : Nat) : State :=
  match s.switching e, s.switchQueue e with
  | true, x :: _ => ((s.setCells e x ((List.range 4).map fun k => bits s.free (2 * k) 2 % 3)).tickFree).setSwitchQueue e [] false
  | _, _ => s.setSwitchQueue e [] false

/-- The rails go off with the supply present, a cold reset: the switching in progress ends first, with its four cells as it sets them, and
the others are discarded (R107; DESIGN CHOICE, notes/assumptions/57.md). -/
def State.settleSwitching (s : State) (e : Nat) : State :=
  match s.switching e, s.switchQueue e with
  | true, x :: _ => (s.setCells e x (List.replicate 4 (b2n x.cross))).setSwitchQueue e [] false
  | _, _ => s.setSwitchQueue e [] false

/-- A reset that covers engine `e` waits for the switching in progress and discards the others, which never complete (R107). That the four
cells of it then read as it set them is the model's choice (DESIGN CHOICE, notes/assumptions/57.md). -/
def State.finishSwitching (s : State) (e : Nat) : State :=
  match s.switching e, s.switchQueue e with
  | true, x :: _ => switchingDone e 0 (s.setSwitchQueue e [x] true)
  | _, _ => s.setSwitchQueue e [] false

/-! ### The commands (R102, R104, R106) -/

/-- Threshold of check 5, in 0.1 °C. -/
def hotLimit : Nat := 850

/-- BYPASS_ENABLE at its second submission from ring `r`, D1 in `d1`: a status, or none while it waits (R102). -/
def State.opBypassEnable (s : State) (r d1 : Nat) : Option Nat × State :=
  let p := bits d1 0 9
  let q := bits d1 16 9
  let e := p / 32
  let a := p % 32
  let b := q % 32
  let other := fun j k => decide (s.partnerCode e j < 32) && s.partnerCode e j != k
  if p / 32 ≠ q / 32 ∨ p = q then (some stInvalid, s)
  else if s.plannedPair e a b = false then (some stInvalid, s)
  else if Sparse.has s.byp.draining p ∨ Sparse.has s.byp.draining q then (some stBusy, s)
  else if other a b || other b a then (some stBusy, s)
  else if hotLimit ≤ s.rd OPT_ENG_STATUS.temp (engPage e) then
    (none, { s with byp := { s.byp with hot := s.byp.hot ++ [⟨e, a, b, r⟩] } })
  else s.queueSwitching e ⟨true, a, b, r⟩

/-- The waits of engine `e` for check 5 that can end, its temperature below the limit: they are queued in order. -/
def State.hotCheck (s : State) (e : Nat) : State :=
  if hotLimit ≤ s.rd OPT_ENG_STATUS.temp (engPage e) then s
  else
    let mine := s.byp.hot.filter fun x => x.engine == e
    let s := { s with byp := { s.byp with hot := s.byp.hot.filter fun x => x.engine != e } }
    s.each mine fun x s =>
      match s.queueSwitching e ⟨true, x.a, x.b, x.ring⟩ with
      | (some st, s) => s.complete x.ring st 0 0
      | (none, s) => s

/-- BYPASS_TEMPERATURE_WAIT_EXPIRY: the oldest wait of engine `e` for check 5 ends; still too hot, it completes with outcome 2. -/
def bypassTemperatureWaitExpiry (e : Nat) (s : State) : State :=
  let s := s.hotCheck e
  match s.byp.hot.find? fun x => x.engine == e with
  | none => s
  | some x => ({ s with byp := { s.byp with hot := s.byp.hot.erase x } }).complete x.ring stOk 2 0

/-- BYPASS_RESET from ring `r` (R104): for a circuit, or for two ports that the fabric joins while a switching left some cell of theirs
other than BAR, which it returns to use (R109). -/
def State.opBypassReset (s : State) (r d1 : Nat) : Option Nat × State :=
  let p := bits d1 0 9
  let q := bits d1 16 9
  let e := p / 32
  let a := p % 32
  let b := q % 32
  let joined := s.path e a == some b && s.path e b == some a && [s.cell e a 0, s.cell e a 1, s.cell e b 0, s.cell e b 1].any fun c => c != 0
  if p / 32 ≠ q / 32 ∨ p = q ∨ joined = false then (some stNotFound, s)
  else s.queueSwitching e ⟨false, a, b, r⟩

/-- BYPASS_READ: a fresh readback of engine D1[3:0], its partner map at staging offset D2 of session `n` (R106). -/
def State.opBypassRead (s : State) (n d1 d2 : Nat) : Nat × State :=
  let e := bits d1 0 4
  if !stagingOk d2 32 then (stPermission, s)
  else
    let s := s.readbackNow e
    (stOk, s.stage n d2 ((List.range 32).map fun j => byte (s.partnerCode e j)))

/-! ### Draining into bypass (R101) -/

/-- Steps 1 and 2: port `p`, of record `old` until the drain ends, leaves every set and waits for its queues. -/
def State.bypassDrain (s : State) (p : Nat) (old : PortRec) : State :=
  { s with byp := { s.byp with draining := Sparse.set s.byp.draining p ⟨old, false⟩ } }

/-- BYPASS_DRAIN_EXPIRY: the wait of step 2 ends: remaining frames are discarded under DRAIN_DISCARD, LINK_DOWN with cause ADMIN
is written for each UP sub-port, and local fault starts. -/
def bypassDrainExpiry (p : Nat) (s : State) : State :=
  match s.byp.draining.find? fun e => e.1 == p && !e.2.closing with
  | none => s
  | some e =>
    let s := { s with byp := { s.byp with draining := Sparse.set s.byp.draining p { e.2 with closing := true } } }
    (s.each (lportsOf [p]) fun l s => (s.flushPort l 0x1C).stopSub l cAdmin 0x1C .stay).portDark p

end Sys2Proof.Machine
end

