-- ==== Sys2Proof/Machine/Receive.lean ====
section
/-! DEFINITION. The receive path of the pipelines, stages S0 to S6: R111 to R116, R130, R131, R141, R144, R162 to R173, R209, R371,
R411, R435; and the repetition and expiry of PFC (R169). -/

namespace Sys2Proof.Machine

/-! ### S0: treads and class -/

/-- Traffic class of a received frame by the DSCP map of its pipeline (R118, R164); 0 for a frame that is not IPv6
(notes/assumptions/24.md). -/
def State.rxClass (s : State) (l : Nat) (u : List Byte) : Nat :=
  if etype u = 0x86DD then s.rd SWP_DSCP_MAP.cls (swpPage (pipeOfPort (l / 4))) (ipDscp u) else 0

/-- The headroom pool of logical port `l`: SRAM for fibre class 0, deep treads otherwise (R165, R170). -/
def State.headPool (s : State) (l : Nat) : Pool := if s.fibre l = 0 then .headroom else .deepHead

/-- The pool S0 takes `n` treads from for class `c` on logical port `l`, or the reason it cannot (R165, R168, R171). -/
def State.rxPool (s : State) (l c n : Nat) : Except Nat Pool :=
  let d := l / 512
  if isHold c then
    if s.xoff l c = false ∧ n ≤ s.poolFree d .forward then .ok .forward
    else if n ≤ s.headroom l - Sparse.get 0 s.sw.headUse l then .ok (s.headPool l)
    else .error 0x17
  else if n ≤ s.poolFree d (poolOfClass c) then .ok (poolOfClass c)
  else .error 0x02

/-- The frame is an HJT frame (R116); one too short for a destination port is none. -/
def isHjt (pfx port : Nat) (u : List Byte) : Bool :=
  etype u == 0x86DD && ipNext u == 17 && decide (58 ≤ u.length) && udpDst u == port && (ipDst u / 2 ^ 32 == pfx || ipDst u == allNodes)

/-! ### S2: checks -/

/-- The destination MAC is accepted on logical port `l` (R113). -/
def State.macOk (s : State) (l m : Nat) : Bool :=
  if bit m 40 then m == macLldp || m == macPfc || m == macHello else m == s.portMac l

/-- The first check of S2 that frame `b` on logical port `l` fails (R111 to R113, R115, R131, R177): its reason, or whether the
frame is parsed as an HJT frame. -/
def State.rxCheck (s : State) (pl : Plan) (l : Nat) (b : List Byte) (codeword : Bool) : Except Nat Bool :=
  let u := parsed b
  let hjt := isHjt pl.pfx (s.rd SWP_PARSE_CFG.hjt_port (swpPage (pipeOfPort (l / 4)))) u
  if b.length < 64 ∨ 9216 < b.length then .error 0x03
  else if codeword ∨ fcsOk b = false then .error 0x04
  else if badTag b then .error 0x05
  else if etype u ≠ 0x86DD ∧ etype u ≠ 0x88CC ∧ etype u ≠ 0x8808 then .error 0x06
  else if etype u = 0x8808 ∧ beAt u 14 2 ≠ pfcOpcode then .error 0x07
  else if s.macOk l (ethDst u) = false then .error 0x08
  else if etype u ≠ 0x86DD then .ok false
  else if ipOk b = false then .error 0x09
  else if ipHop u ≤ 1 then .error 0x0A
  else if hjt = false then .ok false
  else match hjtCheck u with
    | none => .ok true
    | some r =>
      if r = dHjtVersion ∧ ipDst u / 2 ^ 32 = pl.pfx ∧ feaLeaf (ipDst u % 2 ^ 32) ≠ 0x3FF then .ok false else .error r

/-! ### PFC received (R169) -/

/-- A PFC frame on logical port `l`: each enabled hold class pauses or resumes; enabled drop classes are ignored and counted
once per frame. -/
def State.pfcReceive (s : State) (l : Nat) (u : List Byte) : State :=
  let s := s.each ([2, 6, 7].filter fun c => pfcEnable u c) fun c s =>
    let k := 8 * l + c
    { s with sw := { s.sw with paused := if pfcTime u c = 0 then Sparse.del s.sw.paused k else Sparse.set s.sw.paused k true } }
  s.iff ([0, 1, 3, 4, 5].any fun c => pfcEnable u c) fun s => s.count (swpPage (pipeOfPort (l / 4))) 0x81

/-- PFC_XOFF_REFRESH: XOFF is repeated while it stands. -/
def pfcXoffRefresh (l c : Nat) (s : State) : State := s.iff (s.xoff l c) fun s => s.sendPfc l c 0xFFFF

/-- PFC_PAUSE_EXPIRY: a received pause time runs out. -/
def pfcPauseExpiry (l c : Nat) (s : State) : State :=
  { s with sw := { s.sw with paused := Sparse.del s.sw.paused (8 * l + c) } }

/-! ### S3: terminated or looked up -/

/-- What S3 does with a frame. -/
inductive S3 where
  /-- Discarded on a page under a reason. -/
  | drop (page code : Nat)
  /-- Terminated, with nothing left to do. -/
  | done
  /-- A CONTRIB to the own spine. -/
  | contrib
  /-- A RoCEv2 frame to the own spine's service 0x02, for the RoCEv2 engine of M0 (R130). -/
  | relay
  /-- Forwarded to these destinations. -/
  | forward (ds : List Dest)
  deriving DecidableEq, Repr

/-- The frame is a time message the device terminates (R371). -/
def State.isTimeMessage (s : State) (l : Nat) (u : List Byte) : Bool :=
  s.flag TIM_CFG.gptp_enable (timPage 0) && (s.sub l).twoWay && ethDst u == s.portMac l && ipDst u == ptpGroup
    && ipHop u == 255 && ipNext u == 17 && (udpDst u == 319 || udpDst u == 320)

/-- A HELLO's addresses and payload are valid (R133, R135). -/
def State.helloValid (s : State) (pl : Plan) (u : List Byte) : Bool :=
  (ipDst u == allNodes || ipDst u == pl.pfx * 2 ^ 32 + s.ownFea 0) && ipHop u == 255 && helloOk (hjtPayload u)

/-- Row 1 of R141: the LPM action for an address outside the fabric prefix (R25, R151 to R153). Every entry is compared, so any whose
parity fails is mended from its shadow copy or deleted; the deleted ones are misses (R433). -/
def State.lpmLookup (s : State) (d addr : Nat) (hw : RxFind) : S3 × State :=
  let s := match hw with
    | .lpmParity bad => s.each bad fun b s => s.lpmParity d b.1 b.2
    | _ => s
  match s.lpmFind addr with
  | none => (.drop (fwdPage d) dNoRoute, s)
  | some (_, e) =>
    let v := e.value
    if bit v 63 = false ∨ bits v 48 2 = 0 ∨ bits v 48 2 = 3 then (.drop (fwdPage d) dNoRoute, s)
    else if bits v 48 2 = 1 then (.forward [.leaf (bits v 0 10)], s)
    else (.forward [.hall (bits v 0 6)], s)

/-- Rows 3 and 5 to 7 of R141 at die `d`, an uncorrectable entry taken as a miss (R160). -/
def State.feaLookup (s : State) (d : Nat) (from_ : Option Nat) (fea : Nat) (hw : RxFind) : List Dest × State :=
  match hw with
  | .epEcc =>
    let s := s.epError d fea
    match s.epFind d fea with
    | none => s.destinations d from_ fea
    | some i =>
      let r := (s.epDelAll i).destinations d from_ fea
      (r.1, { r.2 with tables := s.tables })
  | _ => s.destinations d from_ fea

/-- S3 for an IPv6 frame on logical port `l` of an ACCEPTED sub-port (R23, R129, R130, R141). -/
def State.lookup (s : State) (pl : Plan) (l : Nat) (u : List Byte) (hjt : Bool) (hw : RxFind) : S3 × State :=
  let d := l / 512
  let f := fwdPage d
  let w := swpPage (pipeOfPort (l / 4))
  let h := Hjt.decode u
  let fea := ipDst u % 2 ^ 32
  let under := ipDst u / 2 ^ 32 == pl.pfx
  let down := s.role (l / 4) == roleDown
  let leaf := (s.portRec (l / 4)).leaf
  if hjt = true ∧ h.type = tContrib ∧ h.job = 0 then (.drop w 0x14, s)
  else if under = false then
    let r := s.lpmLookup d (ipDst u) hw
    if down = true ∧ r.1 = .forward [.leaf leaf] then (.drop f 0x2D, r.2) else r
  else if feaLeaf fea = 0x3FF ∧ 2 < feaFn fea then (.drop w 0x13, s)
  else if feaRail fea ≠ pl.rail then (.drop f 0x2C, s)
  else if feaHall fea = pl.hall ∧ feaLeaf fea = 0x3FF then
    if feaPort fea ≠ pl.spine then (.drop f dNoRoute, s)
    else if feaFn fea = 1 ∧ hjt = true ∧ h.type = tContrib then (.contrib, s)
    else if feaFn fea = 2 ∧ s.rd MGT_MACSEC_CFG.policy (mgtPage 0) = 0 ∧ ipNext u = 17 ∧ udpDst u = 4791 then (.relay, s)
    else (.drop w 0x13, s)
  else
    let r := s.feaLookup d (if down then some leaf else none) fea hw
    if down = true ∧ r.1 = [.leaf leaf] then (.drop f 0x2D, r.2)
    else if r.1 = [] then (.drop f dNoRoute, r.2)
    else (.forward r.1, r.2)

/-- S3 for a frame that passed S2 (R111, R130, R371, R411). A time message goes to firmware with its stamps in T0 and T1 (R370). -/
def State.stage3 (s : State) (pl : Plan) (l : Nat) (u : List Byte) (hjt : Bool) (hw : RxFind) : S3 × State :=
  let w := swpPage (pipeOfPort (l / 4))
  if etype u = 0x88CC then (.done, s.lldpReceive l u)
  else if etype u = 0x8808 then (.done, s.pfcReceive l u)
  else if s.isTimeMessage l u then
    let m := slice u 62 (udpLen u - 8)
    if s.ptpOk m then (.done, { s with time := { s.time with inbox := s.time.inbox ++ [⟨l, s.time.t0, s.time.t1, m⟩] } }) else (.drop (timPage (l / 512)) 0x28, s)
  else if hjt = true ∧ (Hjt.decode u).type = tHello then
    if s.helloValid pl u then (.done, s.helloReceive l u) else (.drop w 0x12, s)
  else if (s.sub l).disc ≠ .accepted then (.drop w 0x29, s)
  else s.lookup pl l u hjt hw

/-! ### S4 to S6 -/

/-- S4's learning for a frame that S2 and S3 did not discard (R144). -/
def State.stage4 (s : State) (pl : Plan) (l : Nat) (u : List Byte) : State :=
  let fea := ipSrc u % 2 ^ 32
  let r := s.portRec (l / 4)
  if etype u = 0x86DD ∧ r.role = roleDown ∧ (s.sub l).disc = .accepted ∧ ipSrc u / 2 ^ 32 = pl.pfx
      ∧ feaHall fea = pl.hall ∧ feaRail fea = pl.rail ∧ feaLeaf fea ≠ 0x3FF then
    s.learnArrival fea l r.leaf
  else s

/-- The frame leaves the store under a reason. -/
def State.rxDrop (s : State) (id page code cls l : Nat) : State := (s.dropAt page code cls l).release id

/-- A frame that S3 terminates is policed like any other of its class; PFC is no traffic of a class (R162, R209;
notes/assumptions/58.md). -/
def State.policed (s : State) (l cls : Nat) (u : List Byte) : Bool :=
  !isHold cls && etype u != 0x8808 && (s.bucketCfg (policerKey l cls)).enable

/-- The effect of S3 and S5 to S6 on frame `id` with parsed bytes `u`, in the state `s` that S4 leaves. -/
def State.stage56 (s : State) (r : S3) (id l cls : Nat) (u : List Byte) : State :=
  match r with
  | .drop page code => s.rxDrop id page code cls l
  | .done => s.release id
  | .relay => { s with mgmt := { s.mgmt with relayed := s.mgmt.relayed ++ [u] } }.release id
  | .contrib =>
    match s.acceptContrib id (l / 512) (engOfPort (l / 4)) u with
    | (some code, s) => s.rxDrop id (lndPage (l / 512)) code cls l
    | (none, s) => s
  | .forward ds => s.place id (markMc (ds.map fun x => ⟨x, false, none, false⟩))

/-- The copies of a frame on logical port `l` that need the route bank entry which reads uncorrectable, or is still being refetched, are
discarded under NO_ROUTE; the first such read writes its record, with the syndrome and the stored word free (R433, R438). -/
def State.routeEcc (s : State) (l cls : Nat) (refetch : Bool) (ds : List Dest) : List Dest × State :=
  let d := l / 512
  let lost := ds.filter fun x => match x with
    | .hall _ => true
    | _ => false
  let s := s.iff (!refetch && decide (lost ≠ [])) fun s =>
    let r := s.memRecord { ErrRec.of d 0x0101 with memory := 9, uncorrectable := true, rail := 2, addr := s.free } none
    r.2.tickFree.hwError r.1 (fwdPage d) 0 0x0031 3 (9 + d * 256) 0xFFFF 0
  (ds.filter fun x => !lost.contains x, s.each lost fun _ s => s.dropAt (fwdPage d) dNoRoute cls l)

/-- Stages S3 to S6 of frame `id` of logical port `l`, which S2 has passed. A terminated frame that fails its policer at S4 goes no
further, so that S3 has no effect. -/
def State.stage36 (s : State) (pl : Plan) (id l cls : Nat) (b : List Byte) (hjt : Bool) (hw : RxFind) : State :=
  let u := parsed b
  let k := policerKey l cls
  match s.stage3 pl l u hjt hw with
  | (.drop page code, s') => s'.stage56 (.drop page code) id l cls u
  | (r, s') =>
    if s.policed l cls u && !s.conforms k then
      ((match r with
        | .forward _ => s'
        | _ => s).stage4 pl l u).rxDrop id (schPage (l / 4)) 0x1D cls l
    else
      let s := (s'.stage4 pl l u).iff (s.policed l cls u) fun s => s.charge k b.length
      match hw, r with
      | .routeEcc refetch, .forward ds =>
        let x := s.routeEcc l cls refetch ds
        if x.1 = [] then x.2.release id else x.2.stage56 (.forward x.1) id l cls u
      | _, _ => s.stage56 r id l cls u

/-- S0 of a received frame with bytes `u` that found `n` treads in `pool`: it is stored, counted against its partner, and PFC follows
(R165, R168, R170). -/
def State.rxStore (s : State) (l cls n : Nat) (u : List Byte) (hjt : Bool) (pool : Pool) : Nat × State :=
  let (id, s) := s.newFrame ⟨u, l, l / 512, pool, n, cls, if hjt then (Hjt.decode u).job else 0xFFFF, 1, false, hjt, isHold cls, false⟩
  let s := s.iff (decide (pool = .headroom ∨ pool = .deepHead)) fun s =>
    { s with sw := { s.sw with headUse := Sparse.set s.sw.headUse l (Sparse.get 0 s.sw.headUse l + n) } }
  (id, (s.iff (isHold cls) fun s => s.setIngress l cls (s.ingress l cls + n)).pfcAll (l / 512))

/-- In far-end loopback an enabled sub-port sends received data back as it came (R95). -/
def State.loopsBack (s : State) (l : Nat) : Bool :=
  s.rd OPT_PORT_CFG.loopback (portPage (l / 4)) == 2 && s.wanted l && (s.sub l).rxValid

/-- FRAME_RECEIVE: frame `b` arrives whole on logical port `l` (R162). Nothing is received unless the sub-port is UP with role
DOWN or GALLERY, and while forwarding is stopped (R40); far-end loopback sends it back. -/
def frameReceive (l : Nat) (b : List Byte) (hw : RxFind) (s : State) : State :=
  match s.boot.plan with
  | none => s
  | some pl =>
    let role := s.role (l / 4)
    if s.loopsBack l then s.emit (.frame l b)
    else if s.isUp l = false ∨ (role ≠ roleDown ∧ role ≠ roleGallery) ∨ s.power.stopped then s
    else
      let d := l / 512
      let w := swpPage (pipeOfPort (l / 4))
      let s := (s.count (portPage (l / 4)) 0x87 (l % 4)).count (portPage (l / 4)) 0x89 (l % 4) b.length
      let u := unwire b
      let cls := s.rxClass l u
      if hw = .overrun then (s.dropAt w 0x01 cls l).irq w 4
      else match s.rxPool l cls (treadsOf b.length) with
      | .error code => (s.dropAt (bufPage d) code cls l).irq (bufPage d) (if code = 0x17 then 4 else 5)
      | .ok pool =>
        let n := treadsOf b.length
        let checked := s.rxCheck pl l b (decide (hw = .codeword))
        let hjt := match checked with
          | .ok h => h
          | .error _ => false
        let (id, s) := s.rxStore l cls n u hjt pool
        if hw = .treadEcc then s.treadEcc id
        else match checked with
        | .error code => s.rxDrop id w code cls l
        | .ok hjt =>
          let s := s.iff (isHold cls && decide (b.length < 108)) fun s => (s.count w 0x80).irq w 5
          if hw = .residue then
            (s.pipeResidue (pipeOfPort (l / 4))).rxDrop id w 0x2A cls l
          else s.stage36 pl id l cls b hjt hw

end Sys2Proof.Machine
end

