-- ==== Sys2Proof/Machine/MemSys.lean ====
section
/-! DEFINITION. Memories and what protects them (R351 to R363, R433), the mesh lane groups (R37), SYSCLK (R40, R45) and the control
cores (R73). -/

namespace Sys2Proof.Machine

/-! ### Control cores (R73) -/

/-- Control core `k` stops, and the commands it was performing, on the rings `rs`, complete with HW_ERROR (R73). -/
def State.coreStop (s : State) (k : Nat) (rs : List Nat) : State :=
  let s := { s with boot := { s.boot with cores := setBit s.boot.cores k false } }
  s.each rs fun r s => s.iff (s.ring r).waiting fun s => (s.orphan r).complete r stHwError 0 0

/-- CORE_WATCHDOG_EXPIRY of control core `k`, which was performing the waiting commands of the rings `rs`: an error record and the
package CTL page's latch (R73, R436, R440). -/
def coreWatchdogExpiry (k : Nat) (rs : List Nat) (s : State) : State :=
  if bit s.boot.cores k = false then s
  else
    let e := { ErrRec.of 0 0x010D with block := 4, unit := k }
    (s.hwError e ctlPkgPage 0 0 0 0 0xFFFF 0).coreStop k rs

/-- CORE_RESTART: firmware on another core restarts control core `k` (R73). -/
def coreRestart (k : Nat) (s : State) : State :=
  if s.boot.cores = 0 then s else { s with boot := { s.boot with cores := setBit s.boot.cores k true } }

/-! ### Effects of an uncorrectable read (R363, R433) -/

/-- The stage at which a landing holds its residual area (R345). -/
def AreaStage.holds (a : AreaStage) : Bool := decide (a = .copying ∨ a = .held ∨ a = .writeBack)

/-- The head of key `k` faults with ECC, and its entry is abandoned (R332, R363). -/
def State.headEcc (s : State) (k : Key) : State :=
  match s.live? k with
  | none => s
  | some e => match e.head? with
    | none => s
    | some l =>
      let x := s.group k.group
      (s.faultRegs l.core x.flight 0 0 k.group x.job fEcc).abandon k

/-- A residual area reads uncorrectable: the head that holds it faults, and it is made fresh (R348, R363). -/
def State.areaEcc (s : State) (g c : Nat) : State :=
  let ks := (s.coll.dir.filter fun e => e.key.group == g && e.key.chunk == c && e.landings.any fun l => l.stage.holds).map fun e => e.key
  (s.each ks fun k s => s.headEcc k).freshenArea g c

/-- A flight slot of a core is no longer loaded (R433). -/
def State.unloadSlot (s : State) (c n : Nat) : State :=
  let x := s.core c
  s.setCore c { x with slots := Sparse.del x.slots n }

/-- The frames of one queue go under PORT_DOWN_FLUSH, the port staying in service (R433). -/
def State.flushQueue (s : State) (l c slot : Nat) : State :=
  let k := qKey l c slot
  let q := s.queue k
  (s.setQueue k []).each q fun e s => s.dropCopy k e 0x1B

/-- What the loss of a word does beyond its record; `dram` says that it lay in bonded DRAM or LPDDR6, not in SRAM. -/
def State.lose? (s : State) (dram : Bool) (v : Victim) : State :=
  match v with
  | .nothing => s
  | .frame _ => s
  | .landing _ => s
  | .entry k => if dram then (match s.live? k with
      | some e => s.incomplete e
      | none => s) else s.abandon k
  | .slot k => s.headEcc k
  | .area g c => s.areaEcc g c
  | .group g every => s.iff every fun s => s.disableGroup g
  | .endpoint _ => s
  | .flight c n => s.unloadSlot c n
  | .control k rs => s.coreStop k rs
  | .queue l c slot => s.flushQueue l c slot

/-! ### Bonded DRAM (R351 to R355) -/

/-- Region of a byte address of die `d`'s bonded DRAM (R352), coded as in F2F_ECC_LAST. -/
def State.dramRegion (s : State) (d a : Nat) : Nat :=
  let m := a / 2 ^ 20
  let deep := s.rd F2F_REGION.deep_gib (f2fPage d) * 1024
  if 22528 ≤ m then 3 else if 21504 ≤ m then 2
  else if m < deep then 0 else if m < deep + s.rd F2F_REGION.res_mib (f2fPage d) then 1 else 4

/-- DRAM_REFRESH of die `d` at DRAM temperature `temp`, in 0.1 °C: doubled above 85.0 °C (R351). -/
def dramRefresh (d temp : Nat) (s : State) : State :=
  let a := f2fPage d
  let hot := decide (850 < temp)
  let was := s.flag F2F_STATUS.refresh_2x a
  ((s.wr F2F_STATUS.temp a temp).wr F2F_STATUS.refresh_2x a (b2n hot)).iff (hot && !was) fun s => s.count a 0x82

/-- One error that a pass over die `d`'s bonded DRAM finds. -/
def State.dramFind (s : State) (d : Nat) (f : MemFind) : State :=
  if 1 ≤ f.symbols then s.dramError d (s.dramRegion d f.addr) (f.addr / 64 * 64) (some f.symbols)
  else match f.victim with
    | .frame id => s.treadEcc id (some (f.addr / 64 * 64))
    | v => (s.dramError d (s.dramRegion d f.addr) (f.addr / 64 * 64) none).lose? true v

/-- DRAM_SCRUB: a pass over the 402,653,184 blocks of die `d`'s bonded DRAM ends, having found `fs` (R355). -/
def dramScrub (d : Nat) (fs : List MemFind) (s : State) : State :=
  let a := f2fPage d
  if s.rd F2F_SCRUB.period_h a = 0 ∨ s.dramReady d = false then s
  else ((s.each fs fun f s => s.dramFind d f).inc F2F_SCRUB.passes a).count a 0x83 0 402653184

/-! ### LPDDR6 (R356 to R362) -/

/-- LPDDR6 device `n` is in use: trained, and not in self-refresh. -/
def State.lpInUse (s : State) (n : Nat) : Bool :=
  !s.flag MEM_STATUS.unused (memPage n) && !s.flag MEM_STATUS.self_refresh (memPage n) && s.flag MEM_STATUS.ch0_trained (memPage n)
    && s.flag MEM_STATUS.ch1_trained (memPage n)

/-- LPDDR6_REFRESH of device `n`: per-bank refresh loses no access and changes no state software sees (R357). -/
def lpddr6Refresh (_n : Nat) (s : State) : State := s

/-- A retraining of device `n` took `us` and succeeded or not: a failed one keeps the previous parameters (R361). -/
def State.retrain (s : State) (n : Nat) (ok : Bool) (us : Nat) : State :=
  let a := memPage n
  let s := ((s.inc MEM_TRAIN.retrains a).wr MEM_TRAIN.last_us a (min us 65535)).count a 0x83
  let s := { s with boot := { s.boot with trainTemp := Sparse.set s.boot.trainTemp n (s.rd MEM_STATUS.temp a) } }
  s.iff (!ok) fun s => (s.incSat MEM_TRAIN.fails a).irq a 6

/-- LPDDR6_RETRAIN: retrain_ms have passed on device `n`; 0 disables it (R361). -/
def lpddr6Retrain (n : Nat) (ok : Bool) (us : Nat) (s : State) : State :=
  if s.rd MEM_CFG.retrain_ms (memPage n) = 0 ∨ s.lpInUse n = false then s else s.retrain n ok us

/-- Difference of two temperatures. -/
def gapOf (a b : Nat) : Nat := a - b + (b - a)

/-- LPDDR6_TEMP_READ: device `n` reads `temp`, in 0.1 °C, and asks for refresh multiplier code `mult`; a temperature that has
moved by retrain_dtemp since the last training retrains the device, with outcome `ok` and duration `us` (R357, R361). The first reading after
a training that a boot, a reset or self-refresh called for stands for the temperature of that training (DEDUCED, notes/assumptions/72.md). -/
def lpddr6TempRead (n temp mult : Nat) (ok : Bool) (us : Nat) (s : State) : State :=
  let a := memPage n
  if s.lpInUse n = false then s
  else
    let old := s.rd MEM_STATUS.refresh_mult a
    let s := (s.wr MEM_STATUS.temp a temp).wr MEM_STATUS.refresh_mult a mult
    let s := s.iff (decide (old < mult)) fun s => (s.irq a 7).count a 0x84
    let dt := s.rd MEM_CFG.retrain_dtemp a
    if Sparse.has s.boot.trainTemp n then
      s.iff (dt != 0 && decide (dt * 10 ≤ gapOf temp (Sparse.get 0 s.boot.trainTemp n))) fun s => s.retrain n ok us
    else { s with boot := { s.boot with trainTemp := Sparse.set s.boot.trainTemp n temp } }

/-- Key of the error record at byte address `a` of die `d`'s LPDDR6, in the region of its error records (R359, R436). -/
def recordKey (d a : Nat) : Nat := d * 2 ^ 24 + a % 2 ^ 30 / 64

/-- The record with key `k` no longer reads (R363). -/
def State.badRecord (s : State) (k : Nat) : State := { s with rel := { s.rel with badRecords := k :: s.rel.badRecords.filter fun j => j != k } }

/-- One error that a pass over die `d`'s LPDDR6 finds; an uncorrectable one in an error record is met again when firmware reads it. -/
def State.lpFind (s : State) (d : Nat) (f : MemFind) : State :=
  if f.link then s.lpError d f.addr .link
  else if 1 ≤ f.symbols then s.lpError d f.addr .secded
  else ((s.lpError d f.addr .bad).iff (s.lpRegion d f.addr == 4) fun s => s.badRecord (recordKey d f.addr)).lose? true f.victim

/-- LPDDR6_SCRUB: a pass over device `n` ends, having found `fs`, by byte address of the die's space (R358, R362). -/
def lpddr6Scrub (n : Nat) (fs : List MemFind) (s : State) : State :=
  let a := memPage n
  if s.rd MEM_SCRUB.period_h a = 0 ∨ s.lpInUse n = false then s
  else (s.each (fs.filter fun f => f.addr / 256 % 6 / 2 == n % 3) fun f s => s.lpFind (n / 3) f).inc MEM_SCRUB.passes a

/-! ### SRAM (R433) -/

/-- Page and interrupt bit of an SRAM error on die `d`: the page of the block that holds the memory (R433, R439). -/
def sramPage (d : Nat) (f : MemFind) : Nat × Nat :=
  match f.victim, f.memory with
  | .frame _, _ => (bufPage d, 7)
  | .endpoint _, _ => (fwdPage d, 8)
  | .flight c _, _ => (cmbPage c, 0)
  | .control _ _, _ => (ctlPkgPage, 0)
  | .queue l _ _, _ => (schPage (l / 4), 0)
  | _, 1 => (bufPage d, if 1 ≤ f.symbols then 0 else 7)
  | _, 2 => (lndPage d, 0)
  | _, 3 => (fwdPage d, if 1 ≤ f.symbols then 0 else 8)
  | _, 4 => (fwdPage d, 7)
  | _, 9 => (schDiePage d, 0)
  | _, _ => (ctlDiePage d, 0)

/-- The core whose landing SRAM holds an entry's words on die `d`. -/
def State.sramCore (s : State) (d : Nat) (f : MemFind) : Option Nat :=
  match f.memory, f.victim with
  | 2, .entry k => (s.live? k).bind fun e => (e.on? d).map fun l => l.core
  | 2, .landing c => some c
  | _, _ => none

/-- One error that the SRAM scrub of die `d` finds: corrected data is written back; an uncorrectable word has its effect. -/
def State.sramFind (s : State) (d : Nat) (f : MemFind) : State :=
  let good := decide (1 ≤ f.symbols)
  match good, f.victim with
  | false, .frame id => s.treadEcc id (some f.addr)
  | false, .endpoint fea => s.epError d fea
  | _, v =>
    let e := { ErrRec.of d (if good then 0x0100 else 0x0101) with memory := f.memory, uncorrectable := !good, rail := 2, addr := f.addr }
    let ev := if good then 0x0030 else 0x0031
    let d0 := f.memory % 256 + d * 256
    let s := match s.sramCore d f with
      | some c =>
        let r := s.memRecord { e with block := 2, core := c } none
        r.2.hwError r.1 (vecPage c) (if good then 5 else 0) ev (if good then 0 else 3) d0 (if good then 0x82 else 0xFFFF) 0
      | none =>
        let r := s.memRecord (match f.victim with
          | .flight c _ => { e with core := c }
          | _ => e) none
        let p := sramPage d f
        r.2.hwError r.1 p.1 p.2 ev (if good then 0 else 3) d0 0xFFFF 0
    s.iff (!good) fun s => s.lose? false v

/-- SRAM_SCRUB: a pass over die `d`'s SRAM ends, having found `fs`. -/
def sramScrub (d : Nat) (fs : List MemFind) (s : State) : State := s.each fs fun f s => s.sramFind d f

/-! ### Mesh lane groups (R37, R46) -/

/-- The i-th other die of die `d`. -/
def meshPeer (d i : Nat) : Nat := if i < d then i else i + 1

/-- The link of die `d` that leads to die `e`. -/
def meshLink (d e : Nat) : Nat := if e < d then e else e - 1

/-- Rate of a direction with these failed lane groups, in Tb/s. -/
def meshRate (failed : Nat) : Nat := 112 - 16 * (popCount 8 failed - 1)

/-- MESH_LANE_GROUP_FAIL: die `d` finds lane group `g` of the incoming direction of its link `i` failing, with `flits` of each pool
(requests, replies, results, forwarded) retransmitted by the peer. The first failure takes the spare, a correctable error; each
further one lowers the rate, an uncorrectable one (R37). -/
def meshLaneGroupFail (d i g : Nat) (flits : List Nat) (s : State) : State :=
  let e := meshPeer d i
  let j := meshLink e d
  let old := s.rd MSH_LINK.rx_failed (mshPage d) i
  if bit old g then s
  else
    let m := Nat.lor old (2 ^ g)
    let s := (s.wr MSH_LINK.rx_failed (mshPage d) m i).wr MSH_LINK.rx_tbps (mshPage d) (meshRate m) i
    let s := (s.wr MSH_LINK.tx_failed (mshPage e) m j).wr MSH_LINK.tx_tbps (mshPage e) (meshRate m) j
    let s := s.each (List.range 4) fun k s => s.iff (flits.getD k 0 != 0) fun s => s.count (mshPage e) 0x80 (4 * d + k) (flits.getD k 0)
    let first := old == 0
    let r := { ErrRec.of d (if first then 0x0107 else 0x0108) with memory := 10, uncorrectable := !first, lane := g }
    s.hwError r (mshPage d) (if first then 4 else 5) (if first then 0x0030 else 0x0031) (if first then 0 else 3) (10 + d * 256) (if first then 0x81 else 0xFFFF) (4 * e)

/-- A reset of die `d` retrains the lane groups of its links at both ends (R46). -/
def State.meshRetrain (s : State) (d : Nat) : State :=
  let one := fun (a i : Nat) (s : State) =>
    let s := (s.wr MSH_LINK.rx_failed (mshPage a) 0 i).wr MSH_LINK.tx_failed (mshPage a) 0 i
    (s.wr MSH_LINK.rx_tbps (mshPage a) 112 i).wr MSH_LINK.tx_tbps (mshPage a) 112 i
  s.each [0, 1, 2] fun i s => one (meshPeer d i) (meshLink (meshPeer d i) d) (one d i s)

/-! ### SYSCLK (R40, R45) and PWR_FAULT (R393) -/

/-- Bit `b` of PWR_FAULT is set, and its cause stands. -/
def State.fault (s : State) (f : Fld) (b : Nat) : State :=
  let raised := s.rd f pwrPkgPage == 0
  let s := s.wr f pwrPkgPage 1
  let s := { s with power := { s.power with causes := setBit s.power.causes b true } }
  s.iff raised fun s => s.irq pwrPkgPage 5

/-- The cause of bit `b` of PWR_FAULT has ended. -/
def State.causeEnds (s : State) (b : Nat) : State := { s with power := { s.power with causes := setBit s.power.causes b false } }

/-- SYSCLK_LOSS: forwarding stops and FAULT_N falls (R40, R393); counted on every die (R455). What core_lock, f2f_lock, mem_lock, ctl_lock
and cmb_lock read while their source is lost the spec does not say: they keep their value (DESIGN CHOICE, notes/assumptions/42.md). -/
def sysclkLoss (s : State) : State :=
  if s.flag CLK_REF_STATUS.sysclk_present (clkPage 0) = false then s
  else
    let s := s.each (List.range 4) fun d s => (s.wr CLK_REF_STATUS.sysclk_present (clkPage d) 0).count (clkPage d) evRefLoss
    let s := s.fault PWR_FAULT.sysclk_loss 1
    { s with power := { s.power with stopped := true } }

/-- SYSCLK_RETURN (R45). Forwarding stays stopped until a cold or package warm reset (R40). -/
def sysclkReturn (s : State) : State :=
  if s.flag CLK_REF_STATUS.sysclk_present (clkPage 0) then s
  else
    let s := s.each (List.range 4) fun d s =>
      (s.wr CLK_REF_STATUS.sysclk_present (clkPage d) 1).wr CLK_REF_STATUS.sysclk_lost (clkPage d) 1
    s.causeEnds 1

end Sys2Proof.Machine
end

