-- ==== Sys2Proof/Machine/Security.lean ====
section
/-! DEFINITION. Security: the security region (R420, R421), measurements (R423), quotes (R424), owner keys (R425, R426), protected
tables (R428) and dual control of opcodes (R65, R430, R431). -/

namespace Sys2Proof.Machine

/-! ### The security region (R420) -/

/-- Copy B is the one in use: valid, and copy A is not, or has the lower sequence. -/
def Sec.usesB (x : Sec) : Bool := x.copyB.valid && (!x.copyA.valid || decide (x.copyA.seq < x.copyB.seq))

/-- The copy in use, if one is valid. -/
def Sec.copy? (x : Sec) : Option SecCopy :=
  if x.usesB then some x.copyB else if x.copyA.valid then some x.copyA else none

/-- The sealed part in use is written to the other copy, with the sequence one higher. Without the seal key nothing is written. -/
def State.regionSave (s : State) : State :=
  if s.flag SEC_STATE.identity_ok secPage = false then s
  else
    let x := s.sec
    let seq := (x.copy?.map fun c => c.seq + 1).getD 1
    let c : SecCopy := ⟨true, seq, x.keys, x.active0, x.active1, s.rd SEC_PT_SEQ.table0_seq secPage, s.rd SEC_PT_SEQ.table1_seq secPage,
      s.rd SEC_STATE.sec_floor secPage⟩
    let y := if x.copy?.isSome && !x.usesB then { x with copyB := c } else { x with copyA := c }
    { s with sec := y }.wr SEC_STATE.region_valid secPage 1

/-- Public halves of the owner keys in slots 1 to 15, then the two protected tables, little-endian: what M2 is extended with. -/
def State.sealedBytes (s : State) : List Byte :=
  ((List.range 15).flatMap fun i => natBe 64 (Sparse.get 0 s.sec.keys (i + 1)))
    ++ ((List.range 16).flatMap fun i => natLe 8 (Sparse.get 0 s.sec.active0 i))
    ++ (List.range 4096).flatMap fun i => natLe 8 (Sparse.get 0 s.sec.active1 i)

/-- M2 is extended with the sealed part (R423). -/
def State.measureSealed (s : State) : State := s.extend 2 (sm3 s.sealedBytes)

/-- SEC_STATE.enrolled: bit k says that slot k holds a key. -/
def State.secView (s : State) : State :=
  s.wr SEC_STATE.enrolled secPage ((List.range 16).foldl (fun n k => if Sparse.get 0 s.sec.keys k = 0 then n else n + 2 ^ k) 0)

/-- OWNERSHIP_CHANGE: the owner state follows slot 0: SEC_STATE, the MACsec policy of every port, and on becoming OWNED the end of
every session admitted under an ephemeral key (R426, R48). -/
def State.ownerChange (s : State) : State :=
  if s.flag SEC_STATE.owner_state secPage = s.owned then s
  else
    let own := s.owned
    let s := (s.wr SEC_STATE.owner_state secPage (b2n own)).irq secPage 5
    let s := s.each (List.range 4) fun m s => s.wr MGT_MACSEC_CFG.policy (mgtPage m) (b2n own)
    s.iff own fun s => s.each (List.range 64) fun n s => s.iff (s.session n).ephemeral fun s => s.endSession n

/-- The region chosen at a cold reset is read, or treated as empty (R420, R422). `pufOk` says that the identity key was recovered. -/
def State.regionLoad (s : State) (pufOk : Bool) : State :=
  let s := s.wr SEC_STATE.identity_ok secPage (b2n pufOk)
  let x := s.sec
  let c := if pufOk then x.copy? else none
  let fallback := pufOk && ((x.copyA.valid && !x.copyB.valid && decide (x.copyA.seq < x.copyB.seq))
    || (x.copyB.valid && !x.copyA.valid && decide (x.copyB.seq < x.copyA.seq)))
  let s := (s.wr SEC_STATE.region_valid secPage (b2n c.isSome)).wr SEC_STATE.region_fallback secPage (b2n fallback)
  let s := match c with
    | some c =>
      let s := { s with sec := { s.sec with
        keys := c.keys, active0 := c.table0, shadow0 := c.table0, active1 := c.table1, shadow1 := c.table1 } }
      ((s.wr SEC_PT_SEQ.table0_seq secPage c.seq0).wr SEC_PT_SEQ.table1_seq secPage c.seq1).wr SEC_STATE.sec_floor secPage c.floor
    | none =>
      let s := { s with sec := { s.sec with keys := [], active0 := [], shadow0 := [], active1 := [], shadow1 := [] } }
      ((s.wr SEC_PT_SEQ.table0_seq secPage 0).wr SEC_PT_SEQ.table1_seq secPage 0).wr SEC_STATE.sec_floor secPage 0
  let s := s.secView.wr SEC_STATE.owner_state secPage (b2n s.owned)
  let s := s.each (List.range 4) fun m s => s.wr MGT_MACSEC_CFG.policy (mgtPage m) (b2n s.owned)
  s.iff fallback fun s => s.irq secPage 7

/-- A firmware image is valid: its header holds, and the ROM's root key and its signing key sign it (R401, R419). -/
def FwImage.sound (f : FwImage) : Bool := f.valid && f.rootOk && f.signOk

/-- The floor follows the lower security version once both firmware images are valid, their signatures included (R401); it never falls
(R421). -/
def State.raiseFloor (s : State) : State :=
  let a := s.boot.fwA
  let b := s.boot.fwB
  let v := min a.secVersion b.secVersion
  if a.sound && b.sound && decide (s.rd SEC_STATE.sec_floor secPage < v) then (s.wr SEC_STATE.sec_floor secPage v).regionSave else s

/-! ### Quotes (R424) -/

/-- Bytes 0 to 383 of a quote. -/
def State.quoteBody (s : State) : List Byte :=
  let fw := if s.flag BOOT_STATUS.fw_image bootPage then s.boot.fwB else s.boot.fwA
  natLe 4 0x57585154 ++ natLe 2 1 ++ [byte (s.rd CTL_PKG_ID.stepping ctlPkgPage), byte (s.rd SEC_STATE.owner_state secPage)]
    ++ natLe 8 Config.packageSerial.toNat ++ natLe 8 s.stamp ++ natLe 4 fw.seq
    ++ [byte (s.rd SEC_STATE.fw_sec_version secPage), byte (s.rd SEC_STATE.sec_floor secPage)] ++ natLe 2 (min s.sec.m5Count 65535)
    ++ ((List.range 4).flatMap fun i => natLe 8 (s.rd SEC_QUOTE_NONCE.nonce secPage i))
    ++ ((List.range 8).flatMap fun i => digestBytes (Sparse.get 0 s.sec.meas i)) ++ zeros 64

/-- A quote is requested by session `who` at the offset in SEC_QUOTE_CTRL. -/
def State.quote (s : State) (who : Nat) : State :=
  let a := secPage
  let off := s.rd SEC_QUOTE_CTRL.offset a
  if s.flag SEC_STATE.identity_ok a = false ∨ stagingSize < off + 448 then
    (s.wr SEC_QUOTE_STATUS.fail a 1).wr SEC_QUOTE_STATUS.done a 0
  else
    let b := s.quoteBody
    let sig := (Config.sm2Sign (BitVec.ofNat 256 (sm3 b))).toNat
    let s := s.stage who off (b ++ natBe 64 sig)
    let s := ((s.wr SEC_QUOTE_STATUS.done a 1).wr SEC_QUOTE_STATUS.fail a 0).inc SEC_QUOTE_STATUS.quotes a
    (s.count a 0x83).irq a 4

/-! ### Dual control (R58, R65, R430) -/

/-- The pending items replaced, with SEC_DUAL_STATUS. -/
def State.setDual (s : State) (l : List DualItem) : State :=
  { s with mgmt := { s.mgmt with dual := l } }.wr SEC_DUAL_STATUS.pending secPage l.length

/-- DUAL_DONE or DUAL_TIMEOUT of an item, on its first session's ring where that ring is still enabled (R430). -/
def State.dualEvent (s : State) (x : DualItem) (code sev : Nat) : State :=
  let a := ringBlock x.ring
  s.iff (decide (x.ring < 4096) && s.flag CTL_RING_CFG.enable a) fun s =>
    s.event (s.rd CTL_RING_CFG.event_ring a) code sev (pageCode (ringPage x.ring))
      (if x.page = 0 then x.opcode else pageCode x.page) x.ticket

/-- A new item takes the next ticket; the caller has checked that fewer than 16 are pending. -/
def State.dualAdd (s : State) (x : DualItem) : State :=
  let t := s.mgmt.lastTicket + 1
  let s := { s with mgmt := { s.mgmt with lastTicket := t } }.wr SEC_DUAL_STATUS.last_ticket secPage t
  s.setDual (s.mgmt.dual ++ [{ x with ticket := t }])

/-- An item leaves the list. -/
def State.dualDrop (s : State) (x : DualItem) : State := s.setDual (s.mgmt.dual.filter fun y => y.ticket != x.ticket)

/-- The pending opcode item that descriptor words `d` and `op` would complete. -/
def State.dualOpcode? (s : State) (op : Nat) (d : List Nat) : Option DualItem :=
  s.mgmt.dual.find? fun x => x.page == 0 && x.opcode == op && x.words == d.drop 1

/-- A dual-controlled opcode `op` of ring `r`, fetched as `e` under the credential held then: the first submission takes a ticket, a repeat
under the first credential is counted and ignored, and the second submission performs `act`, which completes it. A record whose digest
differs leaves the item pending (R430). -/
def State.dualSubmit (s : State) (r : Nat) (e : Descriptor) (op digest : Nat) (act : State → State) : State :=
  match s.dualOpcode? op e.d with
  | none =>
    if 16 ≤ s.mgmt.dual.length then s.complete r stBusy 0 0
    else
      let s := s.dualAdd ⟨0, 0, 0, op, e.d.drop 1, digest, e.owner, e.cred.1, e.cred.2, r⟩
      s.complete r stDualPending s.mgmt.lastTicket 0
  | some x =>
    if sameCred x.ephemeral x.cred e.cred.1 e.cred.2 then (s.incSat PG_ERR_COUNT.count (ringPage r)).complete r stDualPending x.ticket 0
    else if x.digest ≠ digest then s.complete r stInvalid 0 0
    else act ((s.dualDrop x).dualEvent x 0x0050 0)

/-- DUAL_TIMEOUT: 60 s after ticket `t` was issued the item ends (R58, R65). -/
def dualTimeout (t : Nat) (s : State) : State :=
  match s.mgmt.dual.find? fun x => x.ticket == t with
  | none => s
  | some x =>
    let s := (s.dualDrop x).dualEvent x 0x0051 1
    s.iff (x.page != 0) fun s => (s.wr PG_STATUS.dual_pending x.page 0).irqDual x.page

/-! ### KEY_ENROL (R425, R426) -/

/-- A key record for slot `k`: the value it gives the slot, 0 to erase it; none where the record is not valid. -/
def keyRecord (k : Nat) (b : List Byte) : Option Nat :=
  let kind := if k = 0 then 1 else 2
  let rest := if k = 0 then slice b 8 64 ++ slice b 104 24 else slice b 72 56
  if leAt b 0 4 = 0x57584B45 ∧ leAt b 4 1 = kind ∧ leAt b 5 3 = 0 ∧ k < 16 ∧ leNat rest = 0 then
    some (if k = 0 then beAt b 72 32 else beAt b 8 64)
  else none

/-- Two valid ADMIN entries of table 0 name slots that hold credential keys (R426). -/
def State.twoAdmins (s : State) : Bool :=
  decide (2 ≤ ((List.range 15).filter fun i =>
    let w := Sparse.get 0 s.sec.active0 (i + 1)
    bit w 63 && bit w 62 && Sparse.get 0 s.sec.keys (i + 1) != 0).length)

/-- The second submission of KEY_ENROL: the status and the state. -/
def State.enrol (s : State) (k len : Nat) (b : List Byte) : Nat × State :=
  if len ≠ 128 then (stInvalid, s)
  else match keyRecord k b with
  | none => (stInvalid, s)
  | some v =>
    if k = 0 ∧ v ≠ 0 ∧ s.owned = false ∧ s.twoAdmins = false then (stInvalid, s)
    else if s.flag SEC_STATE.identity_ok secPage = false then (stHwError, s)
    else
      let keys := if v = 0 then Sparse.del s.sec.keys k else Sparse.set s.sec.keys k v
      let s := { s with sec := { s.sec with keys := keys } }
      let s := ((s.secView.regionSave).measureSealed).count secPage 0x85
      let s := s.iff (v == 0 && k != 0) fun s => s.each (List.range 64) fun n s =>
        s.iff ((s.session n).active && !(s.session n).ephemeral && (s.session n).slot == k) fun s => s.endSession n
      (stOk, s)

/-- KEY_ENROL from ring `r`, fetched as `e`. The policies change only after its completion (R426). -/
def State.opKeyEnrol (s : State) (r : Nat) (e : Descriptor) : State :=
  let d := e.d
  let len := bits (d.getD 3 0) 0 16
  if !stagingOk (d.getD 2 0) len then s.complete r stPermission 0 0
  else
    let b := s.staged e.owner (d.getD 2 0) len
    s.dualSubmit r e 0x072 (sm3 b) fun s =>
      let x := s.enrol (bits (d.getD 1 0) 0 8) len b
      (x.2.complete r x.1 0 0).ownerChange

/-! ### PROTECT_TABLE_COMMIT (R428) -/

/-- The second submission of PROTECT_TABLE_COMMIT of table `t` with sequence `q`: the status and the state. -/
def State.tableCommit (s : State) (t q : Nat) : Nat × State :=
  let a := secPage
  if 2 ≤ t then (stInvalid, s)
  else
    let cur := if t = 0 then s.rd SEC_PT_SEQ.table0_seq a else s.rd SEC_PT_SEQ.table1_seq a
    if q ≤ cur then (stCommitSeq, s)
    else
      let s := if t = 0 then { s with sec := { s.sec with active0 := s.sec.shadow0 } }.wr SEC_PT_SEQ.table0_seq a q
        else { s with sec := { s.sec with active1 := s.sec.shadow1 } }.wr SEC_PT_SEQ.table1_seq a q
      (stOk, s.regionSave.measureSealed)

/-- PROTECT_TABLE_COMMIT from ring `r`, fetched as `e`. -/
def State.opProtectTableCommit (s : State) (r : Nat) (e : Descriptor) : State :=
  s.dualSubmit r e 0x073 0 fun s =>
    let x := s.tableCommit (bits (e.d.getD 1 0) 0 8) (bits (e.d.getD 2 0) 0 32)
    x.2.complete r x.1 0 0

/-- A PROTECT_TABLE_COMMIT of table `t` awaits its second session, so writes to its shadow are discarded (R428). -/
def State.tableLocked (s : State) (t : Nat) : Bool :=
  s.mgmt.dual.any fun x => x.page == 0 && x.opcode == 0x073 && bits (x.words.getD 0 0) 0 8 == t

/-! ### Power cap (R64) -/

/-- POWER_CAP_SET: the status and the state. -/
def State.opPowerCap (s : State) (w : Nat) : Nat × State :=
  if 1500 ≤ w ∧ w ≤ 3000 then (stOk, s.wr PWR_CAP.cap_w pwrPkgPage w) else (stInvalid, s)

/-- POWER_CAP_ABOVE_DEFAULT from ring `r`, fetched as `e`; an operand out of range never becomes pending. -/
def State.opPowerCapAbove (s : State) (r : Nat) (e : Descriptor) : State :=
  let w := bits (e.d.getD 1 0) 0 16
  if 3001 ≤ w ∧ w ≤ 3400 then
    s.dualSubmit r e 0x071 0 fun s => (s.wr PWR_CAP.cap_w pwrPkgPage w).complete r stOk 0 0
  else s.complete r stInvalid 0 0

end Sys2Proof.Machine
end

