-- ==== Sys2Proof/Machine/Held.lean ====
section
/-! DEFINITION. Which register field lies at a place, and what each kind of field does at a reset: R12, R399, R402, R414. -/

namespace Sys2Proof.Machine

/-- Base of the block that holds offset `off` of page `a`, and its fields: the header, the counters, a ring's block (offsets in it
count from the block), or the page's own registers. -/
def blockAt (a off : Nat) : Option (Nat × List Fld) :=
  match blkOfPage a with
  | none => none
  | some b =>
    if off < 0x100 then some (a, Blk.hdr.fields)
    else if 0xF00 ≤ off then some (a, Blk.ctrs.fields)
    else if b = .ctlRing ∨ b = .ctlEvr then
      if (off - 0x100) / 0x70 < 32 then some (a + 0x100 + (off - 0x100) / 0x70 * 0x70, b.fields) else none
    else some (a, b.fields)

/-- A field in a register, with its block and instance. -/
structure Place where
  fld : Fld
  base : Nat
  inst : Nat
  deriving DecidableEq, Repr

/-- The fields of the register at offset `off` of page `a`. -/
def placesAt (a off : Nat) : List Place :=
  match blockAt a off with
  | none => []
  | some (base, fs) => fs.flatMap fun f => (f.instsAt (a + off - base)).map fun i => ⟨f, base, i⟩

/-- The field held under key `k`. -/
def fldOfKey (k : Nat) : Option Fld :=
  let addr := k / 64
  let a := addr / 4096 * 4096
  match blockAt a (addr % 4096) with
  | none => none
  | some (base, fs) => fs.find? fun f => (f.inst? (addr - base) (k % 64)).isSome

/-- The least and the largest value of the fields whose tables mark encodings reserved, by kind of page: 0 beside them where 0 is a value. -/
def Blk.ranges (b : Blk) : List (Fld × Nat × Nat) :=
  match b with
  | .mgtPort => [(MGT_MACSEC_CFG.replay_window, 0, 1024), (MGT_MACSEC_CFG.cipher, 0, 1)]
  | .optPort => [(OPT_PORT_CFG.loopback, 0, 2)]
  | .buf => [(BUF_HOLD_CFG.refresh_ns, 1000, 20000), (BUF_ALPHA.alpha, 0, 10), (BUF_DEEP_CFG.size_gib, 0, 16)]
  | .gal => [(GAL_BANISTER_CFG.ring_treads, 108, 16384), (GAL_HEALTH.health, 0, 8), (GAL_SLOT_CFG.rate_gbps, 0, 800),
      (GAL_RES_CFG.spill_gib, 0, 64), (GAL_RES_CFG.dram_mib, 0, 16384)]
  | .schDie => [(SCH_DIE_CFG.sample_us, 0, 1000)]
  | .schPort => [(SCH_QSHAPE.rate_mbps, 0, 800000), (SCH_POLICER.rate_mbps, 0, 800000), (SCH_GATE_ADMIN_BASE.nanoseconds, 0, 999999999)]
  | .ctlRing => [(CTL_RING_CFG.log2_entries, 0, 10), (CTL_RING_CQ_CFG.log2_entries, 0, 10)]
  | .ctlEvr => [(CTL_EVR_CFG.log2_entries, 0, 10)]
  | .tim => [(TIM_CFG.dom0_mode, 0, 2), (TIM_CFG.dom1_mode, 0, 2), (TIM_PPS_CFG.width_ns, 100, 500000000),
      (TIM_SET_NS.nanoseconds, 0, 999999999)]
  | .pwrPkg => [(PWR_THROTTLE_CFG.hyst_pct, 1, 20), (PWR_THROTTLE_CFG.fault_ms, 1, 1000), (PWR_THROTTLE_CFG.period_us, 10, 1000)]
  | .sec => [(SEC_PT_SEL.table, 0, 1)]
  | .ctlPkg => [(CTL_HEALTH_CFG.reduced_factor, 0, 8)]
  | _ => []

/-- The value that field `f` of a page at `a` takes from a write of `x`: an encoding that its table marks reserved reads as zero (R10), so
the field takes 0 and acts as 0 does (DESIGN CHOICE, notes/assumptions/52.md). -/
def Fld.legal (f : Fld) (a x : Nat) : Nat :=
  let rs := ((blkOfPage a).map Blk.ranges).getD [] ++ [(CTR_SEL.mode, 0, 2)]
  match rs.find? fun e => decide (e.1 = f) with
  | some e => if e.2.1 ≤ x ∧ x ≤ e.2.2 then x else 0
  | none => x

/-- RW fields at offset `off` of a page of kind `b` that are not configured fields (R402): PG_CTRL.read_shadow is named by its bit, and a
counter's count, from 0xF00 to 0xF7F, is volatile, so that a reset leaves it 0 (R414, R463). -/
def notConfigured (b : Blk) (off lo : Nat) : Bool :=
  off == PG_ERR_COUNT.count.off || off == PG_SHADOW_SEQ.shadow_seq.off || off == PG_GUARD.owner.off
    || (off == PG_CTRL.read_shadow.off && lo == PG_CTRL.read_shadow.lo)
    || (isSelector b off && decide (off < 0xF00))
    || (b == .optPort && off == OPT_PORT_CFG.sub_enable.off && lo == OPT_PORT_CFG.sub_enable.lo)
    || ((b == .ctlRing || b == .ctlEvr) && decide (0x100 ≤ off) && decide (off < 0xF00))
    || (b == .grp && decide (GRP_REPL_MAP.ports.off ≤ off) && decide (off < GRP_REPL_MAP.ports.off + 64))
    || (b == .fwd && off == FWD_LEARN_QUEUE.high_water.off && lo == FWD_LEARN_QUEUE.high_water.lo)
    || (decide (0xF00 ≤ off) && decide (off < 0xF80))
    || (b == .tim && (off == TIM_SET_SEC.seconds.off || off == TIM_SET_NS.nanoseconds.off))

/-- The field under key `k` is held in the configuration copy: every RWS and RWP field, every configured field (R402). -/
def heldKey (k : Nat) : Bool :=
  let addr := k / 64
  let a := addr / 4096 * 4096
  match blkOfPage a, fldOfKey k with
  | some b, some f => f.acc == .rws || f.acc == .rwp || (f.acc == .rw && !notConfigured b (addr % 4096) (k % 64))
  | _, _ => false

/-- A configured field: held, and RW (R402). -/
def configuredKey (k : Nat) : Bool := heldKey k && match fldOfKey k with
  | some f => f.acc == .rw
  | none => false

/-- Fields that keep their value at a package warm or die reset: RWS and RWP fields (R414). -/
def stickyKey (k : Nat) : Bool := match fldOfKey k with
  | some f => f.acc == .rws || f.acc == .rwp
  | none => false

/-- Fields that show readings and states a package warm or die reset does not end: sensors, rails, the cap, references, the security
region, the tickets and the index of the error records, which are kept (R12, R397, R414, R420, R430, R436). -/
def keptFlds (b : Blk) : List Fld :=
  match b with
  | .pwrPkg => [PWR_PKG_STATUS.power_w, PWR_PKG_STATUS.current, PWR_PKG_STATUS.vin, PWR_PKG_STATUS.stage_temp, PWR_PKG_STATUS.pwr_ok,
      PWR_CAP.cap_w]
  | .pwrDie => [PWR_RAIL.rail, PWR_DIE_STATUS.hot_temp, PWR_DIE_STATUS.die_power_w]
  | .sec => [SEC_STATE.owner_state, SEC_STATE.enrolled, SEC_STATE.sec_floor, SEC_STATE.fw_sec_version, SEC_STATE.region_fallback,
      SEC_STATE.region_valid, SEC_STATE.identity_ok, SEC_PT_SEQ.table0_seq, SEC_PT_SEQ.table1_seq, SEC_DUAL_STATUS.last_ticket]
  | .optEng => [OPT_ENG_STATUS.laser_ok, OPT_ENG_STATUS.lsm_fault, OPT_ENG_STATUS.temp]
  | .clk => [CLK_REF_STATUS.time_ref_fallback, CLK_REF_STATUS.pps_in_present, CLK_REF_STATUS.time_ref_present,
      CLK_REF_STATUS.serdes_ref_present, CLK_REF_STATUS.sysclk_present]
  | .mgtPort => [MGT_MACSEC_CFG.policy]
  | .ctlPkg => [CTL_ERR_PRODUCER.producer]
  | .boot => [BOOT_STATUS.cfg_image, BOOT_STATUS.cfg_none, BOOT_STATUS.cfg_fallback]
  | _ => []

/-- The field under key `k` keeps its value at a package warm or die reset. -/
def keptKey (k : Nat) : Bool :=
  stickyKey k || match blkOfPage (k / 64 / 4096 * 4096), fldOfKey k with
    | some b, some f => f.acc == .ro && (keptFlds b).contains f
    | _, _ => false

/-- The field under key `k` takes its reset value at a page soft reset: RW and W1C fields, PG_ERR_FIRST, PG_ERR_COUNT, counters,
and the guard (R399). -/
def softKey (k : Nat) : Bool :=
  let off := k / 64 % 4096
  off == PG_ERR_FIRST.code.off || off == PG_ERR_COUNT.count.off || decide (0xF00 ≤ off) || match fldOfKey k with
    | some f => f.acc == .rw || f.acc == .w1c
    | none => false

/-- Register keys of the addresses from `lo` up to `hi`. -/
def keyIn (lo hi k : Nat) : Bool := decide (lo * 64 ≤ k) && decide (k < hi * 64)

/-- The configured fields of the addresses from `lo` up to `hi` take their values from the configuration copy; `all` restores the RWS
and RWP fields too (R402, R414). A field the copy does not list takes its reset value. -/
def State.restoreFields (s : State) (lo hi : Nat) (all : Bool) : State :=
  let want := fun k => keyIn lo hi k && (if all then heldKey k else configuredKey k)
  let s := { s with regs := Sparse.delIf s.regs want }
  s.each (s.boot.copy.fields.filter fun e => want e.1) fun e s => { s with regs := Sparse.set s.regs e.1 e.2 }

/-- The held fields as they stand, for the configuration copy. -/
def State.heldFields (s : State) : Sparse Nat := s.regs.filter fun e => heldKey e.1

end Sys2Proof.Machine
end

