-- ==== Sys2Proof/Machine/Plan.lean ====
section
/-! DEFINITION. The Afelo plan: its image (R408), its checks and its effects (R409, R101, R80), and the configuration copy and its saves
(R402, R403). -/

namespace Sys2Proof.Machine

/-! ### The plan image (R408) -/

def planMagic : Nat := 0x41464C4F

/-- Length of a plan image. -/
def planBytes : Nat := 8256

/-- The port record in 16 bytes. -/
def parseRec (b : List Byte) : PortRec :=
  let p := leAt b 0 8
  ⟨bits p 0 2, bits p 2 2, bits p 4 2, bits p 8 10, bits p 18 1, bits p 19 3, bits p 22 9, bits p 31 9, leAt b 8 8⟩

/-- The plan an image of the right length spells. -/
def parsePlan (b : List Byte) : Plan :=
  ⟨leAt b 6 1, leAt b 7 1, leAt b 8 1, leAt b 9 1, leAt b 10 1, leAt b 12 4, beAt b 16 12, beAt b 32 32,
   (List.range 512).map fun p => parseRec (slice b (64 + 16 * p) 16)⟩

/-! ### Checks (R409) -/

def Plan.port (pl : Plan) (p : Nat) : PortRec := pl.ports.getD p PortRec.unused

/-- A port record by itself and against its partner (R18, R27, R29, R30). -/
def Plan.portOk (pl : Plan) (p : Nat) : Bool :=
  let r := pl.port p
  if r.role = roleDown then decide (r.breakout ≤ 2) && decide (r.leaf ≤ 1022)
  else if r.role = roleGallery then r.breakout == 0 && (groupHall pl.n pl.hall r.group).isSome
  else if r.role = roleBypass then
    r.breakout == 0 && r.partner != p && r.partner / 32 == p / 32 && (pl.port r.partner).role == roleBypass
      && (pl.port r.partner).partner == p
  else r.breakout == 0

/-- At most one DOWN port names a leaf and uplink. -/
def Plan.leavesOk (pl : Plan) : Bool :=
  let ks := ((List.range 512).filter fun p => (pl.port p).role == roleDown).map fun p => 2 * (pl.port p).leaf + (pl.port p).uplink
  decide (ks.eraseDups.length = ks.length)

/-- R17 to R19, R27, R29, R30: what the plan says by itself. -/
def Plan.ok (pl : Plan) : Bool :=
  decide (pl.n ≤ 6) && decide (pl.hall < 2 ^ pl.n) && decide (pl.rail < 4) && decide (pl.spine < 64)
    && ((List.range 7).all fun g => (groupHall pl.n pl.hall g).isNone ||
      (decide (1 ≤ (groupPorts pl g).length) && decide ((groupPorts pl g).length ≤ 128)))
    && ((List.range 512).all pl.portOk) && pl.leavesOk

/-- The plan's headroom and ring queues fit on die `d` (R170, R192): in the SRAM that the other pools leave, and in the deep region in force. -/
def State.planFits (s : State) (pl : Plan) (d : Nat) : Bool :=
  let a := bufPage d
  let ring := ((banisterPorts pl).filter fun p => p / 128 == d).length * 3 * s.rd GAL_BANISTER_CFG.ring_treads (galPage d)
  decide (s.rd BUF_POOL_SIZE.result a + s.rd BUF_POOL_SIZE.request a + s.rd BUF_POOL_SIZE.reply a + planHeadroom pl d false
      ≤ dieTreads)
    && decide (planHeadroom pl d true + ring ≤ deepTreads (Sparse.get 4 s.sw.deepGib d))

/-- The checks of PLAN_LOAD in their order, on the image `b` with D2 `len` and D3 `seq`: a status that refuses it, or the plan. -/
def State.planCheck (s : State) (b : List Byte) (len seq : Nat) : Except Nat Plan :=
  if len ≠ planBytes ∨ leAt b 0 4 ≠ planMagic ∨ leAt b 4 2 ≠ 1 then .error stInvalid
  else
    let pl := parsePlan b
    if sm3 (slice b 0 32 ++ b.drop 64) ≠ pl.digest then .error stDigestFail
    else if seq ≠ pl.seq ∨ (match s.boot.plan with
        | some x => decide (pl.seq ≤ x.seq)
        | none => false) = true then .error stCommitSeq
    else if pl.ok && (List.range 4).all (s.planFits pl) then .ok pl
    else .error stInvalid

/-! ### A plan becomes active -/

/-- sub_enable as firmware writes it from the plan (R409). -/
def PortRec.subMask (r : PortRec) : Nat := if r.role = roleDown ∨ r.role = roleGallery then 2 ^ subCount r.breakout - 1 else 0

/-- A two-way sub-port is compared again at once, its acceptance by command ended where `clear` (R409, R410, R412). -/
def State.recompare (s : State) (l : Nat) (clear : Bool) : State :=
  let x := s.sub l
  if s.isUp l = false then s
  else discoveryCompare l (s.setSub l { x with disc := .unaccepted, holdReason := 0, byCommand := x.byCommand && !clear })

/-- Port `p`, whose record was `old`, under the plan now active: drained into bypass (R101), or taken dark as a whole before it starts
again at step 5 (R80). -/
def State.applyPort (s : State) (old : PortRec) (p : Nat) : State :=
  let r := s.planRec p
  if old = r then s
  else if old.role ≠ r.role ∨ old.breakout ≠ r.breakout then
    let s := s.wr OPT_PORT_CFG.sub_enable (portPage p) r.subMask
    if r.role = roleBypass then s.iff (old.role == roleDown || old.role == roleGallery) fun s => s.bypassDrain p old
    else
      let s := { s with byp := { s.byp with draining := Sparse.del s.byp.draining p } }
      (s.each (lportsOf [p]) fun l s => s.stopSub l (if old.role = r.role then cBreakout else cAdmin) 0x1B .rejoin).portDark p
  else s.each (lportsOf [p]) fun l s => s.recompare l true

/-- The ring queues of each die take the size that ring_treads gives now (R192). -/
def State.reserveRings (s : State) : State :=
  { s with sw := { s.sw with ringTreads := (List.range 4).map fun d => (d, s.rd GAL_BANISTER_CFG.ring_treads (galPage d)) } }

/-- The plan record in force: in the device and in the active configuration copy, measured in M4 (R402, R423). -/
def State.setPlan (s : State) (pl : Plan) : State :=
  let s := { s with boot := { s.boot with plan := some pl, copy := { s.boot.copy with plan := some pl } } }
  ((s.extend 4 pl.digest).wr BOOT_STATUS.plan_none bootPage 0).reserveRings

/-- The fields of the plan whose change sets every port back (R409). -/
def Plan.place (pl : Plan) : List Nat := [pl.pfx, pl.n, pl.hall, pl.rail, pl.spine, pl.plane]

/-- PLAN_ACTIVATE: an accepted plan acts on the ports, on discovery, on the tables, and on the circuits (R109, R409). -/
def State.activatePlan (s : State) (pl : Plan) : State :=
  let old := s.boot.plan
  let s := s.setPlan pl
  let s := s.each (List.range 512) fun p s => s.applyPort ((old.map fun x => x.port p).getD PortRec.unused) p
  let s := s.each (List.range 4) fun d s => s.pfcAll d
  let moved := match old with
    | some x => decide (x.place ≠ pl.place)
    | none => false
  let s := s.iff moved fun s =>
    (s.each (List.range 2048) fun l s => s.iff (s.isUp l) fun s =>
      s.setSub l { s.sub l with disc := .unaccepted, holdReason := 0 }).dropDynamic
  s.each (List.range 16) fun e s => s.reconcile e

/-- Firmware derives table `t` and drains it for the PLAN_LOAD of ring `r`; behind a drain in progress on the table it waits. -/
def State.planDrain (s : State) (pl : Plan) (r t : Nat) : State :=
  let busy := s.sw.drains.any fun d => d.table == t
  let s := if busy then s else s.deriveTable pl t
  let x := s.drainRequest t (s.routeSeq t + 1) (planRing + r)
  match x.1 with
  | some _ => x.2
  | none => x.2

/-- PLAN_LOAD from ring `r`, session `n`: a status, or none while its drains run (R409). -/
def State.opPlanLoad (s : State) (r n : Nat) (d : List Nat) : Option Nat × State :=
  let len := bits (d.getD 2 0) 0 32
  if !stagingOk (d.getD 1 0) len then (some stPermission, s)
  else if (List.range 4).any s.dieAway then (some stBusy, s)
  else match s.planCheck (s.staged n (d.getD 1 0) (min len planBytes)) len (bits (d.getD 3 0) 0 32) with
    | .error st => (some st, s)
    | .ok pl =>
      let s := ((s.activatePlan pl).planDrain pl r 2).planDrain pl r 3
      if s.sw.drains.any fun x => x.ring == planRing + r then (none, s) else (some stOk, s)

/-- At a boot the banks are derived from the plan and made active, each by a drain, which finds every queue empty (R154, R404, R406). -/
def State.bootRoutes (s : State) (pl : Plan) : State :=
  s.each [2, 3] fun t s =>
    let s := s.deriveTable pl t
    routeDrainQueuesEmpty t (s.drainRequest t (s.routeSeq t + 1) 0x1000).2

/-! ### Saves (R403) -/

/-- The active configuration copy with the current value of every item. -/
def State.captured (s : State) : CfgCopy :=
  let c := s.boot.copy
  { c with
    seq := c.seq + 1
    digest := s.freeWide 4
    plan := s.boot.plan
    fields := s.heldFields
    statics := (s.tables.ep.filter fun e => e.1 / 2 ^ 19 == 0 && e.2.static).map fun e => e.2
    lpm := s.tables.lpm.map fun e => e.2
    circuits := (List.range 16).flatMap fun e => (s.circuits e).map fun x => (e, x.1, x.2)
    counts := s.byp.counts }

/-- The inactive image is B: the invalid one, or the one with the lower sequence; A where both are invalid. -/
def Boot.inactiveB (b : Boot) : Bool :=
  if b.cfgA.valid then !b.cfgB.valid || decide (b.cfgB.copy.seq ≤ b.cfgA.copy.seq) else false

/-- BOOT_VALID and BOOT_CFG_SEQ for the configuration images, and BOOT_SAVE.active_seq. -/
def State.cfgView (s : State) : State :=
  let a := s.boot.cfgA
  let b := s.boot.cfgB
  let p := bootPage
  let s := (s.wr BOOT_VALID.cfg_a p (b2n a.valid)).wr BOOT_VALID.cfg_b p (b2n b.valid)
  let s := (s.wr BOOT_CFG_SEQ.a_seq p (if a.valid then a.copy.seq else 0)).wr BOOT_CFG_SEQ.b_seq p (if b.valid then b.copy.seq else 0)
  s.wr BOOT_SAVE.active_seq p s.boot.copy.seq

/-- Number that stands for the ring in a save without a command. -/
def ownSave : Nat := 0x1000

/-- The oldest command of ring `r` is a CONFIG_SAVE, allowed and not yet answered. -/
def State.saveAsked (s : State) (r : Nat) : Bool := match (s.ring r).inflight with
  | e :: _ => bits (e.d.getD 0 0) 52 12 == 0x061 && e.allowed && !e.bad
  | [] => false

/-- A save starts for `r`: the image it writes is no longer whole (R403, R415). -/
def State.saveBegin (s : State) (r : Nat) : State :=
  let b := s.boot
  let side := b.inactiveB
  let b := if side then { b with cfgB := { b.cfgB with valid := false } } else { b with cfgA := { b.cfgA with valid := false } }
  { s with boot := { b with writing := some (side, r), saveDue := b.saveDue && r != ownSave } }.cfgView

/-- The save that is due starts, while firmware runs and none is in progress: firmware's own, or that of the first ring that asks. One whose
command is gone ends, its image left as it is (R403, R415). -/
def State.saveStep (s : State) : State :=
  match s.boot.writing with
  | some (_, r) => if r = ownSave ∨ s.saveAsked r = true then s else { s with boot := { s.boot with writing := none } }
  | none =>
    if s.boot.cores = 0 ∨ s.boot.copy.seq = 0xFFFFFFFF then s
    else if s.boot.saveDue then s.saveBegin ownSave
    else match s.mgmt.rings.find? fun e => s.saveAsked e.1 with
      | some e => s.saveBegin e.1
      | none => s

/-- A save waits for the one in progress (R403, R416). -/
def State.savePending (s : State) : Bool := match s.boot.writing with
  | some (_, r) => s.boot.saveDue || s.mgmt.rings.any fun e => e.1 != r && s.saveAsked e.1
  | none => false

/-- No save but one for `r` is in progress. -/
def State.saveFree (s : State) (r : Nat) : Bool := match s.boot.writing with
  | some (_, k) => k == r
  | none => true

/-- The image that a save writes: the one it has begun to write, otherwise the inactive one; true for B. -/
def Boot.saveSide (b : Boot) : Bool := match b.writing with
  | some (x, _) => x
  | none => b.inactiveB

/-- A save ends: the copy is captured and written to its image; `good` says that it reads back. The digest of the image depends on
the order of its records, which the spec leaves open, so it is a free value. The status and the state. -/
def State.save (s : State) (good : Bool) : Nat × State :=
  if s.boot.copy.seq = 0xFFFFFFFF then (stInvalid, s)
  else
    let c := s.captured
    let s := s.tickFree 4
    let b := { s.boot with copy := c, writing := none }
    let b := if s.boot.saveSide then { b with cfgB := ⟨good, c⟩ } else { b with cfgA := ⟨good, c⟩ }
    let s := { s with boot := b }.cfgView
    if good then (stOk, ((s.inc BOOT_SAVE.saves bootPage).count bootPage 0x80).irq bootPage 4)
    else (stHwError, s.irq bootPage 5)

/-- CONFIG_SAVE_AUTO: firmware's save without a command, after a switching or a retirement, ends (R403, R442). -/
def configSaveAuto (good : Bool) (s : State) : State :=
  let begun := s.boot.writing.any fun w => w.2 == ownSave
  if (s.boot.saveDue = false ∧ begun = false) ∨ s.boot.cores = 0 ∨ s.saveFree ownSave = false then s
  else ({ s with boot := { s.boot with saveDue := s.boot.saveDue && begun } }.save good).2

end Sys2Proof.Machine
end

