-- ==== Sys2Proof/Machine/Lowpower.lean ====
section
/-! DEFINITION. What resets and low-power states share: clocks, LPDDR6 training (R360), memory regions (R353, R359), reloading a die's
tables (R389, R407); cluster gates (R388), die standby (R389) and package standby (R390). -/

namespace Sys2Proof.Machine

/-! ### CK_CMB and VCMB (R42, R391, R392) -/

/-- Notches of the package, 0 to 40: array, then clock, then admission. -/
def State.pkgNotch (s : State) : Nat :=
  (16 - s.rd PWR_THROTTLE.array_ratio pwrPkgPage) + s.rd PWR_THROTTLE.cmb_notch pwrPkgPage + (8 - s.rd PWR_THROTTLE.admission pwrPkgPage)

/-- CK_CMB at notch `n` in MHz: notches 9 to 32 lower it by 50 MHz each. -/
def cmbMhz (n : Nat) : Nat := 2000 - 50 * min 24 (n - 8)

/-- Rail voltages in 10 mV: VAON, VCORE, VSRAM, VCMB at 2.0 GHz, VF2F, VSERDES, VOPT, VIO. -/
def railNominal : List Nat := [80, 75, 80, 85, 80, 75, 180, 180]

/-- VCMB of die `d`, lowest cluster, in 10 mV: 0 with a cluster gated; at its ends with CK_CMB; between them it tracks CK_CMB in a way
the spec does not give, so it is free within its range. A stage that holds its last setpoints moves no rail (R384). -/
def State.vcmbTrack (s : State) (d : Nat) : State :=
  if s.power.held then s else
  let f := s.rd CLK_CMB_FREQ.mhz (clkPage d)
  let v := if 2000 ≤ f then 85 else if f ≤ 800 then 60 else 60 + s.free % 26
  let s := { s.tickFree with power := { s.power with vcmb := Sparse.set s.power.vcmb d v } }
  s.wr PWR_RAIL.rail (pwrDiePage d) (if s.rd PWR_DIE_STATUS.gated (pwrDiePage d) ≠ 0 then 0 else v) 3

/-- CK_CMB_CHANGE: the clusters of die `d` run at the higher of the package's and the die's notch (R392). -/
def State.clockTrack (s : State) (d : Nat) : State :=
  let f := cmbMhz (max s.pkgNotch (s.rd PWR_DIE_STATUS.thermal_notch (pwrDiePage d)))
  if s.rd CLK_CMB_FREQ.mhz (clkPage d) = f then s
  else
    let was := s.rd CLK_CMB_FREQ.mhz (clkPage d)
    (s.each [0, 1, 2, 3] fun c s => (s.wr CLK_CMB_FREQ.mhz (clkPage d) f c).count (clkPage d) 0x81 c ((f - was + (was - f)) / 50)).vcmbTrack d

/-! ### Clocks and memories -/

/-- The PLLs of die `d` that need SYSCLK lock, its CK_CMB at the notches that stand; the management SerDes lock with their reference
(R41, R44, R404). -/
def State.clockUp (s : State) (d : Nat) : State :=
  let a := clkPage d
  let s := s.each [CLK_PLL_LOCK.time_lock, CLK_PLL_LOCK.mem_lock, CLK_PLL_LOCK.f2f_lock, CLK_PLL_LOCK.cmb_lock, CLK_PLL_LOCK.core_lock] fun f s =>
    s.wr f a 1
  let s := s.iff (d == 0) fun s => s.wr CLK_PLL_LOCK.ctl_lock a 1
  let s := s.iff (decide (d = 0 ∨ d = 3) && s.flag CLK_REF_STATUS.serdes_ref_present a) fun s => s.wr CLK_PLL_LOCK.mgt_lock a 1
  (s.clockTrack d).vcmbTrack d

/-- Rails of a die that standby takes down beside VCMB: VCORE, VSRAM, VSERDES and VOPT. VAON, and what self-refresh needs, VF2F and VIO, stay
(R387; DEDUCED, notes/assumptions/66.md). -/
def standbyRails : List Nat := [1, 2, 5, 6]

/-- The clocks of die `d` stop. -/
def State.clockDown (s : State) (d : Nat) : State :=
  s.each [CLK_PLL_LOCK.time_lock, CLK_PLL_LOCK.mem_lock, CLK_PLL_LOCK.f2f_lock, CLK_PLL_LOCK.cmb_lock, CLK_PLL_LOCK.core_lock,
    CLK_PLL_LOCK.lane_tx_lock, CLK_PLL_LOCK.mgt_lock] fun f s => s.wr f (clkPage d) 0

/-- LPDDR6_TRAINING of die `d`: its six channels train, or fail, as `oks` says (R360). A failure takes the die's LPDDR6 out of use.
The spec bounds the duration, by `most` µs, and gives none, so it is free. -/
def State.train (s : State) (d : Nat) (oks : List Bool) (most : Nat) : State :=
  let bad := oks.any fun b => !b
  let s := s.each [0, 1, 2] fun i s =>
    let a := memPage (3 * d + i)
    let x := oks.getD (2 * i) true
    let y := oks.getD (2 * i + 1) true
    let s := ((s.wr MEM_STATUS.ch0_trained a (b2n x)).wr MEM_STATUS.ch1_trained a (b2n y)).wr MEM_STATUS.self_refresh a 0
    let s := (s.wr MEM_STATUS.unused a (b2n bad)).wr MEM_TRAIN.last_us a (min (s.free % (most + 1)) 65535)
    let s := s.tickFree
    (s.incSat MEM_TRAIN.fails a (b2n (!x) + b2n (!y))).iff (!x || !y) fun s => s.irq a 6
  { s with boot := { s.boot with lpUnused := setBit s.boot.lpUnused d bad, trainTemp := Sparse.delIf s.boot.trainTemp fun n => n / 3 == d } }

/-- The LPDDR6 devices of die `d` enter self-refresh. -/
def State.selfRefresh (s : State) (d : Nat) : State :=
  s.each [0, 1, 2] fun i s => s.wr MEM_STATUS.self_refresh (memPage (3 * d + i)) 1

/-- The regions of die `d`'s bonded DRAM and the spill region take the sizes that their registers give (R353, R359). -/
def State.applyRegions (s : State) (d : Nat) : State :=
  let a := f2fPage d
  let deep := s.rd BUF_DEEP_CFG.size_gib (bufPage d)
  let want := s.rd GAL_RES_CFG.dram_mib (galPage d)
  let room := 21504 - 1024 * deep
  let s := ((s.wr F2F_REGION.deep_gib a deep).wr F2F_REGION.res_mib a (min want room)).wr F2F_REGION.clipped a (b2n (decide (room < want)))
  let s := { s with sw := { s.sw with deepGib := Sparse.set s.sw.deepGib d deep },
                    coll := { s.coll with spillGib := Sparse.set s.coll.spillGib d (s.rd GAL_RES_CFG.spill_gib (galPage d)) } }
  s.iff (decide (room < want)) fun s => (s.pageError a 0x0009 0xFF (offDetail F2F_REGION.clipped.off)).irq a 6

/-- Die `d` takes die 0's copies of the endpoint table and of the replication sets, and with them the counters and sequences that its
page shows (R389, R407). The other tables are held alike. -/
def State.reloadCopies (s : State) (d : Nat) : State :=
  let ep := Sparse.delIf s.tables.ep fun k => k / 2 ^ 19 == d
  let rp := Sparse.delIf s.coll.repl fun k => k / 16384 == d
  let s := { s with tables := { s.tables with ep := ep }, coll := { s.coll with repl := rp } }
  let s := s.each (ep.filter fun e => e.1 / 2 ^ 19 == 0).reverse fun e s =>
    { s with tables := { s.tables with ep := Sparse.set s.tables.ep (d * 2 ^ 19 + e.1) e.2 } }
  let s := s.each (rp.filter fun e => e.1 / 16384 == 0).reverse fun e s =>
    { s with coll := { s.coll with repl := Sparse.set s.coll.repl (d * 16384 + e.1) e.2 } }
  let s := s.wr FWD_LPM_STATUS.entries (fwdPage d) s.tables.lpm.length
  let s := (s.wr FWD_UR_SEQ.active_bank (fwdPage d) (s.routeBank 2)).wr FWD_UR_SEQ.active_seq (fwdPage d) (s.routeSeq 2)
  let s := (s.wr FWD_GR_SEQ.active_bank (fwdPage d) (s.routeBank 3)).wr FWD_GR_SEQ.active_seq (fwdPage d) (s.routeSeq 3)
  s.wr FWD_EP_STAMP.insert_counter (fwdPage d) (s.insertCount 0)

/-! ### Cluster gate (R388) -/

/-- No landing uses core `c`. -/
def State.coreFree (s : State) (c : Nat) : Bool := !s.coll.dir.any fun e => e.landings.any fun l => l.core == c

/-- The array of core `c` is at a pass boundary with nothing left to do. -/
def State.arrayIdle (s : State) (c : Nat) : Bool :=
  let x := (s.core c).array
  x.queue.isEmpty && decide (x.bank0.state = .free) && decide (x.bank1.state = .free)

/-- Both cores of cluster `c` of die `d` are free and at their pass boundary. -/
def State.clusterIdle (s : State) (d c : Nat) : Bool :=
  let k := 8 * d + 2 * c
  s.coreFree k && s.coreFree (k + 1) && s.arrayIdle k && s.arrayIdle (k + 1)

/-- VCMB may leave cluster `c` of die `d` now: it is idle, and the stage takes new setpoints (R384, R388). -/
def State.mayGate (s : State) (d c : Nat) : Bool := s.clusterIdle d c && !s.power.held

/-- Cluster `c` of die `d` is asked to leave service: by its gate bit, or by a standby that has begun. -/
def State.gateAsked (s : State) (d c : Nat) : Bool :=
  bit (s.rd PWR_DIE_CTRL.gate_mask (pwrDiePage d)) c || s.rd PWR_DIE_STATUS.state (pwrDiePage d) == 1
    || (d == 0 && s.flag PWR_PKG_CTRL.standby_req pwrPkgPage)

/-- VCMB leaves the cluster: its arrays stop. -/
def State.gateOff (s : State) (d c : Nat) : State :=
  let a := pwrDiePage d
  let s := (s.wr PWR_DIE_STATUS.gated a (Nat.lor (s.rd PWR_DIE_STATUS.gated a) (2 ^ c))).vcmbTrack d
  s.each [8 * d + 2 * c, 8 * d + 2 * c + 1] fun k s =>
    let x := s.core k
    (s.setCore k { x with array := { x.array with gapAt := none } }).wr ARR_STATUS.duty (arrPage k) 0

/-- The cluster is in service again, its arrays at duty 0. -/
def State.gateOn (s : State) (d c : Nat) : State :=
  let a := pwrDiePage d
  if bit (s.rd PWR_DIE_STATUS.gated a) c = false then s
  else
    let s := (s.wr PWR_DIE_STATUS.gated a (s.rd PWR_DIE_STATUS.gated a - 2 ^ c)).vcmbTrack d
    s.each [8 * d + 2 * c, 8 * d + 2 * c + 1] fun k s =>
      let x := s.core k
      (s.setCore k { x with array := { x.array with gapAt := some s.now } }).wr ARR_STATUS.duty (arrPage k) 0

/-- A write of gate_mask on die `d`: clusters whose bit has become 0 return to service; the others leave it as they become idle. -/
def State.gateWrite (s : State) (d : Nat) : State :=
  s.each [0, 1, 2, 3] fun c s => s.iff (!s.gateAsked d c && s.rd PWR_DIE_STATUS.state (pwrDiePage d) == 0) fun s => s.gateOn d c

/-! ### Standby (R389, R390) -/

/-- The sub-ports of die `d` send local fault and go dark (R91). The table of R88 has no cause for a standby: an UP one goes down with
ADMIN (DESIGN CHOICE, notes/assumptions/55.md). -/
def State.portsDark (s : State) (d : Nat) : State :=
  s.each (lportsOf ((List.range 128).map fun q => 128 * d + q)) fun l s => s.stopSub l cAdmin 0x1B .stay

/-- Die standby is asked of die `d`: refused on die 0 with STANDBY_DIE0. -/
def State.standbyBegin (s : State) (d : Nat) : State :=
  let a := pwrDiePage d
  if d = 0 then s.pageError a 0x000A 0xFF (offDetail PWR_DIE_CTRL.standby_req.off)
  else if s.rd PWR_DIE_STATUS.state a = 1 ∨ s.rd PWR_DIE_STATUS.state a = 2 then s
  else (s.wr PWR_DIE_STATUS.state a 1).portsDark d

/-- The management ports M2 and M3 go dark and their queue pairs are lost, and with them the sessions that had no other. -/
def State.mgtDark (s : State) : State :=
  s.each [2, 3] fun m s =>
    let a := mgtPage m
    let s := (s.wr MGT_PORT_STATUS.link_up a 0).wr MGT_PORT_STATUS.training a 0
    (s.wr MGT_MACSEC_STATUS.mka_live a 0).loseQps m

/-- M2 and M3, where a standby has made them dark, train again. -/
def State.mgtTrain (s : State) : State :=
  s.each [2, 3] fun m s =>
    let a := mgtPage m
    s.iff (!s.flag MGT_PORT_STATUS.link_up a) fun s => s.wr MGT_PORT_STATUS.training a 1

/-- A die that is entering standby with its clusters gated, its entries ended, its frames gone, its ports dark and no switching in progress
is in standby: its memories are in self-refresh, its engines, clocks and rails stop, and with die 3 the management ports M2 and M3. -/
def State.standbyEnd (s : State) (d : Nat) : State :=
  let a := pwrDiePage d
  let open_ := s.coll.dir.any fun e => e.tomb.isNone && e.key.home == d
  let busy := [4 * d, 4 * d + 1, 4 * d + 2, 4 * d + 3].any fun e => s.switching e
  if busy = false ∧ s.rd PWR_DIE_STATUS.state a = 1 ∧ s.rd PWR_DIE_STATUS.gated a = 15 ∧ open_ = false
      ∧ (s.sw.frames.any fun f => f.2.die == d) = false ∧ (s.subs.any fun e => e.1 / 512 == d && decide (e.2.tx ≠ .dark)) = false then
    let s := (s.wr PWR_DIE_STATUS.state a 2).selfRefresh d
    let s := s.each [4 * d, 4 * d + 1, 4 * d + 2, 4 * d + 3] fun e s => s.setCal e calIdle
    let s := (s.clockDown d).each standbyRails fun i s => s.wr PWR_RAIL.rail a 0 i
    (s.iff (d == 3) State.mgtDark).irq pwrPkgPage 7
  else s

/-- The package is in standby once dies 1 to 3 are and die 0's clusters are gated. -/
def State.pkgStandbyEnd (s : State) : State :=
  if s.flag PWR_PKG_CTRL.standby_req pwrPkgPage && !s.flag PWR_PKG_STATUS.pkg_standby pwrPkgPage
      && ([1, 2, 3].all fun d => s.rd PWR_DIE_STATUS.state (pwrDiePage d) == 2) && s.rd PWR_DIE_STATUS.gated (pwrDiePage 0) == 15 then
    (s.wr PWR_PKG_STATUS.pkg_standby pwrPkgPage 1).irq pwrPkgPage 7
  else s

/-- Everything of gating and standby that can complete now. -/
def State.standbyStep (s : State) : State :=
  let s := s.each (List.range 16) fun e s => s.lasersOff e
  let s := s.each [0, 1, 2, 3] fun d s => s.each [0, 1, 2, 3] fun c s =>
    s.iff (s.rd PWR_DIE_STATUS.state (pwrDiePage d) == 1 || (d == 0 && s.flag PWR_PKG_CTRL.standby_req pwrPkgPage)) fun s =>
      s.iff (!bit (s.rd PWR_DIE_STATUS.gated (pwrDiePage d)) c && s.mayGate d c) fun s => s.gateOff d c
  (s.each [1, 2, 3] fun d s => s.standbyEnd d).pkgStandbyEnd

/-- CLUSTER_GATE_COMPLETE: the cluster's landings are FREE and its arrays at their boundary (R388). -/
def clusterGateComplete (d c : Nat) (s : State) : State :=
  if s.gateAsked d c ∧ s.mayGate d c then (s.gateOff d c).standbyStep else s

/-- The idle engines of die `d` start again, and its ports follow. -/
def State.enginesUp (s : State) (d : Nat) : State :=
  let s := s.each [4 * d, 4 * d + 1, 4 * d + 2, 4 * d + 3] fun e s => engineBringup e s
  s.each ((List.range 128).map fun q => 128 * d + q) fun p s => s.startPort p

/-- Die `d` leaves standby: its LPDDR6 retrains, its tables come from die 0's copies, its clusters return except those gated by mask,
and its engines and ports start; with die 3, M2 and M3. A die that was still entering has lost nothing but its ports. -/
def State.standbyExit (s : State) (d : Nat) (oks : List Bool) : State :=
  let a := pwrDiePage d
  if s.rd PWR_DIE_STATUS.state a = 0 then s
  else
    let s := s.iff (s.flag MEM_STATUS.self_refresh (memPage (3 * d))) fun s =>
      let s := s.each standbyRails fun i s => s.wr PWR_RAIL.rail a (railNominal.getD i 0) i
      (((s.clockUp d).train d oks 20000).reloadCopies d)
    let s := (s.serdesLock d).iff (d == 3) State.mgtTrain
    ((s.wr PWR_DIE_STATUS.state a 0).gateWrite d).enginesUp d

/-- A change of PWR_DIE_CTRL.standby_req to `v` on die `d`: entry begins, or the die is leaving. -/
def State.standbyWrite (s : State) (d : Nat) (v : Bool) : State :=
  let a := pwrDiePage d
  if v then (s.standbyBegin d).standbyStep
  else s.iff (s.rd PWR_DIE_STATUS.state a != 0 && !s.flag PWR_PKG_CTRL.standby_req pwrPkgPage) fun s => s.wr PWR_DIE_STATUS.state a 3

/-- Package standby is asked for (R390): dies 1 to 3 enter standby, and die 0's ports and M2 and M3 stop. -/
def State.pkgStandbyBegin (s : State) : State :=
  ((s.each [1, 2, 3] fun d s => s.standbyBegin d).portsDark 0).mgtDark.standbyStep

/-- The package leaves standby: dies 1 to 3 leave it unless their own request stands, and every engine whose lasers are off
restarts from step 3. M2 and M3 come back with die 3. -/
def State.pkgStandbyExit (s : State) (trained : List Bool) : State :=
  let s := s.wr PWR_PKG_STATUS.pkg_standby pwrPkgPage 0
  let s := s.each [1, 2, 3] fun d s =>
    s.iff (!s.flag PWR_DIE_CTRL.standby_req (pwrDiePage d)) fun s => s.standbyExit d ((trained.drop (6 * d)).take 6)
  (s.gateWrite 0).enginesUp 0

end Sys2Proof.Machine
end

