-- ==== Sys2Proof/Machine/Reset.lean ====
section
/-! DEFINITION. Resets: cold boot (R397, R404, R405), package warm reset (R406), die reset (R398, R407), page soft reset (R399) and port
reset (R397), with what each keeps (R414). -/

namespace Sys2Proof.Machine

/-! ### What is lost with power -/

/-- Readings of the 48 V side and the rails outlast the logic side, not the states it reports of itself (R12); PWR_FAULT, with `faults`,
until the next cold reset. -/
def coldKept (faults : Bool) (k : Nat) : Bool :=
  let addr := k / 64
  ([PWR_PKG_STATUS.power_w, PWR_PKG_STATUS.current, PWR_PKG_STATUS.vin, PWR_PKG_STATUS.stage_temp, PWR_PKG_STATUS.pwr_ok].any fun f =>
      k == f.key pwrPkgPage 0)
    || (faults && addr == pwrPkgPage + PWR_FAULT.boot_mem.off)
    || ((List.range 4).any fun d => addr == pwrDiePage d + PWR_RAIL.rail.off)

/-- Everything that PWR_OK low loses is at its reset value: flash, cells, fabric paths and the modules' outputs stay (R107, R386, R414). -/
def State.wipe (s : State) (faults : Bool) : State :=
  { State.reset with
    pending := s.pending
    out := s.out
    now := s.now
    freeCtr := s.freeCtr
    regs := s.regs.filter fun e => coldKept faults e.1
    power := { s.power with stopped := false, causes := if faults then s.power.causes else 0 }
    boot := { Boot.fresh s.boot.fwA s.boot.fwB s.boot.cfgA s.boot.cfgB s.boot.headerDigest with startedAt := s.boot.startedAt }
    sec := Sec.fresh s.sec.copyA s.sec.copyB
    modules := Sparse.mapv s.modules fun _ m => { Module.absent with outEn := m.outEn }
    byp := { s.byp with queue := [], hot := [], draining := [], drift := [], counts := [] } }

/-! ### Firmware image (R401, R419) -/

/-- The ROM accepts a firmware image: valid, signed, and not below the floor or its key's lowest version. -/
def FwImage.accepted (f : FwImage) (floor : Nat) : Bool :=
  f.sound && decide (floor ≤ f.secVersion) && decide (f.secLowest ≤ f.secVersion)

/-- The firmware image the ROM chooses, with whether it is B: of two, the one with the higher sequence, A when equal. -/
def State.chooseFw (s : State) : Option (Bool × FwImage) :=
  let fl := s.rd SEC_STATE.sec_floor secPage
  let a := s.boot.fwA
  let b := s.boot.fwB
  if b.accepted fl && (!a.accepted fl || decide (a.seq < b.seq)) then some (true, b)
  else if a.accepted fl then some (false, a) else none

/-- The configuration image the device uses, with whether it is B (R401). -/
def Boot.chooseCfg (b : Boot) : Option (Bool × CfgCopy) :=
  if b.cfgB.valid && (!b.cfgA.valid || decide (b.cfgA.copy.seq < b.cfgB.copy.seq)) then some (true, b.cfgB.copy)
  else if b.cfgA.valid then some (false, b.cfgA.copy) else none

/-- The image with the higher sequence is not valid. -/
def Boot.cfgFallback (b : Boot) : Bool :=
  (b.cfgA.valid && !b.cfgB.valid && decide (b.cfgA.copy.seq < b.cfgB.copy.seq))
    || (b.cfgB.valid && !b.cfgA.valid && decide (b.cfgB.copy.seq < b.cfgA.copy.seq))

def State.setStage (s : State) (v : Nat) : State := s.wr BOOT_STATUS.stage bootPage v

/-! ### Held fields and what follows from them -/

/-- Pages of the package. -/
def allPages : List Nat := (List.range 4).flatMap diePages ++ pkgPages

/-- Pages are initialised. -/
def State.readyPages (s : State) (ps : List Nat) : State := s.each ps fun a s => s.wr PG_STATUS.ready a 1

/-- The domains of the time base start in ACQUIRE, or are free, by their mode (R374). -/
def State.startDomains (s : State) : State :=
  s.each [0, 1] fun n s => s.setDomState n (if s.domMode n = 0 then 3 else 0)

/-- The link-local address of a MAC (RFC 4291). -/
def linkLocal (mac : Nat) : Nat := 0xFE80 * 2 ^ 112 + (Nat.xor (mac / 2 ^ 24) 0x020000 * 2 ^ 16 + 0xFFFE) * 2 ^ 24 + mac % 2 ^ 24

/-- Without a configuration image M0 to M3 take addresses formed from the serial (R405). How they are formed is not given: a constant of the device. -/
def State.bareIdentity (s : State) : State :=
  let macs := (List.range 4).map fun i => (Config.serialMac i).toNat
  let id : Identity := { Identity.none with mgtMacs := macs, mgtAddrs := macs.map linkLocal }
  { s with boot := { s.boot with copy := { CfgCopy.none with identity := id } } }

/-- CONFIG_COPY_LOAD: the copy is taken from the chosen flash image (R401, R402, R405). -/
def State.loadCopy (s : State) : State :=
  let p := bootPage
  let s := match s.boot.chooseCfg with
    | some (b, c) => { s with boot := { s.boot with copy := c } }.wr BOOT_STATUS.cfg_image p (b2n b)
    | none => s.bareIdentity.wr BOOT_STATUS.cfg_none p 1
  (s.wr BOOT_STATUS.cfg_fallback p (b2n s.boot.cfgFallback)).iff s.boot.cfgFallback fun s => s.irq p 6

/-- Static and LPM entries of the copy are inserted. -/
def State.insertHeld (s : State) : State :=
  let s := s.each s.boot.copy.statics fun e s => (s.epInsert { e with static := true, hit := false, stale := false }).getD s
  s.each s.boot.copy.lpm fun e s => s.lpmInsert e.addr e.len e.value

/-- sub_enable follows the plan on the ports of a list, and their sub-ports start (R409). -/
def State.planPorts (s : State) (ps : List Nat) : State :=
  s.each ps fun p s => (s.wr OPT_PORT_CFG.sub_enable (portPage p) (s.planRec p).subMask).startPort p

/-- Standby requests that a restore brings back act at once; gate bits act as clusters become idle. -/
def State.requestsAct (s : State) (ds : List Nat) : State :=
  let s := s.each ds fun d s => s.iff (s.flag PWR_DIE_CTRL.standby_req (pwrDiePage d)) fun s => s.standbyWrite d true
  (s.iff (s.flag PWR_PKG_CTRL.standby_req pwrPkgPage && !s.flag PWR_PKG_STATUS.pkg_standby pwrPkgPage) fun s => s.pkgStandbyBegin).standbyStep

/-- The flight images that the slots hold extend M5 again, by core and slot (R406, R423). -/
def State.measureSlots (s : State) : State :=
  s.each (s.cores.flatMap fun e => e.2.slots.map fun x => (e.1, x.1, x.2.words)) fun x s =>
    let s := s.extend 5 (sm3 (x.2.2.flatMap (natLe 4) ++ natLe 4 (x.1 + 256 * x.2.1)))
    { s with sec := { s.sec with m5Count := s.sec.m5Count + 1 } }

/-! ### Boot steps (R404, R406) -/

/-- Step 5: the plan of the copy is active, banks are derived, ports start; or there is none. -/
def State.bootPlan (s : State) : State :=
  let s := match s.boot.copy.plan with
    | some pl => ((s.setPlan pl).bootRoutes pl).setStage 5
    | none => (s.wr BOOT_STATUS.plan_none bootPage 1).setStage 5
  let s := s.measureSlots.planPorts (List.range 512)
  (s.each (List.range 16) fun e s => s.reconcile e).requestsAct [1, 2, 3]

/-- Step 4: the copy is in place, loaded from flash where `load`; held fields, with RWS and RWP ones where `cold`, entries and identity
apply; management ports train. -/
def State.bootConfig (s : State) (load cold : Bool) : State :=
  let s := (s.iff load State.loadCopy).cfgView
  let s := s.restoreFields 0 0x10000000 cold
  let s := s.iff (!s.flag BOOT_STATUS.cfg_none bootPage) fun s => s.extend 3 s.boot.copy.digest
  let s := s.iff cold fun s => { s with byp := { s.byp with counts := s.boot.copy.counts } }.each (List.range 16) fun e s => s.wearView e
  let s := (s.insertHeld.startDomains.readyPages allPages).setStage 4
  let s := s.each [0, 1, 2, 3] fun d s => s.applyRegions d
  let s := s.each [0, 1, 2, 3] fun m s =>
    s.wr MGT_PORT_STATUS.training (mgtPage m) (s.rd CLK_PLL_LOCK.mgt_lock (clkPage (m / 2 * 3)))
  s.bootPlan

/-- Step 3: the ROM's choice of firmware, with M0 and M1 at a cold reset, and what follows it; without an image boot stops. -/
def State.bootFirmware (s : State) (load cold : Bool) : State :=
  let p := bootPage
  let fl := s.rd SEC_STATE.sec_floor secPage
  let a := s.boot.fwA
  let b := s.boot.fwB
  let s := (s.wr BOOT_VALID.fw_a p (b2n (a.accepted fl))).wr BOOT_VALID.fw_b p (b2n (b.accepted fl))
  let s := (s.wr BOOT_FW_SEQ.a_seq p (if a.accepted fl then a.seq else 0)).wr BOOT_FW_SEQ.b_seq p (if b.accepted fl then b.seq else 0)
  match s.chooseFw with
  | none => s.setStage 0xF0
  | some (isB, f) =>
    let s := ((s.wr BOOT_STATUS.fw_image p (b2n isB)).wr SEC_STATE.fw_sec_version secPage f.secVersion).setStage 3
    let s := s.iff (Sparse.get 0 s.sec.meas 0 == 0) fun s =>
      ((s.extend 0 s.boot.headerDigest).extend 0 (sm3 (natLe 4 Config.romVersion.toNat))).extend 1 f.blockDigest
    let s := { s with boot := { s.boot with cores := 15 } }
    (s.measureSealed.raiseFloor).bootConfig load cold

/-- Steps 1 and 2 of both sequences: clocks, LPDDR6, engines read back; then what comes after, or NO_MEMORY where a channel of die 0
fails. -/
def State.bootMemory (s : State) (trained : List Bool) (most : Nat) (after : State → State) : State :=
  let s := (s.each [0, 1, 2, 3] fun d s => s.clockUp d).setStage 1
  let s := s.each (List.range 16) fun e s => engineBringup e (s.readback e)
  let s := (s.each [0, 1, 2, 3] fun d s => s.train d ((trained.drop (6 * d)).take 6) most).setStage 2
  if bit s.boot.lpUnused 0 then (s.fault PWR_FAULT.boot_mem 0).setStage 0xF1 else after s

/-- COLD_BOOT: PWR_OK has risen. `pufOk` says that the identity seed was recovered, `trained` which LPDDR6 channels trained. -/
def coldBoot (pufOk : Bool) (trained : List Bool) (s : State) : State :=
  if s.power.pwrOk = false ∨ s.rd BOOT_STATUS.stage bootPage ≠ 0 ∨ s.boot.warm = true then s
  else
    let s := s.wipe false
    let s := s.wr PWR_PKG_STATUS.pwr_ok pwrPkgPage 1
    let s := s.each [0, 1, 2, 3] fun d s =>
      (s.wr CLK_REF_STATUS.serdes_ref_present (clkPage d) 1).wr CLK_REF_STATUS.time_ref_present (clkPage d) 1
    (s.regionLoad pufOk).bootMemory trained 500000 fun s => s.bootFirmware true true

/-- Steps 6 to 8 of R404 and 5, 8 and 9 of R406 as they come about: the stage, and at RUNNING the time it took. -/
def State.bootProgress (s : State) : State :=
  let lp := s.subs.map fun e => e.1
  let ready := (List.range 16).all fun e => s.calState e == calReady || s.rd PWR_DIE_STATUS.state (pwrDiePage (e / 4)) != 0
  let up := lp.all fun l => s.linkState l != psPcsLock && s.linkState l != psUpHold
  let accepted := lp.all fun l => !(s.isUp l && decide ((s.sub l).disc = .unaccepted) && (s.sub l).twoWay)
  let v := s.rd BOOT_STATUS.stage bootPage
  if v = 5 ∧ ready then s.setStage 6
  else if v = 6 ∧ up then s.setStage 7
  else if v = 7 ∧ accepted then
    let s := (s.setStage 8).wr BOOT_STATUS.boot_ms bootPage ((s.now - s.boot.startedAt) / 1000000)
    { s with boot := { s.boot with coldDone := true } }
  else s

/-! ### Package warm reset (R397, R406) -/

/-- What a package warm reset keeps of the state beside registers (R414). -/
def State.warmKeep (s : State) : State :=
  let d := fun (x : Domain) => { Domain.fresh with freq := x.freq, integ := x.integ }
  { s with
    regs := s.regs.filter fun e => keptKey e.1
    shadow := []
    heldWrites := []
    commitSeq := 0
    power := { s.power with stopped := s.power.stopped && !s.flag CLK_REF_STATUS.sysclk_present (clkPage 0), causes := setBit s.power.causes 7 false }
    boot := { s.boot with plan := none, cores := 0, warm := true, warmHeld := true, writing := none }
    sec := { s.sec with shadow0 := s.sec.active0, shadow1 := s.sec.active1, meas := s.sec.meas.filter fun e => decide (e.1 < 2), m5Count := 0 }
    mgmt := { Mgmt.fresh with lastTicket := s.mgmt.lastTicket }
    time := { s.time with dom0 := d s.time.dom0, dom1 := d s.time.dom1, txq := [], txqOverflow := [], ppsOut := false, ppsLast := none, inbox := [] }
    subs := []
    modules := Sparse.mapv s.modules fun _ m => { m with associated := false, failed := 0 }
    byp := { s.byp with queue := [], hot := [], draining := [], drift := [] }
    rel := { Rel.fresh with records := s.rel.records, readTo := s.rel.readTo, badRecords := s.rel.badRecords }
    reader := ⟨0, []⟩
    tables := Tables.fresh
    sw := Switch.fresh
    coll := Coll.fresh
    cores := Sparse.mapv s.cores fun _ x => { Core.fresh with slots := x.slots } }

/-- A package warm reset begins, with its cause: 1 WARM_PIN, 2 WARM_REGISTER. One in progress starts no second; before PWR_OK and the
boot there is nothing to reset. -/
def State.warmEnter (s : State) (cause : Nat) : State :=
  if s.power.pwrOk = false ∨ s.boot.warm = true ∨ s.rd BOOT_STATUS.stage bootPage = 0 then s
  else
    let s := s.each (s.subs.map fun e => e.1) fun l s => s.stopSub l cReset 0x1B .stay
    let s := s.each (List.range 16) fun e s => s.iff (s.bypAlive e) fun s => s.finishSwitching e
    let s := s.warmKeep
    let s := s.wr BOOT_STATUS.reset_cause bootPage cause
    s.each [0, 1, 2, 3] fun d s =>
      let a := ctlDiePage d
      ((s.wr CTL_DIE_STATE.state a 2).wr CTL_DIE_STATE.last_reset a 1).selfRefresh d

/-- A package warm reset, or the sequence that follows one, has not reached step 9 of R406. -/
def State.warmRunning (s : State) : Bool :=
  s.boot.warm || (s.rd BOOT_STATUS.reset_cause bootPage != 0 && decide (s.rd BOOT_STATUS.stage bootPage < 8))

/-- WARM_RST_PIN: WARM_RST_N has been low for 1 us. A fall while a package warm reset is in progress starts no second one (R397). -/
def warmRstPin (s : State) : State := if s.warmRunning then s else s.warmEnter 1

/-- WARM_RESET_RELEASE: the reset is released and its sequence runs. `copyOk` says that the configuration copy passes its digest. A warm
reset before the cold sequence reached step 8 restarts that sequence at step 3. -/
def warmResetRelease (trained : List Bool) (copyOk : Bool) (s : State) : State :=
  if s.boot.warm = false then s
  else
    let cold := !s.boot.coldDone
    let s := { s with boot := { s.boot with warm := false, warmHeld := false, startedAt := s.now } }
    let s := s.each [0, 1, 2, 3] fun d s => s.wr CTL_DIE_STATE.state (ctlDiePage d) 0
    s.bootMemory trained 20000 fun s => s.bootFirmware (cold || !copyOk) cold

end Sys2Proof.Machine
end

