-- ==== Sys2Proof/Machine/Power.lean ====
section
/-! DEFINITION. Power: the 48 V stage and its trips (R383 to R386), the cap and its throttle (R391), thermal control (R392 to R394). -/

namespace Sys2Proof.Machine

/-! ### Power on and off (R384 to R386) -/

/-- The rails of every die read `v`. -/
def State.rails (s : State) (v : List Nat) : State :=
  s.each [0, 1, 2, 3] fun d s => s.each (List.range 8) fun i s => s.wr PWR_RAIL.rail (pwrDiePage d) (v.getD i 0) i

/-- Steps 2 to 6 of R385: the rails are in regulation and PWR_OK is high. -/
def State.railsUp (s : State) : State :=
  let s := (s.rails railNominal).wr PWR_PKG_STATUS.pwr_ok pwrPkgPage 1
  { s with power := { s.power with supplied := true, step := 6, pwrOk := true, failures := 0, held := false }
           boot := { s.boot with startedAt := s.now } }

/-- PWR_OK falls and the rails go off, step 5 first: what the logic side holds is lost (R386). A switching in progress breaks where the
supply is `lost`, and ends first where it is present (R107). -/
def State.railsOff (s : State) (lost : Bool) : State :=
  let s := s.each (List.range 16) fun e s => if lost then s.breakSwitching e else s.settleSwitching e
  let s := (s.wipe true).rails []
  let s := s.wr PWR_PKG_STATUS.pwr_ok pwrPkgPage 0
  { s with power := { s.power with step := 0, pwrOk := false, held := false } }

/-- POWER_ON: VIN48, in 0.1 V, has held the start threshold for 10 ms, and the sequence runs to PWR_OK. -/
def powerOn (vin : Nat) (s : State) : State :=
  if s.power.pwrOk = true ∨ s.power.lockedOff = true ∨ s.power.failures ≠ 0 ∨ vin < 410 then s
  else s.railsUp.wr PWR_PKG_STATUS.vin pwrPkgPage vin

/-- RAIL_BOUND_MISSED: a rail misses its bound, or leaves regulation; a second failure keeps the stage off. -/
def railBoundMissed (s : State) : State :=
  if s.power.lockedOff then s
  else
    let n := s.power.failures + 1
    let s := (s.fault PWR_FAULT.rail_fault 3).railsOff false
    { s with power := { s.power with supplied := true, failures := n, lockedOff := decide (2 ≤ n) } }

/-- RAIL_RETRY: 1 s after the first failure the sequence runs again. -/
def railRetry (s : State) : State :=
  if s.power.pwrOk = true ∨ s.power.lockedOff = true ∨ s.power.failures = 0 then s else s.railsUp

/-- The bit of PWR_FAULT that a trip sets: undervoltage (0), overvoltage (1) or overcurrent (2). -/
def tripField : Nat → Fld
  | 0 => PWR_FAULT.undervoltage
  | 1 => PWR_FAULT.overvoltage
  | _ => PWR_FAULT.overcurrent

/-- VIN48 has fallen below 38.0 V, which ends a lock-out (R385). -/
def State.supplyFell (s : State) : State := { s with power := { s.power with supplied := false, failures := 0, lockedOff := false } }

/-- VIN48_TRIP: undervoltage (0), overvoltage (1) or overcurrent (2). -/
def vin48Trip (cause : Nat) (s : State) : State :=
  (s.iff s.power.pwrOk fun s => (s.fault (tripField cause) (4 + min cause 2)).railsOff (cause == 0)).iff (cause == 0) State.supplyFell

/-- The isolated link answers again: a measurement has crossed it, the stage takes setpoints once more, and VCMB follows CK_CMB. No row of the
table says when it does (DESIGN CHOICE, notes/assumptions/67.md). -/
def State.linkBack (s : State) : State :=
  s.iff s.power.held fun s => { s with power := { s.power with held := false } }.each [0, 1, 2, 3] fun d s => s.vcmbTrack d

/-- ISOLATION_LINK_SILENT: for 100 us the stage holds its setpoints; at 10 ms it powers off. -/
def isolationLinkSilent (tenMs : Bool) (s : State) : State :=
  if s.power.pwrOk = false then s
  else if tenMs then (s.fault PWR_FAULT.isolation_link 2).railsOff false
  else { s with power := { s.power with held := true } }

/-! ### Cap and throttle (R391) -/

/-- Every step is at its floor. -/
def State.atFloor (s : State) : Bool := s.pkgNotch == 40

/-- The highest active step by the notches. -/
def State.stepNow (s : State) : Nat :=
  if s.rd PWR_THROTTLE.admission pwrPkgPage < 8 then 3
  else if 0 < s.rd PWR_THROTTLE.cmb_notch pwrPkgPage then 2
  else if s.rd PWR_THROTTLE.array_ratio pwrPkgPage < 16 then 1 else 0

/-- POWER_THROTTLE: the highest active step becomes `v`. -/
def State.throttleStep (s : State) (v : Nat) : State :=
  if s.rd PWR_PKG_STATUS.throttle_step pwrPkgPage = v then s
  else ((s.wr PWR_PKG_STATUS.throttle_step pwrPkgPage v).irq pwrPkgPage 4).alarm 0x0040 1 pwrPkgPage v
    (s.rd PWR_PKG_STATUS.power_w pwrPkgPage)

/-- The notches changed: clocks follow on every die, and the highest step. -/
def State.notched (s : State) : State :=
  let s := s.each [0, 1, 2, 3] fun d s => s.clockTrack d
  s.throttleStep s.stepNow

/-- One further notch, in the order of the steps. -/
def State.notchUp (s : State) : State :=
  let a := pwrPkgPage
  if 8 < s.rd PWR_THROTTLE.array_ratio a then (s.dec PWR_THROTTLE.array_ratio a).notched
  else if s.rd PWR_THROTTLE.cmb_notch a < 24 then (s.inc PWR_THROTTLE.cmb_notch a).notched
  else if 0 < s.rd PWR_THROTTLE.admission a then (s.dec PWR_THROTTLE.admission a).notched
  else s

/-- One notch fewer, in reverse order. -/
def State.notchDown (s : State) : State :=
  let a := pwrPkgPage
  if s.rd PWR_THROTTLE.admission a < 8 then (s.inc PWR_THROTTLE.admission a).notched
  else if 0 < s.rd PWR_THROTTLE.cmb_notch a then (s.dec PWR_THROTTLE.cmb_notch a).notched
  else if s.rd PWR_THROTTLE.array_ratio a < 16 then (s.inc PWR_THROTTLE.array_ratio a).notched
  else s

/-- P, the input current in 0.1 A and VIN48 in 0.1 V are measured. -/
def State.measure (s : State) (p current vin : Nat) : State :=
  ((s.wr PWR_PKG_STATUS.power_w pwrPkgPage p).wr PWR_PKG_STATUS.current pwrPkgPage current).wr PWR_PKG_STATUS.vin pwrPkgPage vin

/-- The cap C. -/
def State.cap (s : State) : Nat := s.rd PWR_CAP.cap_w pwrPkgPage

/-- THROTTLE_PERIOD: period_us have passed, and P, current and VIN48 read as given. -/
def throttlePeriod (p current vin : Nat) (s : State) : State :=
  if s.power.pwrOk = false then s
  else
    let s := s.linkBack.measure p current vin
    if s.cap < p then
      (if s.atFloor then s else s.notchUp.count pwrPkgPage 0x80)
    else (s.causeEnds 7).throttleStep s.stepNow

/-- THROTTLE_RELEASE: P has been below C x (1 - hyst_pct / 100) for 100 us. -/
def throttleRelease (p : Nat) (s : State) : State :=
  let h := s.rd PWR_THROTTLE_CFG.hyst_pct pwrPkgPage
  if s.power.pwrOk = false ∨ s.pkgNotch = 0 ∨ s.cap * (100 - h) ≤ p * 100 then s
  else ((s.linkBack.wr PWR_PKG_STATUS.power_w pwrPkgPage p).causeEnds 7).notchDown.count pwrPkgPage 0x81

/-- CAP_EXCEEDED: P above C with every step at its floor for fault_ms. -/
def capExceeded (p : Nat) (s : State) : State :=
  if s.power.pwrOk = false ∨ s.atFloor = false ∨ p ≤ s.cap then s
  else
    let s := (s.linkBack.wr PWR_PKG_STATUS.power_w pwrPkgPage p).fault PWR_FAULT.cap_exceeded 7
    (s.throttleStep 4).count pwrPkgPage 0x82

/-! ### Thermal control (R392 to R394) -/

/-- THERM_N falls, if it is high. -/
def State.thermLow (s : State) : State :=
  if s.power.thermN = false then s
  else { s with power := { s.power with thermN := false } }.irq pwrPkgPage 6 |>.count pwrPkgPage 0x83

/-- A reading of die `d` that was `old` and is `t` against threshold `th`, all in 0.1 °C: at or above it THERM_N is low, and
THERMAL_ALARM is written when it reaches it. -/
def State.thermCheck (s : State) (d old t th : Nat) : State :=
  if t < th then s
  else s.thermLow.iff (decide (old < th)) fun s => s.alarm 0x0041 3 (pwrDiePage d) d t

/-- A critical temperature: the rails go off. -/
def State.critical (s : State) : State := (s.fault PWR_FAULT.therm_crit 8).railsOff false

/-- THERMAL_SENSOR_READ of die `d`: hot temperature and engine temperatures in 0.1 °C, stage temperature in °C, die power in W. -/
def thermalSensorRead (d hot : Nat) (engs : List Nat) (stage watts : Nat) (s : State) : State :=
  if s.power.pwrOk = false then s
  else
    let a := pwrDiePage d
    let old := s.rd PWR_DIE_STATUS.hot_temp a
    let s := ((s.linkBack.wr PWR_DIE_STATUS.hot_temp a hot).wr PWR_DIE_STATUS.die_power_w a watts).wr PWR_PKG_STATUS.stage_temp pwrPkgPage stage
    let s := s.thermCheck d old hot (10 * s.rd PWR_THERM_CFG.therm_c pwrPkgPage)
    let s := s.each [0, 1, 2, 3] fun i s =>
      let e := 4 * d + i
      let was := s.rd OPT_ENG_STATUS.temp (engPage e)
      let t := engs.getD i 0
      ((s.wr OPT_ENG_STATUS.temp (engPage e) t).thermCheck d was t 850).hotCheck e
    if 10 * s.rd PWR_THERM_CFG.crit_c pwrPkgPage ≤ hot ∨ 125 ≤ stage then s.critical else s

/-- THERMAL_NOTCH of die `d`: one notch more at or above warn_c, one fewer at 5 °C below it. -/
def thermalNotch (d : Nat) (s : State) : State :=
  let a := pwrDiePage d
  let t := s.rd PWR_DIE_STATUS.hot_temp a
  let w := 10 * s.rd PWR_THERM_CFG.warn_c pwrPkgPage
  let n := s.rd PWR_DIE_STATUS.thermal_notch a
  if s.power.pwrOk = false then s
  else if w ≤ t then (s.wr PWR_DIE_STATUS.thermal_notch a (min 40 (n + 1))).clockTrack d
  else if t + 50 ≤ w then (s.wr PWR_DIE_STATUS.thermal_notch a (n - 1)).clockTrack d
  else s

/-- THERM_N_RELEASE: every reading has stayed 5 °C below its threshold for 1 s. -/
def thermNRelease (s : State) : State :=
  let cool := (List.range 4).all fun d =>
    decide (s.rd PWR_DIE_STATUS.hot_temp (pwrDiePage d) + 50 ≤ 10 * s.rd PWR_THERM_CFG.therm_c pwrPkgPage)
  let eng := (List.range 16).all fun e => decide (s.rd OPT_ENG_STATUS.temp (engPage e) ≤ 800)
  if cool && eng then { s with power := { s.power with thermN := true } } else s

end Sys2Proof.Machine
end

