-- ==== Sys2Proof/Machine/Commit.lean ====
section
/-! DEFINITION. Banked fields and commits: R57 to R59, R396 (the banked page), R430 (dual control of RWP fields). -/

namespace Sys2Proof.Machine

/-- The register at offset `off` of page `a` holds banked fields (R396). -/
def bankedAt (a off : Nat) : Bool :=
  a == pwrPkgPage && (off == PWR_THROTTLE_CFG.hyst_pct.off || off == PWR_THERM_CFG.crit_c.off)

/-- Value of a field in the shadow bank: the shadow holds the fields that were written since its refill. -/
def State.shadowRd (s : State) (f : Fld) (a : Nat) (i : Nat := 0) : Nat := Sparse.get (s.rd f a i) s.shadow (f.key a i)

/-- A write to one banked field goes to the shadow bank (R57). -/
def State.shadowWr (s : State) (f : Fld) (a v : Nat) (i : Nat := 0) : State :=
  { s with shadow := Sparse.set s.shadow (f.key a i) (v % 2 ^ f.w) }

/-- The shadow bank holds a changed RWP field (R58). -/
def State.rwpChanged (s : State) : Bool :=
  s.shadow.any fun e => match fldOfKey e.1 with
    | some f => f.acc == .rwp && Sparse.get (f.reset 0) s.regs e.1 != e.2
    | none => false

/-- The fields of the banked registers as a register word shows them: bit places and values in the shadow bank. -/
def State.heldWrite (s : State) (w : Nat × Nat) : State :=
  s.each (placesAt pwrPkgPage w.1) fun p s =>
    s.iff (p.fld.acc == .rws || p.fld.acc == .rwp) fun s =>
      s.shadowWr p.fld p.base (p.fld.legal (p.base / 4096 * 4096) (bits w.2 (p.fld.loAt p.inst) p.fld.w)) p.inst

/-- A write of register word `v` at the banked offset `off`: held while a swap is in progress (R57). -/
def State.bankedWrite (s : State) (off v : Nat) : State :=
  if s.flag PG_STATUS.commit_busy pwrPkgPage then { s with heldWrites := s.heldWrites ++ [(off, v)] }
  else s.heldWrite (off, v)

/-- Rings whose oldest command is a BANK_COMMIT of page `a` that waits for the swap. -/
def State.commitRings (s : State) (a : Nat) : List Nat :=
  (s.mgmt.rings.filter fun e => e.2.waiting && match e.2.inflight with
    | x :: _ => bits (x.d.getD 0 0) 52 12 == 0x010 && x.d.getD 1 0 == a
    | [] => false).map fun e => e.1

/-- The swap of page `a`: the shadow becomes active, the former bank is refilled, held writes are performed, commit_done is set, and
BANK_COMMIT completes (R57). -/
def State.swap (s : State) (a : Nat) : State :=
  if s.flag PG_STATUS.commit_busy a = false then s
  else
    let s := { s with regs := s.shadow.foldl (fun (m : Sparse Nat) (e : Nat × Nat) => Sparse.set m e.1 e.2) s.regs, shadow := [] }
    let s := (s.wr PG_SEQ.active_seq a s.commitSeq).wr PG_SEQ.active_bank a (1 - s.rd PG_SEQ.active_bank a)
    let s := s.wr PG_STATUS.commit_busy a 0
    let held := s.heldWrites
    let s := { s with heldWrites := [] }.each held fun w s => s.heldWrite w
    (s.irqCommit a).each (s.commitRings a) fun r s => s.complete r stOk 0 0

/-- BANK_SWAP: the next boundary of page `a`'s block is reached. -/
def bankSwap (a : Nat) (s : State) : State := s.swap a

/-- The session that page `a`'s guard keeps out: the page is owned, and by another one (R59). -/
def State.guarded (s : State) (a who : Nat) : Bool := s.rd PG_GUARD.owner a != 0xFF && s.rd PG_GUARD.owner a != who

/-- A write refused by the guard (R59). -/
def State.guardDenied (s : State) (a who off : Nat) : State := (s.pageError a 0x0002 who (offDetail off)).irqGuard a

/-- The pending item of page `a` (R58). -/
def State.dualPage? (s : State) (a : Nat) : Option DualItem := s.mgmt.dual.find? fun x => x.page == a

/-- Session `who` presents a credential other than the first one's. -/
def State.otherCred (s : State) (x : DualItem) (who : Nat) : Bool :=
  !sameCred x.ephemeral x.cred (s.session who).ephemeral (s.credOf who)

/-- What a commit comes to: ignored on a page without banks, refused by the guard or by its sequence, accepted, placed in dual
pending under a ticket, or refused because 16 items are pending. -/
inductive CommitAnswer where
  | ignored | denied | refused | accepted | pending (ticket : Nat) | full
  deriving DecidableEq, Repr

/-- A commit of page `a` with sequence `q` by session `who`, from command ring `ring` (0x1000 for a register write), under
the credential it holds, or held when its command was fetched. A repeat by the first
credential is counted in the page's PG_ERR_COUNT, with no code of PG_ERR_FIRST (R58 says 'counted' and no more: DESIGN CHOICE,
notes/assumptions/54.md). -/
def State.commit (s : State) (a who ring q : Nat) (cred : Bool × Nat := s.credential who) : CommitAnswer × State :=
  if pageBanked a = false then (.ignored, s)
  else
    let s := s.swap a
    let item := s.dualPage? a
    let second := match item with
      | some x => x.seq == q && !sameCred x.ephemeral x.cred cred.1 cred.2
      | none => false
    if s.guarded a who && !second then (.denied, s.guardDenied a who 0x50)
    else if s.rd PG_SHADOW_SEQ.shadow_seq a ≠ q ∨ q ≤ s.rd PG_SEQ.active_seq a ∨ (match item with
        | some x => decide (x.seq ≠ q)
        | none => false) = true then
      (.refused, s.pageError a 0x0001 who (offDetail 0x50))
    else
      let accept := fun (s : State) => { s with commitSeq := q }.wr PG_STATUS.commit_busy a 1
      match item with
      | some x =>
        if second then
          (.accepted, accept (((s.dualDrop x).wr PG_STATUS.dual_pending a 0).dualEvent x 0x0050 0))
        else (.pending x.ticket, s.incSat PG_ERR_COUNT.count a)
      | none =>
        if s.rwpChanged = false then (.accepted, accept s)
        else if 16 ≤ s.mgmt.dual.length then (.full, s)
        else
          let s := (s.dualAdd ⟨0, a, q, 0, [], 0, who, cred.1, cred.2, ring⟩).wr PG_STATUS.dual_pending a 1
          (.pending s.mgmt.lastTicket, s)

/-- PG_COMMIT.abort by session `who`: the shadow bank is refilled from the active one, and a pending item of the page is cancelled; while
one is pending only its first session may abort (R55, R430). -/
def State.commitAbort (s : State) (a who : Nat) : State :=
  if pageBanked a = false then s
  else if s.guarded a who then s.guardDenied a who 0x50
  else
    let s := s.swap a
    match s.dualPage? a with
    | none => { s with shadow := [] }
    | some x =>
      if x.session = who then
        { (((s.dualDrop x).wr PG_STATUS.dual_pending a 0).dualEvent x 0x0051 1) with shadow := [] }
      else s.pageError a 0x0008 who (offDetail 0x50)

/-- A register write to PG_COMMIT (R57, R58). -/
def State.commitWrite (s : State) (a who v : Nat) : State :=
  if bit v 32 then s.commitAbort a who else (s.commit a who 0x1000 (bits v 0 32)).2

/-- A write of `v` to PG_GUARD.owner by session `who` (R59). -/
def State.guardWrite (s : State) (a who v : Nat) : State :=
  let o := s.rd PG_GUARD.owner a
  if (o = 0xFF ∧ v = who ∧ who ≠ 0xFF) ∨ (o = who ∧ v = 0xFF ∧ who ≠ 0xFF) then s.wr PG_GUARD.owner a v
  else s.irqGuard a

end Sys2Proof.Machine
end

