-- ==== Sys2Proof/Machine/DieReset.lean ====
section
/-! DEFINITION. Resets within the package: die reset (R398, R407), page soft reset with its restore (R399) and port reset (R397). -/

namespace Sys2Proof.Machine

/-! ### Frames of a die -/

/-- A frame that waits for die `d` is discarded under PORT_DOWN_FLUSH on its source die (R407), and what the mesh reserved for it returns. -/
def State.dropToward (s : State) (d : Nat) : State :=
  let ws := s.sw.waits.filter fun w => w.die == d && match w.kind with
    | .mesh _ | .intake => true
    | _ => false
  s.each ws fun w s =>
    let s := match w.kind with
      | .mesh j => s.release j
      | _ => s
    match s.frame? w.id with
    | none => s.dropWait w
    | some f =>
      let s := (s.dropWait w).dropAt (bufPage f.die) 0x1B f.cls f.src
      (s.iff f.result fun s => s.each w.copyPorts fun l s =>
        s.undelivered f.die l f.bytes (s.groupRing (Hjt.decode f.bytes).group)).release w.id

/-- The frames in die `d`'s treads are discarded with all their copies, counted under PORT_DOWN_FLUSH: the spec names no reason
(notes/assumptions/69.md). Their treads return, with what other dies reserved for them (R165, R174, R399). -/
def State.loseFrames (s : State) (d : Nat) : State :=
  s.each (s.sw.frames.filter fun e => e.2.die == d) fun e s => match s.frame? e.1 with
    | none => s
    | some f => s.discardAll e.1 f (bufPage d) 0x1B

/-- What the switch keeps by port, class and queue of die `d` starts afresh. -/
def State.freshSwitch (s : State) (d : Nat) : State :=
  let w := s.sw
  let buckets := Sparse.delIf w.buckets fun k =>
    if k < 16384 then k / 4096 == d else if k < 32768 then (k - 16384) / 4096 == d else (k - 32768) / 8192 == d
  { s with sw := { w with
    ingress := Sparse.delIf w.ingress fun k => k / 4096 == d
    xoff := Sparse.delIf w.xoff fun k => k / 4096 == d
    paused := Sparse.delIf w.paused fun k => k / 4096 == d
    headUse := Sparse.delIf w.headUse fun k => k / 512 == d
    deepHeadUse := Sparse.del w.deepHeadUse d
    overflowUse := Sparse.del w.overflowUse d
    spray := Sparse.delIf w.spray fun k => k / 8192 == d
    credit := Sparse.delIf w.credit fun k => k / 4096 == d
    classPtr := Sparse.delIf w.classPtr fun k => k / 512 == d
    slotCredit := Sparse.delIf w.slotCredit fun k => k / 64 / 4096 == d
    slotPtr := Sparse.delIf w.slotPtr fun k => k / 4096 == d
    buckets := buckets
    gates := Sparse.delIf w.gates fun k => k / 128 == d
    nextGates := Sparse.delIf w.nextGates fun k => k / 128 == d
    rates := Sparse.delIf w.rates fun k =>
      if k < 16384 then k / 4096 == d else if k < 32768 then (k - 16384) / 4096 == d else (k - 32768) / 8192 == d
    weights := Sparse.delIf w.weights fun k => if k < 16384 then k / 4096 == d else (k - 16384) / 64 / 4096 == d
    sending := Sparse.delIf w.sending fun l => l / 512 == d
    meshBusy := w.meshBusy.filter fun e => e.1 / 16 != d && e.1 / 4 % 4 != d } }

/-- Entries homed on die `d` go without NOTIFY or LANDING_INCOMPLETE, tombstones with them. -/
def State.loseEntries (s : State) (d : Nat) : State :=
  let es := s.coll.dir.filter fun e => e.key.home == d
  let s := s.each es fun e s => (s.freeAll e).dropHeld e
  s.setDir (s.coll.dir.filter fun e => e.key.home != d)

/-! ### Die reset (R407) -/

/-- Addresses of die `d`'s window. -/
def dieLo (d : Nat) : Nat := d * 0x4000000
def dieHi (d : Nat) : Nat := (d + 1) * 0x4000000

/-- The state beside registers that a reset of die `d` loses. -/
def State.dieLose (s : State) (d : Nat) : State :=
  { s with
    regs := s.regs.filter fun e => !(keyIn (dieLo d) (dieHi d) e.1) || keptKey e.1
    subs := Sparse.delIf s.subs fun l => l / 512 == d
    modules := Sparse.mapv s.modules fun e m => if e / 4 = d then { m with associated := false, failed := 0 } else m
    byp := { s.byp with
      queue := Sparse.delIf s.byp.queue fun e => e / 4 == d
      hot := s.byp.hot.filter fun x => x.engine / 4 != d
      draining := Sparse.delIf s.byp.draining fun p => p / 128 == d
      drift := Sparse.delIf s.byp.drift fun e => e / 4 == d }
    tables := { s.tables with
      ep := Sparse.delIf s.tables.ep fun k => k / 2 ^ 19 == d
      learnQ := Sparse.del s.tables.learnQ d }
    coll := { s.coll with
      repl := Sparse.delIf s.coll.repl fun k => k / 16384 == d
      triggers := Sparse.delIf s.coll.triggers fun k => k / 16384 == d }
    time := { s.time with
      txq := Sparse.delIf s.time.txq fun p => p / 128 == d
      txqOverflow := Sparse.delIf s.time.txqOverflow fun p => p / 128 == d }
    cores := Sparse.mapv s.cores fun c x => if c / 8 = d then { Core.fresh with slots := x.slots, uses := x.uses } else x }

/-- DIE_RESET of die `d` asked by session `who`: refused on die 0 and in standby (R398); otherwise steps 1 and 2 of R407. -/
def State.dieReset (s : State) (who d : Nat) : State :=
  let a := ctlDiePage d
  if d = 0 then s.pageError a 0x000B who (offDetail CTL_DIE_RESET.die_reset.off)
  else if s.rd PWR_DIE_STATUS.state (pwrDiePage d) ≠ 0 then s.pageError a 0x000C who (offDetail CTL_DIE_RESET.die_reset.off)
  else if s.rd CTL_DIE_STATE.state a ≠ 0 then s
  else
    let s := s.each (lportsOf ((List.range 128).map fun q => 128 * d + q)) fun l s => s.stopSub l cReset 0x1B .stay
    let s := s.each [4 * d, 4 * d + 1, 4 * d + 2, 4 * d + 3] fun e s => s.finishSwitching e
    let s := (s.wr CTL_DIE_STATE.state a 2).loseEntries d
    let s := s.each (List.range 4) fun c s => s.dropLearn c fun fea => homeDie fea == d
    -- the landings of its cores, and the heads that hold an area homed on it (R349)
    let s := s.abandonWhere fun k l => l.core / 8 == d || (l.holdsArea && areaDie k.group k.chunk == d)
    let s := (((s.dropToward d).loseFrames d).dieLose d).freshSwitch d
    let s := ((s.wr CTL_DIE_STATE.state a 2).wr CTL_DIE_STATE.last_reset a 2).inc CTL_DIE_STATE.die_resets a
    let s := (s.selfRefresh d).meshRetrain d
    s.iff (decide (d = 3)) State.mgtDark

/-- Every residual area homed on die `d` is fresh at its former placement (R348, R407). -/
def State.freshAreas (s : State) (d : Nat) : State :=
  let n := (s.coll.groups.map fun g => g.2.areasOn g.1 d).foldl (· + ·) 0
  let s := { s with coll := { s.coll with areas := Sparse.delIf s.coll.areas fun k => areaDie (k / 2 ^ 32) (k % 2 ^ 32) == d } }
  s.count (galPage d) 0x8B 0 n

/-- DIE_RESET_RELEASE: 1 ms after the write the reset of die `d` is released, and steps 3 to 5 of R407 run; `trained` as in `train`. -/
def dieResetRelease (d : Nat) (trained : List Bool) (s : State) : State :=
  let a := ctlDiePage d
  if s.rd CTL_DIE_STATE.state a ≠ 2 ∨ s.boot.warm = true then s
  else
    let s := ((s.wr CTL_DIE_STATE.state a 3).clockUp d).train d trained 20000
    let s := ((s.restoreFields (dieLo d) (dieHi d) false).readyPages (diePages d)).applyRegions d
    let s := (s.freshAreas d).reloadCopies d
    let es := [4 * d, 4 * d + 1, 4 * d + 2, 4 * d + 3]
    let s := s.each es fun e s => s.readbackNow e
    let s := (s.wr CTL_DIE_STATE.state a 0).enginesUp d
    let s := s.planPorts ((List.range 128).map fun q => 128 * d + q)
    let s := s.iff (decide (d = 3)) fun s => s.each [2, 3] fun m s =>
      s.wr MGT_PORT_STATUS.training (mgtPage m) (s.rd CLK_PLL_LOCK.mgt_lock (clkPage d))
    s.requestsAct [d]

/-! ### Page soft reset (R399) -/

/-- The passes of core `c` end under `reason`, banks and queue are cleared, and the landings follow R281, each entry once (R306). A gap in
progress goes on; one starts where work was stopped (R308). -/
def State.arrayReset (s : State) (c reason : Nat) : State :=
  let ps := (s.core c).array.held
  let s := s.each ps fun p s => s.arrFault c reason 0 0 0 0 0 p.tag
  let s := s.each (ps.map fun p => p.key).eraseDups fun k s => s.abandon k
  let x := s.core c
  let gap := if x.array.gapAt.isNone && !ps.isEmpty then some s.now else x.array.gapAt
  s.setCore c { x with array := { Array_.fresh with seq := x.array.seq, lastSlot := x.array.lastSlot, gapAt := gap } }

/-- The activations of core `c` stop and its landings are abandoned; slots are kept (R335). -/
def State.coreReset (s : State) (c : Nat) : State :=
  let s := s.abandonCore c
  s.setCore c { s.core c with events := [], ctxs := [] }

/-- PORT_RESET: every sub-port of port `p` sends local fault, goes dark and starts again at step 5 (R91, R397). -/
def State.portReset (s : State) (p : Nat) : State := s.each (lportsOf [p]) fun l s => s.stopSub l cAdmin 0x1B .restart

/-- The gate list and status of physical port `p` take their reset values. -/
def State.gatesReset (s : State) (p : Nat) : State :=
  let a := schPage p
  let ro := [SCH_GATE_STATUS.change_pending, SCH_GATE_STATUS.oper_enable, SCH_GATE_STATUS.refusal, SCH_GATE_STATUS.oper_states,
    SCH_GATE_STATUS.oper_entry, SCH_GATE_OPER_CYCLE.cycle_ns, SCH_GATE_CHANGE_TIME.seconds, SCH_GATE_CHANGE_TIME.nanoseconds]
  s.each ro fun f s => s.wr f a (f.reset 0)

/-- Commits of page `a` end: one that was accepted is performed (R57), and an item of dual control ends as an abort ends it (R399, R430;
notes/assumptions/70.md). -/
def State.commitEnds (s : State) (a : Nat) : State :=
  let s := s.swap a
  let s := match s.dualPage? a with
    | none => s
    | some x => ((s.dualDrop x).wr PG_STATUS.dual_pending a 0).dualEvent x 0x0051 1
  { s with shadow := [], heldWrites := [] }

/-- The in-flight work of the block of page `a` ends, as its chapter states, or else is discarded and counted (R399). -/
def State.endWork (s : State) (a : Nat) : State :=
  let d := dieOfPage a
  let i := instOfPage a
  match blkOfPage a with
  | some .optPort => s.portReset (instOfPage a)
  | some .arr =>
    let s := s.arrayReset i 5
    s.setCore i { s.core i with arrArm := [] }
  | some .cmb => s.coreReset i
  | some .xse => s.setCore i { s.core i with xseArm := [] }
  | some .vec => s.setCore i { s.core i with vecArm := [] }
  | some .lnd =>
    -- job quotas take their reset values (R414)
    let s := (s.abandonWhere fun _ l => l.core / 8 == d).loseEntries d
    s.iff (d == 0) fun s => { s with coll := { s.coll with quotas := [] } }
  | some .trg => { s with coll := { s.coll with triggers := Sparse.delIf s.coll.triggers fun k => k / 16384 == d } }
  | some .mgtPort => s.loseQps i
  | some .ctlRing => s.each (List.range 32) fun k s => (s.setRing (32 * i + k) Ring.fresh).orphan (32 * i + k)
  | some .ctlEvr => { s with mgmt := { s.mgmt with evrSeq := Sparse.delIf s.mgmt.evrSeq fun e => e / 32 == i } }
  | some .buf => (s.dropToward d).loseFrames d
  | some .schPort =>
    let p := instOfPage a
    let s := s.gatesReset p
    let w := s.sw
    { s with sw := { w with
      gates := Sparse.del w.gates p
      nextGates := Sparse.del w.nextGates p
      weights := Sparse.delIf w.weights fun k => decide (k < 16384) && k / 32 == p
      rates := Sparse.delIf w.rates fun k => if k < 16384 then k / 32 == p else decide (k < 32768) && (k - 16384) / 32 == p
      buckets := Sparse.delIf w.buckets fun k =>
        if k < 16384 then k / 32 == p else if k < 32768 then (k - 16384) / 32 == p else (k - 32768) / 64 == p } }
  | some .fwd => s.dropLearn d fun _ => true
  | some .tim => { s with time := { s.time with
      txq := Sparse.delIf s.time.txq fun p => p / 128 == d
      txqOverflow := Sparse.delIf s.time.txqOverflow fun p => p / 128 == d } }
  | some .byp => s.setSwitchQueue i ((s.switchQueue i).take (b2n (s.switching i))) (s.switching i)
  | _ => s

/-- Thresholds of the tread pools that a write or a reset of a BUF page moves are compared again (R168). -/
def State.poolsMoved (s : State) (a : Nat) : State := s.iff (decide (blkOfPage a = some .buf)) fun s => s.pfcAll (dieOfPage a)

/-- PAGE_SOFT_RESET of page `a`: work ends, fields return to reset, the guard is released, ready is 0, and reset_busy is 1 until the restore
(notes/assumptions/14.md). -/
def State.pageReset (s : State) (a : Nat) : State :=
  let s := (s.endWork a).iff (pageBanked a) fun s => s.commitEnds a
  let s := { s with regs := s.regs.filter fun e => !(keyIn a (a + 0x1000) e.1 && softKey e.1) }
  ((s.wr PG_STATUS.ready a 0).wr PG_STATUS.reset_busy a 1).poolsMoved a

/-- PAGE_CONFIG_RESTORE: firmware rewrites the configured fields of page `a`, and sub_enable on a port page, and sets ready; the shadow
bank is refilled. Nothing where no page soft reset waits for it. -/
def pageConfigRestore (a : Nat) (s : State) : State :=
  if s.flag PG_STATUS.ready a ∨ s.boot.cores = 0 ∨ (blkOfPage a).isNone = true then s
  else
    let s := ((s.restoreFields a (a + 0x1000) false).wr PG_STATUS.ready a 1).wr PG_STATUS.reset_busy a 0
    let s := s.poolsMoved a
    let s := s.iff (pageBanked a) fun s => { s with shadow := [] }
    match blkOfPage a with
    | some .optPort =>
      let p := instOfPage a
      let s := s.wr OPT_PORT_CFG.sub_enable a (s.planRec p).subMask
      s.each (lportsOf [p]) fun l s => s.iff (s.linkState l != psFaultTx) fun s => s.startSub l
    | some .pwrDie =>
      let d := dieOfPage a
      let s := s.iff (d != 0 && !s.flag PWR_DIE_CTRL.standby_req a) fun s => s.standbyWrite d false
      (s.gateWrite d).requestsAct [d]
    | some .pwrPkg => s.requestsAct []
    | some .tim => s.iff (dieOfPage a == 0) State.startDomains
    | _ => s

end Sys2Proof.Machine
end

