-- ==== Sys2Proof/Machine/Reliability.lean ====
section
/-! DEFINITION. Reliability: correlation and core retirement (R441 to R443), health scores and quarantine (R446 to R448). -/

namespace Sys2Proof.Machine

/-! ### Retirement (R442, R443) -/

/-- The other core of the cluster. -/
def siblingOf (c : Nat) : Nat := if c % 2 = 0 then c + 1 else c - 1

def State.retired (s : State) (c : Nat) : Bool := bit (s.rd CTL_RETIRE.retired ctlPkgPage) c

/-- CORE_RETIRED: core `c` is retired, its passes and activations stopped and its landings abandoned; `why` is detail 1 beside the
sibling. A save is due. -/
def State.retire (s : State) (c why : Nat) : State :=
  let m := s.rd CTL_RETIRE.retired ctlPkgPage
  let s := (((s.wr CTL_RETIRE.retired ctlPkgPage (Nat.lor m (2 ^ c))).arrayReset c 6).coreReset c)
  -- its array's gap takes the duty to 0 (R309)
  let x := s.core c
  let s := s.iff x.array.gapAt.isNone fun s => s.setCore c { x with array := { x.array with gapAt := some s.now } }
  let s := (s.irq ctlPkgPage 4).alarm 0x0033 2 ctlPkgPage c (why + siblingOf c)
  let s := s.count ctlPkgPage 0x83
  { s with boot := { s.boot with saveDue := true } }

/-- A core returns to service with an empty history. -/
def State.unretire (s : State) (c : Nat) : State :=
  let s := s.wr CTL_RETIRE.retired ctlPkgPage (setBit (s.rd CTL_RETIRE.retired ctlPkgPage) c false)
  { s with rel := { s.rel with history := Sparse.del s.rel.history c } }

/-- RETIRE_WRITE: CTL_RETIRE.retired is written with `v`. -/
def State.retireWrite (s : State) (v : Nat) : State :=
  s.each (List.range 32) fun c s =>
    if bit v c = s.retired c then s else if bit v c then s.retire c 0 else s.unretire c

/-! ### Correlation (R441) -/

/-- What correlation keeps of an error record: arithmetic records and uncorrectable landing SRAM records of a core. The unit of an ARR
record is in Q6, and what its engine field holds is the cell row (R437; DEDUCED, notes/assumptions/73.md). -/
def coreErrOf (q : List Nat) : Option (Nat × CoreErr) :=
  let q0 := q.getD 0 0
  let q1 := q.getD 1 0
  let q2 := q.getD 2 0
  let kind := bits q1 48 16
  let core := bits q1 26 6
  let landing := kind == 0x0101 && bits q1 40 8 == 2
  if core < 32 ∧ (kind = 0x0109 ∨ kind = 0x010A ∨ kind = 0x010B ∨ landing = true) then
    let unit := if bits q1 32 8 = 1 then bits (q.getD 6 0) 0 32 else bits q1 12 7
    some (core, ⟨bits q0 30 34 * 1000000000 + bits q0 0 30, bits (q.getD 3 0) 32 32, bits q1 32 8 * 2 ^ 32 + unit, bits q1 19 7, landing,
      bits q2 48 16 / 50, bits q2 16 16⟩)
  else none

/-- Record `r`, now newest of the history `h`, completes a rule: the records that retire the core, none where no rule holds. -/
def State.retireRule (s : State) (h : List CoreErr) (r : CoreErr) : List CoreErr :=
  let a := ctlPkgPage
  let n := s.rd CTL_RETIRE_CFG.retire_count a
  let within := fun (w : Nat) => (r :: h).filter fun x => decide (r.at_ ≤ x.at_ + w)
  let win := within (s.rd CTL_RETIRE_CFG.window_h a * 3600000000000)
  let rep := (within (s.rd CTL_RETIRE_CFG.sig_window_min a * 60000000000)).filter fun x =>
    !r.landing && !x.landing && x.signature == r.signature && x.unit == r.unit && x.engine == r.engine
  let mem := win.filter fun x => x.landing && r.landing
  if n ≠ 0 ∧ n ≤ win.length then win else if 2 ≤ rep.length then rep else if 2 ≤ mem.length then mem else []

/-- What all of `l` share, or a free value where they do not. -/
def sharedOr (l : List Nat) (free : Nat) : Nat :=
  match l with
  | [] => free
  | x :: t => if t.all fun y => y == x then x else free

/-- Firmware reads record `q`, index `i` of die `d`. -/
def State.correlate (s : State) (d i : Nat) (q : List Nat) : State :=
  match coreErrOf q with
  | none => s
  | some (c, r) =>
    let h := Sparse.get [] s.rel.history c
    let hit := s.retireRule h r
    let s := { s with rel := { s.rel with history := Sparse.set s.rel.history c (r :: h) } }
    if hit = [] ∨ s.retired c = true ∨ s.flag CTL_RETIRE_CFG.auto ctlPkgPage = false then s
    else if s.retired (siblingOf c) then (s.irq ctlPkgPage 6).alarm 0x0034 2 ctlPkgPage c (recDetail d i)
    else
      let band := sharedOr (hit.map fun x => x.tempBand) s.free % 65536
      let clock := sharedOr (hit.map fun x => x.clockMhz) (s.free / 65536) % 65536
      s.tickFree.retire c (band * 2 ^ 32 + clock * 2 ^ 16)

/-- Byte address of record `i` of die `d` in the die's LPDDR6 (R359, R436). -/
def recordByte (d i : Nat) : Nat := (if d = 0 then 26 else 4) * 2 ^ 30 + i % 2 ^ 24 * 64

/-- ERROR_CORRELATION: firmware reads every new record of every die; those that read uncorrectable are skipped and counted (R363). -/
def errorCorrelation (s : State) : State :=
  if s.boot.cores = 0 then s
  else
    s.each [0, 1, 2, 3] fun d s =>
      let n := s.errIndex d
      let from_ := max (Sparse.get 0 s.rel.readTo d) (n - 2 ^ 24)
      let s := s.each ((List.range (n - from_)).map fun k => from_ + k) fun i s =>
        let k := d * 2 ^ 24 + i % 2 ^ 24
        if s.rel.badRecords.contains k then s.lpError d (recordByte d i) .bad else s.correlate d i (Sparse.get [] s.rel.records k)
      { s with rel := { s.rel with readTo := Sparse.set s.rel.readTo d n } }

/-! ### Health and quarantine (R446 to R448) -/

def State.portHealth (s : State) (p : Nat) : Health := Sparse.get Health.fresh s.rel.health p

def State.setPortHealth (s : State) (p : Nat) (h : Health) : State :=
  { s with rel := { s.rel with health := Sparse.set s.rel.health p h } }

/-- The score of a port: 1,000 less the penalties of the last 60 s. -/
def State.scoreOf (s : State) (p : Nat) : Nat :=
  1000 - (((s.portHealth p).penalties.filter fun x => decide (s.now < x.1 + 60000000000)).map fun x => x.2).foldl (· + ·) 0

/-- h of the band of a score. -/
def bandOf (score : Nat) : Nat := if 900 ≤ score then 8 else if 700 ≤ score then 6 else if 500 ≤ score then 4 else if 300 ≤ score then 2 else 0

/-- Lower bound of the band of h. -/
def bandLow (h : Nat) : Nat := if h = 0 then 0 else 100 + 100 * h

/-- A port that is evaluated: DOWN or GALLERY, with a sub-port UP. -/
def State.scored (s : State) (p : Nat) : Bool :=
  decide (s.role p = roleDown ∨ s.role p = roleGallery) && s.boot.plan.isSome && [0, 1, 2, 3].any fun k => s.isUp (4 * p + k)

/-- The factor firmware gives a port: reduced_factor while capped, 0 while quarantined, otherwise h. -/
def State.factorOf (s : State) (p : Nat) : Nat :=
  let h := s.portHealth p
  if h.capped then s.rd CTL_HEALTH_CFG.reduced_factor ctlPkgPage else if h.quarantined then 0 else h.h

/-- Ports of the quarantine group of port `p`. -/
def State.quarGroup (s : State) (pl : Plan) (p : Nat) : List Nat :=
  if s.role p = roleGallery then groupPorts pl (s.portRec p).group
  else (List.range 512).filter fun q => s.role q == roleDown

/-- Quarantines begun in the window. -/
def State.begunNow (s : State) : List Nat :=
  s.rel.begun.filter fun t => decide (s.now < t + s.rd CTL_HEALTH_CFG.budget_window_s ctlPkgPage * 1000000000)

/-- The conditions of R448 hold for port `p` in band 0. -/
def State.mayQuarantine (s : State) (pl : Plan) (p : Nat) : Bool :=
  let g := s.quarGroup pl p
  let held := (g.filter fun q => q != p && (s.portHealth q).quarantined).length + 1
  let other := s.role p != roleDown ||
    ((s.leafPorts (s.portRec p).leaf).any fun l => l / 4 != p && s.inService l && !(s.portHealth (l / 4)).quarantined)
  decide (s.begunNow.length < s.rd CTL_HEALTH_CFG.budget_ports ctlPkgPage) && decide (held ≤ g.length / 16) && other

/-- Port `p`, in band 0 with a score, is quarantined or capped; one that has left service is neither (R451). -/
def State.band0 (s : State) (pl : Plan) (p score : Nat) : State :=
  let a := ctlPkgPage
  let h := s.portHealth p
  if h.quarantined ∨ ([0, 1, 2, 3].any fun k => s.inService (4 * p + k)) = false then s
  else if s.mayQuarantine pl p then
    let s := s.setPortHealth p { h with quarantined := true, capped := false }
    let s := { s with rel := { s.rel with begun := s.now :: s.begunNow } }
    (s.alarm 0x0014 1 a p score).count a 0x81
  else if h.capped then s
  else
    let s := (s.setPortHealth p { h with capped := true }).inc CTL_QUAR_STATUS.exhausted a
    let g := if s.role p = roleGallery then (s.portRec p).group else 0x80
    ((s.irq a 5).alarm 0x0013 2 a g p).count a 0x82

/-- One evaluation of port `p`: score, band, and what follows. A rise of a band needs the score to have stood 60 s, or restore_s from
band 0, that is at this evaluation and as many before it. -/
def State.evaluate (s : State) (pl : Plan) (p : Nat) : State :=
  let a := ctlPkgPage
  let x := s.portHealth p
  let score := s.scoreOf p
  let need := if x.h = 0 then s.rd CTL_HEALTH_CFG.restore_s a else 60
  let y : Health :=
    if bandOf score < x.h then { x with score := score, h := bandOf score, rising := 0 }
    else if x.h < 8 ∧ bandLow (x.h + 2) + 50 ≤ score then
      (if need ≤ x.rising then { x with score := score, h := x.h + 2, rising := 0 } else { x with score := score, rising := x.rising + 1 })
    else { x with score := score, rising := 0 }
  let s := s.setPortHealth p y
  if y.h = 0 then s.band0 pl p score
  else
    let s := s.iff x.quarantined fun s => s.alarm 0x0015 0 a p y.h
    s.setPortHealth p { s.portHealth p with quarantined := false, capped := false }

/-- HEALTH_EVALUATION: a second has passed, and firmware evaluates the ports that are UP, in ascending order, and with auto writes the
factors into GAL_HEALTH. -/
def healthEvaluation (s : State) : State :=
  match s.boot.plan with
  | none => s
  | some pl =>
    if s.boot.cores = 0 then s
    else
      let s := (s.each ((List.range 512).filter s.scored) fun p s => s.evaluate pl p)
      s.iff (s.flag CTL_HEALTH_CFG.auto ctlPkgPage) fun s =>
        s.each ((List.range 512).filter fun p => decide (s.role p = roleDown ∨ s.role p = roleGallery)) fun p s =>
          s.wr GAL_HEALTH.health (galPage (p / 128)) (s.factorOf p) (p % 128)

end Sys2Proof.Machine
end

