-- ==== Sys2Proof/Machine/Counters.lean ====
section
/-! DEFINITION. The central reader: sweeps and snapshots of the page counters (R457 to R459, R461). -/

namespace Sys2Proof.Machine

/-! ### Counters that count cycles (R454 to R456) -/

/-- Treads in the ring queues of class `c` of die `d` in one direction (R192, R456). -/
def State.ringUseOf (s : State) (d : Nat) (asc : Bool) (c : Nat) : Nat :=
  (((s.banisterSet asc).filter fun m => m.l / 512 == d).map fun m => s.ringDepth m.l c).foldl (· + ·) 0

/-- The amount of instance `i` under a counter's qualifier `q`, for a page with these instances (R454). -/
def occOf (q : Nat) (l : List Nat) : Option Nat :=
  if q = 0x1FF then some (l.foldl (· + ·) 0) else l[q]?

/-- The occupancy that code `code` and qualifier `q` select on page `a`, in its unit; none where the page does not offer it (R456). A
page with one instance has instance 0; the queue of a hold class on a banister port is its ring queue (R203). -/
def State.occupancy (s : State) (a code q : Nat) : Option Nat :=
  let d := dieOfPage a
  let i := instOfPage a
  match blkOfPage a, code with
  | some .buf, 0x40 => occOf q [s.poolUse d .forward]
  | some .buf, 0x41 => occOf q [s.poolUse d .result]
  | some .buf, 0x42 => occOf q [s.poolUse d .overflow]
  | some .schPort, 0x40 => occOf q ((List.range 32).map fun k => s.depth (4 * i + k / 8) (k % 8) + s.ringDepth (4 * i + k / 8) (k % 8))
  | some .gal, 0x40 => occOf q ((List.range 8).map fun c => s.ringUseOf d true c)
  | some .gal, 0x41 => occOf q ((List.range 8).map fun c => s.ringUseOf d false c)
  | some .lnd, 0x40 => occOf q ((List.range 8).map fun k => (s.coreUse (8 * d + k)).1)
  | some .lnd, 0x41 => occOf q [(s.coll.dir.filter fun e => e.key.home == d).length]
  | some .fwd, 0x40 => occOf q [(Sparse.get [] s.tables.learnQ d).length]
  | some .xse, 0x40 => occOf q [0]
  | some .arr, 0x40 => occOf q [(s.core i).array.queue.length]
  | some .cmb, 0x40 => occOf q [(s.core i).events.length]
  | _, _ => none

/-- Instances of mesh credit, peer die x 4 + pool, that frames on die `d` wait for, among those of qualifier `q` (R455). -/
def State.meshWaiting (s : State) (d q : Nat) : Nat :=
  ((List.range 16).filter fun i => (q == 0x1FF || q == i) && i / 4 != d && s.sw.waits.any fun w => s.meshWaits d (i / 4) (i % 4) w).length

/-- Instances in which event `code` of page `a`, one that is counted in cycles, happens under qualifier `q` (R455). -/
def State.lasts (s : State) (a code q : Nat) : Nat :=
  match blkOfPage a, code with
  | some .msh, 0x82 => s.meshWaiting (dieOfPage a) q
  | _, _ => 0

/-- CK_CORE cycles, at 1.6 GHz, that end in the `n` nanoseconds after `now` (R41). -/
def cyclesIn (now n : Nat) : Nat := (now + n) * 8 / 5 - now * 8 / 5

/-- CK_CORE runs where page `a` lies: in standby a die has none (R387). -/
def State.clocked (s : State) (a : Nat) : Bool :=
  let d := dieOfPage a
  !(decide (d < 4) && s.rd PWR_DIE_STATUS.state (pwrDiePage d) == 2)

/-- Counter `k` of page `a` counts `n` CK_CORE cycles, if it is enabled in mode ABOVE or CYCLES, or for an event that is counted in
cycles (R454). -/
def State.cycleCount (s : State) (n a k : Nat) : State :=
  if s.flag CTR_SEL.enable a k = false ∨ s.clocked a = false then s
  else match s.rd CTR_SEL.mode a k with
    | 1 => match s.occupancy a (s.rd CTR_SEL.event a k) (s.rd CTR_SEL.qualifier a k) with
      | some v => s.iff (decide (s.rd CTR_SEL.threshold a k < v)) fun s => s.ctrAdd a k n
      | none => s
    | 0 =>
      let m := s.lasts a (s.rd CTR_SEL.event a k) (s.rd CTR_SEL.qualifier a k)
      s.iff (decide (0 < m)) fun s => s.ctrAdd a k (m * n)
    | 2 => s.ctrAdd a k n
    | _ => s

/-- The count of counter `k` of page `a` once `ns` nanoseconds have passed: the reader reads each counter at its own time, and counting
goes on meanwhile (R457, R460). -/
def State.countIn (s : State) (ns a k : Nat) : Nat := (s.cycleCount (cyclesIn s.now ns) a k).rd CTR_VALUE.count a k

/-! ### The central reader -/

/-- Die `d` is in reset or in standby, so the reader skips its pages (R457). -/
def State.readerSkips (s : State) (a : Nat) : Bool :=
  let d := dieOfPage a
  decide (d < 4) && (s.rd CTL_DIE_STATE.state (ctlDiePage d) != 0 || s.rd PWR_DIE_STATUS.state (pwrDiePage d) == 2)

/-- The masks let a sweep read page `a`. -/
def State.swept (s : State) (a : Nat) : Bool :=
  match blkOfPage a with
  | none => false
  | some b =>
    let d := dieOfPage a
    let m := if d < 4 then s.rd CTR_DIE_MASK.types (ctrDiePage d) else s.rd CTR_PKG_MASK.types ctrPkgPage
    decide (1 ≤ b.code) && bit m (b.code - 1)

/-- Time of the first read of the j-th page after a start at T0, in counter units: 70 ns a page, 30 ns to open it. -/
def State.readAt (s : State) (j : Nat) : Nat := (s.time.t0 + (70 * j + 30) * nsUnit) % timeWrap

/-- Skew of a sweep of `n` pages, in ns. -/
def skewOf (n : Nat) : Nat := if n = 0 then 0 else 70 * (n - 1) + 37

/-- A PAGE record (R458) of page `a`, read as the j-th; `mapped` is false for a page that reads as zeros. -/
def State.pageRecord (s : State) (a j number : Nat) (mapped : Bool) : List Byte :=
  let en := (List.range 16).foldl (fun m k => if mapped && s.flag CTR_SEL.enable a k then m + 2 ^ k else m) 0
  let ch := if mapped then Sparse.get 0 s.reader.changed a else 0
  let ctr := (List.range 16).map fun k => 5 * k / 2 * 2 ^ 48 + (if mapped then s.countIn (70 * j + 30 + 5 * k / 2) a k else 0)
  quadBytes ([stampOf (s.readAt j), number % 2 ^ 32 * 2 ^ 32 + pageCode a * 2 ^ 16, en * 2 ^ 16 + ch, 0] ++ ctr ++ List.replicate 12 0)

/-- A PAGE_SKIPPED record of a snapshot. -/
def State.skipRecord (s : State) (a j : Nat) : List Byte :=
  quadBytes ([stampOf (s.readAt j), pageCode a * 2 ^ 16 + 2] ++ List.replicate 30 0)

/-- The SWEEP_END record after `n` pages read and `skipped` skipped. -/
def State.endRecord (s : State) (n skipped number : Nat) : List Byte :=
  let last := (s.readAt 0 + skewOf n * nsUnit) % timeWrap
  quadBytes ([stampOf (s.readAt 0), number % 2 ^ 32 * 2 ^ 32 + 1, skewOf n % 2 ^ 32 * 2 ^ 32 + n % 2 ^ 16 * 2 ^ 16 + skipped % 2 ^ 16,
    stampOf last] ++ List.replicate 28 0)

/-- A counter record goes to the counter area of die 0. -/
def State.putCounter (s : State) (l : List Byte) : State :=
  let k := s.rd CTR_SWEEP_PRODUCER.producer ctrPkgPage
  { s with mem := Memory.writeN s.mem (telemetryBase 0 + 0xC0000000 + k % 2 ^ 22 * 256) l }.inc CTR_SWEEP_PRODUCER.producer ctrPkgPage

/-- The reader has read page `a`: its changed mask starts again. -/
def State.readerSaw (s : State) (a : Nat) : State := { s with reader := { s.reader with changed := Sparse.del s.reader.changed a } }

/-- One sweep, from its first page to its SWEEP_END (R457, R458). Sweep numbers count from 1. -/
def State.sweep (s : State) : State :=
  let number := s.reader.sweepNo + 1
  let pages := allPages.filter s.swept
  let read := pages.filter fun a => !s.readerSkips a
  let skipped := pages.length - read.length
  let s := s.each (read.zip (List.range read.length)) fun x s => (s.putCounter (s.pageRecord x.1 x.2 number true)).readerSaw x.1
  let s := s.putCounter (s.endRecord read.length skipped number)
  let s := { s with reader := { s.reader with sweepNo := number % 2 ^ 32 } }
  let a := ctrPkgPage
  let s := ((s.inc CTR_SWEEP_STATUS.sweeps a).wr CTR_SWEEP_LAST.skew_ns a (skewOf read.length)).wr CTR_SWEEP_LAST.pages_read a read.length
  ((s.wr CTR_SWEEP_LAST.pages_skipped a skipped).irq a 4).count a 0x80

/-- The reader works: the package is powered and out of a warm reset. -/
def State.readerOn (s : State) : Bool := s.power.pwrOk && !s.boot.warm

/-- COUNTER_SWEEP: interval_us have passed since the last start, with run set. -/
def counterSweep (s : State) : State := if s.readerOn && s.flag CTR_SWEEP_CFG.run ctrPkgPage then s.sweep else s

/-- COUNTER_SNAPSHOT, fetched as `e`: status, C1, C2 (R459), under the rights of its fetch (R428). A page that is not mapped reads as zeros
and is counted and recorded under R53. -/
def State.opCounterSnapshot (s : State) (e : Descriptor) : Nat × Nat × Nat × State :=
  let n := e.owner
  let d := e.d
  let cnt := bits (d.getD 2 0) 0 16
  let dst := d.getD 3 0
  let list := s.staged n (d.getD 1 0) (8 * min cnt 4096)
  let addrs := (List.range (min cnt 4096)).map fun i => leAt list (8 * i) 4 / 4096 * 4096
  if !stagingOk (d.getD 1 0) (8 * cnt) || !stagingOk dst (256 * (cnt + 1)) then (stPermission, 0, 0, s)
  else if 4096 < cnt then (stInvalid, 0, 0, s)
  else if addrs.any fun a => (blkOfPage a).isSome && !s.mayReadAs e.roles n a CTR_VALUE.count.off then (stPermission, 0, 0, s)
  else if cnt = 0 then (stOk, 0, 0, s)
  else
    let one := fun (x : Nat × State × Nat) (a : Nat) =>
      let (j, s, i) := x
      if (blkOfPage a).isSome && s.readerSkips a then (j, s.stage n (dst + 256 * i) (s.skipRecord a j), i + 1)
      else
        let s := s.iff (blkOfPage a).isNone fun s => s.refuseAccess n false CTR_VALUE.count.off
        (j + 1, (s.stage n (dst + 256 * i) (s.pageRecord a j 0 (blkOfPage a).isSome)).readerSaw a, i + 1)
    let (j, s, _) := addrs.foldl one (0, s, 0)
    let s := s.stage n (dst + 256 * cnt) (s.endRecord j (cnt - j) 0)
    (stOk, skewOf j, j, s.count ctrPkgPage 0x81)

end Sys2Proof.Machine
end

