-- ==== Sys2Proof/Machine/Rings.lean ====
section
/-! DEFINITION. Command rings: doorbells and fetching (R60 to R63), the opcodes (R64, R65, R429) and their completions. The ring and
event ring registers (R70) are written here too. -/

namespace Sys2Proof.Machine

/-! ### Doorbells, enables and heads (R60, R67, R70) -/

/-- A doorbell write: the producer index is recorded, or the ring stops with OVERRUN (R60). -/
def State.doorbell (s : State) (r v : Nat) : State :=
  let a := ringBlock r
  if s.flag CTL_RING_CFG.enable a = false ∨ s.rd CTL_RING_STATE.state a = 2 then s
  else if s.ringSize r < sub32 v (s.rd CTL_RING_STATE.head a) then s.ringStop r 1
  else s.setRing r { s.ring r with producer := v % 2 ^ 32 }

/-- A write of a command ring's enable bit (R70). -/
def State.ringEnable (s : State) (r : Nat) (v : Bool) : State :=
  let a := ringBlock r
  if s.flag CTL_RING_CFG.enable a = v then s
  else
    let s := s.wr CTL_RING_CFG.enable a (b2n v)
    s.iff v fun s =>
      let s := (s.wr CTL_RING_STATE.head a 0).wr CTL_RING_CQ_HEAD.consumed a 0
      let s := (s.wr CTL_RING_STATE.state a 0).wr CTL_RING_STATE.stop_reason a 0
      s.setRing r { s.ring r with producer := 0, cplIndex := 0 }

/-- A write of an event ring's enable bit (R70). -/
def State.evrEnable (s : State) (e : Nat) (v : Bool) : State :=
  let a := evrBlock e
  if s.flag CTL_EVR_CFG.enable a = v then s
  else
    let s := s.wr CTL_EVR_CFG.enable a (b2n v)
    s.iff v fun s =>
      let s := ((s.wr CTL_EVR_STATE.producer a 0).wr CTL_EVR_HEAD.consumed a 0).wr CTL_EVR_STATE.dropped a 0
      { s with mgmt := { s.mgmt with evrSeq := Sparse.del s.mgmt.evrSeq e } }

/-- A write of an event ring's consumed index; what was dropped is reported once there is room (R67). -/
def State.evrHead (s : State) (e v : Nat) : State := (s.wr CTL_EVR_HEAD.consumed (evrBlock e) v).evrOverflow e

/-! ### Fetching (R61, R62) -/

/-- The operation codes of R64. -/
def knownOpcodes : List Nat :=
  [0x000, 0x010, 0x020, 0x021, 0x022, 0x023, 0x024, 0x030, 0x031, 0x040, 0x041, 0x042, 0x050, 0x051, 0x052, 0x053, 0x054, 0x060, 0x061,
   0x070, 0x071, 0x072, 0x073, 0x080]

/-- Opcodes that act for a job; every other one is of package scope and may carry job 0xFFFF (R62, R64). -/
def jobOpcodes : List Nat := [0x050, 0x051, 0x052, 0x053, 0x054]

def Descriptor.opcode (e : Descriptor) : Nat := bits (e.d.getD 0 0) 52 12
def Descriptor.job (e : Descriptor) : Nat := bits (e.d.getD 0 0) 32 16
def Descriptor.fence (e : Descriptor) : Bool := bit (e.d.getD 0 0) 51
/-- Operand quadword Di. -/
def Descriptor.q (e : Descriptor) (i : Nat) : Nat := e.d.getD i 0

/-- Session `n` may submit opcode `op` for job `j` (R63, R429). -/
def State.maySubmit (s : State) (n op j : Nat) : Bool :=
  s.mayOpcode n op && ((j == 0xFFFF && !jobOpcodes.contains op) || s.mayJob n j)

/-- Commands at the front of ring `r` that were read uncorrectable complete with HW_ERROR (R363), and those whose opcode R64 does not
list with UNSUPPORTED, ahead of the checks of R63 and R429 and with no control core running (DESIGN CHOICE, notes/assumptions/65.md). -/
def State.settle (s : State) (r : Nat) : Nat → State
  | 0 => s
  | n + 1 => match (s.ring r).inflight with
    | [] => s
    | e :: _ =>
      if e.bad then (s.complete r stHwError 0 0).settle r n
      else if knownOpcodes.contains e.opcode then s
      else (s.complete r stUnsupported 0 0).settle r n

/-- Fetching is possible on ring `r`: enabled, not STOPPED, a descriptor there, and a completion slot for every command fetched. -/
def State.mayFetch (s : State) (r : Nat) : Bool :=
  let a := ringBlock r
  let x := s.ring r
  s.power.pwrOk && s.flag CTL_RING_CFG.enable a && s.rd CTL_RING_STATE.state a != 2 && x.producer != s.rd CTL_RING_STATE.head a
    && decide (sub32 x.cplIndex (s.rd CTL_RING_CQ_HEAD.consumed a) + x.inflight.length < s.cqSize r)

/-- The descriptor of ring `r` at its head. -/
def State.descriptor (s : State) (r : Nat) : Descriptor :=
  let h := s.rd CTL_RING_STATE.head (ringBlock r)
  let n := s.rd CTL_RING_CFG.owner (ringBlock r)
  let d := Memory.quads s.mem (ringMem r + h % s.ringSize r * 64) 8
  ⟨h, d, n, s.maySubmit n (bits (d.getD 0 0) 52 12) (bits (d.getD 0 0) 32 16), s.rolesWord n, s.credential n, false, false⟩

/-- DESCRIPTOR_FETCH on ring `r`; where `find` says that the descriptor reads uncorrectable, what its completion echoes is a free value. -/
def descriptorFetch (r : Nat) (find : ReadFind) (s : State) : State :=
  let s := s.settle r (s.ring r).inflight.length
  let e := s.descriptor r
  if s.mayFetch r = false ∨ (e.fence = true ∧ (s.ring r).inflight ≠ []) then s
  else
    let s := (s.inc CTL_RING_STATE.head (ringBlock r)).count (ringPage r) 0x80 (r % 32)
    let w := s.free
    let s := (s.iff (readLost find) fun s => s.tickFree).lpRead (ringMem r + e.index % s.ringSize r * 64) 64 find
    let e := if readLost find then { e with d := [w], bad := true } else e
    let s := s.setRing r { s.ring r with inflight := (s.ring r).inflight ++ [e] }
    s.settle r (s.ring r).inflight.length

/-! ### Performing a command -/

/-- The answer of a command: a status with its results, or none while it waits for an event of its own. -/
def State.answer (s : State) (r : Nat) (x : Option (Nat × Nat × Nat)) : State :=
  match x with
  | some (st, c1, c2) => s.complete r st c1 c2
  | none => s.setRing r { s.ring r with waiting := true }

/-- The oldest command of ring `r`, if its opcode is `op` and it has not started; one that firmware performs needs a control core
(R73). -/
def State.front (s : State) (r op : Nat) (fw : Bool) : Option Descriptor :=
  match (s.ring r).inflight with
  | [] => none
  | e :: _ => if e.opcode = op ∧ (s.ring r).waiting = false ∧ (fw = false ∨ s.boot.cores ≠ 0) then some e else none

/-- The oldest command of ring `r` is performed, if it is opcode `op`. -/
def State.perform (s : State) (r op : Nat) (fw : Bool) (act : Descriptor → State → State) : State :=
  let s := s.settle r (s.ring r).inflight.length
  match s.front r op fw with
  | none => s
  | some e =>
    let s := act e s
    s.settle r (s.ring r).inflight.length

/-- As `perform`, under the checks of R63 on opcode and job. -/
def State.performAllowed (s : State) (r op : Nat) (fw : Bool) (act : Descriptor → State → State) : State :=
  s.perform r op fw fun e s => if e.allowed then act e s else s.complete r stPermission 0 0

/-- As `performAllowed`, for an opcode with these staging offsets and lengths: each lies within the window, or the command completes with
PERMISSION before anything else is looked at (R63). -/
def State.performSpans (s : State) (r op : Nat) (fw : Bool) (spans : Descriptor → List (Nat × Nat))
    (act : Descriptor → State → State) : State :=
  s.performAllowed r op fw fun e s =>
    if (spans e).all fun x => stagingOk x.1 x.2 then act e s else s.complete r stPermission 0 0

/-- As `performSpans`, for an opcode that reads its session's staging window at its first span; where `find` says that the read is
uncorrectable, the command completes with HW_ERROR (R363). -/
def State.performStaged (s : State) (r op : Nat) (fw : Bool) (spans : Descriptor → List (Nat × Nat)) (find : ReadFind)
    (act : Descriptor → State → State) : State :=
  s.performSpans r op fw spans fun e s =>
    let x := (spans e).headD (0, 0)
    let s := s.lpRead (stagingBase e.owner + x.1) x.2 find
    if readLost find then s.complete r stHwError 0 0 else act e s

/-! ### NOP and BANK_COMMIT -/

/-- NOP. -/
def opNop (r : Nat) (s : State) : State := s.performAllowed r 0x000 true fun _ s => s.complete r stOk 0 0

/-- BANK_COMMIT: as a write to PG_COMMIT, ordered in the ring, under the rights of its fetch (R428); an accepted one waits for its swap. -/
def opBankCommit (r : Nat) (s : State) : State :=
  s.perform r 0x010 true fun e s =>
    let a := e.q 1
    if a % 4096 ≠ 0 ∨ (blkOfPage a).isNone = true then s.complete r stInvalid 0 0
    else if e.allowed = false ∨ s.mayWriteAs e.roles e.owner a PG_COMMIT.commit_seq.off = false then s.complete r stPermission 0 0
    else match s.commit a e.owner r (bits (e.q 2) 0 32) e.cred with
      | (.ignored, s) => s.complete r stOk 0 0
      | (.denied, s) => s.complete r stPermission 0 0
      | (.refused, s) => s.complete r stCommitSeq 0 0
      | (.accepted, s) => s.answer r none
      | (.pending t, s) => s.complete r stDualPending t 0
      | (.full, s) => s.complete r stBusy 0 0

/-! ### Table opcodes (R150, R154 to R159) -/

/-- A table opcode of session `n` on table `t` completes with BUSY: a die is away, or another session owns die 0's FWD page. -/
def State.tableBusy (s : State) (n t : Nat) : Bool :=
  if t ≤ 1 then (List.range 4).any s.dieAway else s.guarded (fwdPage 0) n

/-- A shadow write of table `t` waits for a drain in progress on it, whose check it must not escape; it is then applied to the new shadow
bank (R159). -/
def State.shadowWaits (s : State) (t : Nat) : Bool := decide (2 ≤ t) && s.draining t

/-- A table opcode, under the checks that all of them share; `spans` are its staging offsets and lengths. -/
def State.tableOp (s : State) (r op : Nat) (act : Descriptor → Nat → State → State)
    (spans : Descriptor → List (Nat × Nat) := fun _ => []) : State :=
  s.performSpans r op false spans fun e s =>
    let t := bits (e.q 1) 0 8
    if 4 ≤ t then s.complete r stInvalid 0 0
    else if s.tableBusy e.owner t then s.complete r stBusy 0 0
    else act e t s

def Descriptor.key (e : Descriptor) : List Nat := [e.q 2, e.q 3, e.q 4, e.q 5]

/-- TABLE_SEARCH. -/
def opTableSearch (r : Nat) (s : State) : State :=
  s.tableOp r 0x020 fun e t s =>
    if keyOk t e.key = false then s.complete r stInvalid 0 0
    else match s.tableSearch t (bits (e.q 1) 8 2) (bits (e.q 1) 12 1) e.key with
      | some v => s.complete r stOk v.1 v.2
      | none => s.complete r stNotFound 0 0

/-- TABLE_NEXT. -/
def opTableNext (r : Nat) (s : State) : State :=
  s.tableOp r 0x021 (spans := fun e => [(e.q 3, 48 * bits (e.q 4) 0 16)]) fun e t s =>
    match s.tableNext t (bits (e.q 1) 8 2) (bits (e.q 1) 12 1) (e.q 2) (bits (e.q 4) 0 16) with
    | none => s.complete r stInvalid 0 0
    | some (recs, next, done) =>
      (s.stage e.owner (e.q 3) recs.flatten).complete r stOk (if done then 2 ^ 64 - 1 else next) recs.length

/-- TABLE_INSERT; `ecc` says that the endpoint entry of the key reads uncorrectable in its home copy (R160). -/
def opTableInsert (r : Nat) (ecc : Bool) (s : State) : State :=
  s.tableOp r 0x022 fun e t s =>
    if s.shadowWaits t then s else
    let s := s.iff (ecc && t == 0 && keyOk 0 e.key) fun s => s.epError (homeDie (e.q 2)) (e.q 2)
    let x := s.tableInsert t (bit (e.q 1) 16) e.key (e.q 6)
    x.2.complete r x.1 0 0

/-- TABLE_DELETE. -/
def opTableDelete (r : Nat) (s : State) : State :=
  s.tableOp r 0x023 fun e t s =>
    if s.shadowWaits t then s else
    let x := s.tableDelete t e.key
    x.2.complete r x.1 0 0

/-- FLUSH_BY_PORT. -/
def opFlushByPort (r : Nat) (s : State) : State :=
  s.tableOp r 0x024 fun e t s =>
    if t ≠ 0 then s.complete r stInvalid 0 0
    else
      let x := s.flushByPort (bits (e.q 1) 8 2) (e.q 3 % 2 ^ 64 * 2 ^ 64 + e.q 2 % 2 ^ 64)
      x.1.complete r stOk x.2 0

/-! ### Routes, ports and bypass (R101 to R106, R155, R199, R412) -/

/-- ROUTE_DRAIN. -/
def opRouteDrain (r : Nat) (s : State) : State :=
  s.performAllowed r 0x030 true fun e s =>
    let t := bits (e.q 1) 0 8
    if t ≠ 2 ∧ t ≠ 3 then s.complete r stInvalid 0 0
    else if s.tableBusy e.owner t then s.complete r stBusy 0 0
    else
      let x := s.drainRequest t (bits (e.q 2) 0 32) r
      x.2.answer r (x.1.map fun st => (st, 0, 0))

/-- PORT_ACCEPT. -/
def opPortAccept (r : Nat) (s : State) : State :=
  s.performAllowed r 0x031 true fun e s =>
    let x := s.portAccept (bits (e.q 1) 0 9)
    x.2.complete r x.1 0 0

/-- BYPASS_ENABLE. -/
def opBypassEnable (r : Nat) (s : State) : State :=
  s.performAllowed r 0x040 true fun e s =>
    s.dualSubmit r e 0x040 0 fun s =>
      let x := s.opBypassEnable r (e.q 1)
      x.2.answer r (x.1.map fun st => (st, 0, 0))

/-- BYPASS_RESET. -/
def opBypassReset (r : Nat) (s : State) : State :=
  s.performAllowed r 0x041 true fun e s =>
    let x := s.opBypassReset r (e.q 1)
    x.2.answer r (x.1.map fun st => (st, 0, 0))

/-- BYPASS_READ. -/
def opBypassRead (r : Nat) (s : State) : State :=
  s.performSpans r 0x042 true (fun e => [(e.q 2, 32)]) fun e s =>
    let x := s.opBypassRead e.owner (e.q 1) (e.q 2)
    x.2.complete r x.1 0 0

/-! ### Groups, flights, triggers and quotas -/

/-- GROUP_WRITE. -/
def opGroupWrite (r : Nat) (find : ReadFind) (s : State) : State :=
  s.performStaged r 0x050 true (fun e => [(e.q 2, 64), (e.q 3, bits (e.q 4) 0 32)]) find fun e s =>
    let x := s.opGroupWrite e.owner r e.d
    x.2.complete r x.1 0 0

/-- GROUP_DISABLE. -/
def opGroupDisable (r : Nat) (s : State) : State :=
  s.performAllowed r 0x051 true fun e s =>
    let x := s.opGroupDisable e.d
    x.2.complete r x.1 0 0

/-- FLIGHT_LOAD. -/
def opFlightLoad (r : Nat) (find : ReadFind) (s : State) : State :=
  s.performStaged r 0x052 true (fun e => [(e.q 2, 4 * bits (e.q 3) 0 10)]) find fun e s =>
    let x := s.opFlightLoad e.owner e.d
    x.2.complete r x.1 0 0

/-- TRIGGER_ARM. -/
def opTriggerArm (r : Nat) (s : State) : State :=
  s.performAllowed r 0x053 true fun e s =>
    let x := s.opTriggerArm e.d
    x.2.complete r x.1 0 0

/-- QUOTA_SET. -/
def opQuotaSet (r : Nat) (s : State) : State :=
  s.performAllowed r 0x054 true fun e s =>
    let x := s.opQuotaSet e.d
    x.2.complete r x.1 0 0

/-! ### Plan, configuration, power, keys, counters -/

/-- PLAN_LOAD. -/
def opPlanLoad (r : Nat) (find : ReadFind) (s : State) : State :=
  s.performStaged r 0x060 true (fun e => [(e.q 1, bits (e.q 2) 0 32)]) find fun e s =>
    let x := s.opPlanLoad r e.owner e.d
    x.2.answer r (x.1.map fun st => (st, 0, 0))

/-- CONFIG_SAVE; `good` says that the image reads back. It waits for a save in progress (R403). -/
def opConfigSave (r : Nat) (good : Bool) (s : State) : State :=
  s.performAllowed r 0x061 true fun _ s =>
    if s.saveFree r then
      let x := s.save good
      x.2.complete r x.1 0 0
    else s

/-- POWER_CAP_SET. -/
def opPowerCapSet (r : Nat) (s : State) : State :=
  s.performAllowed r 0x070 true fun e s =>
    let x := s.opPowerCap (bits (e.q 1) 0 16)
    x.2.complete r x.1 0 0

/-- POWER_CAP_ABOVE_DEFAULT. -/
def opPowerCapAboveDefault (r : Nat) (s : State) : State :=
  s.performAllowed r 0x071 true fun e s => s.opPowerCapAbove r e

/-- KEY_ENROL. -/
def opKeyEnrol (r : Nat) (find : ReadFind) (s : State) : State :=
  s.performStaged r 0x072 true (fun e => [(e.q 2, bits (e.q 3) 0 16)]) find fun e s => s.opKeyEnrol r e

/-- PROTECT_TABLE_COMMIT. -/
def opProtectTableCommit (r : Nat) (s : State) : State :=
  s.performAllowed r 0x073 true fun e s => s.opProtectTableCommit r e

/-- COUNTER_SNAPSHOT, performed by firmware (R73) with the central reader. -/
def opCounterSnapshot (r : Nat) (find : ReadFind) (s : State) : State :=
  s.performStaged r 0x080 true (fun e => [(e.q 1, 8 * bits (e.q 2) 0 16), (e.q 3, 256 * (bits (e.q 2) 0 16 + 1))]) find fun e s =>
    if s.readerOn then
      let x := s.opCounterSnapshot e
      x.2.2.2.complete r x.1 x.2.1 x.2.2.1
    else s

end Sys2Proof.Machine
end

