-- ==== Sys2Proof/Machine/RegRead.lean ====
section
/-! DEFINITION. What a read of a register returns: R12, and the registers that show other state, by page (R53 to R59, R74 and the
register sections of the chapters). -/

namespace Sys2Proof.Machine

/-- What a field shows when it is no stored value: the field, and its value by block base and instance. -/
abbrev View := Fld × (Nat → Nat → Nat)

/-- A view of a field of the page that has one instance. -/
def view (f : Fld) (v : Nat) : View := (f, fun _ _ => v)

/-- PG_STATUS.block_status of a page (R93, R311). -/
def State.blockStatus (s : State) (a : Nat) : Nat :=
  match blkOfPage a with
  | some .optEng => s.rd OPT_ENG_STATUS.cal_state a
  | some .arr =>
    b2n ((s.core (instOfPage a)).array.inState .accumulating).isSome + 2 * b2n (s.fillerActive (instOfPage a)) + 4 * b2n (decide (s.rd ARR_STATUS.duty a < 128))
  | _ => 0

/-- The header's views (R55). PG_CTRL.enable shows in ready and does nothing else: the spec says only that 1 is 'block in service' (DESIGN
CHOICE, notes/assumptions/54.md). -/
def State.hdrViews (s : State) (a : Nat) : List View :=
  [view PG_ID.banked (b2n (pageBanked a)), view PG_ID.die (dieOfPage a), view PG_ID.inst (instOfPage a),
   view PG_ID.block_type (((blkOfPage a).map Blk.code).getD 0),
   view PG_STATUS.block_status (s.blockStatus a), view PG_STATUS.error (b2n (s.rd PG_ERR_COUNT.count a != 0)),
   view PG_STATUS.ready (b2n (s.flag PG_STATUS.ready a && s.flag PG_CTRL.enable a)),
   view PG_IRQ_PEND.block_irq (Nat.land (s.rd PG_IRQ_RAW.block_irq a) (s.rd PG_IRQ_MASK.block_irq a)),
   view PG_IRQ_PEND.guard_denied (s.rd PG_IRQ_RAW.guard_denied a * s.rd PG_IRQ_MASK.guard_denied a),
   view PG_IRQ_PEND.dual_timeout (s.rd PG_IRQ_RAW.dual_timeout a * s.rd PG_IRQ_MASK.dual_timeout a),
   view PG_IRQ_PEND.commit_done (s.rd PG_IRQ_RAW.commit_done a * s.rd PG_IRQ_MASK.commit_done a),
   view PG_IRQ_PEND.err_latched (s.rd PG_IRQ_RAW.err_latched a * s.rd PG_IRQ_MASK.err_latched a),
   view PG_GUARD.locked (b2n (s.rd PG_GUARD.owner a != 0xFF))]

/-! ### Management (R60, R67, R74) -/

/-- CTL_RING_STATE.state: STOPPED is stored; else ACTIVE while the ring is enabled, the sense in which R70 counts RING_ACTIVE. -/
def State.ringState (s : State) (base : Nat) : Nat :=
  if s.rd CTL_RING_STATE.state base = 2 then 2 else s.rd CTL_RING_CFG.enable base

def State.mgtViews (s : State) : List View :=
  let n := s.rd MGT_SESS_SEL.session mgtPkgPage
  let x := s.session n
  let on := fun (b : Bool) => b2n (x.active && b)
  [view MGT_SESS_STATUS.active (b2n x.active), view MGT_SESS_STATUS.admin (on (s.isAdmin n)), view MGT_SESS_STATUS.job (on (s.isJob n)),
   view MGT_SESS_STATUS.observe (on (s.isObserve n)), view MGT_SESS_STATUS.slot (if x.active && !x.ephemeral then x.slot else 0),
   view MGT_SESS_STATUS.qps (if x.active then (s.qpsOf n).length else 0),
   view MGT_SESS_STATUS.idle_ms (if x.active then min ((s.now - x.last) / 1000000) (2 ^ 32 - 1) else 0),
   view MGT_SESS_COUNT.sessions (s.mgmt.sessions.filter fun e => e.2.active).length]

/-! ### Time (R367 to R373): the counters and the servo on every die; TIM_CFG and the settings beside it are die 0's everywhere -/

/-- The offsets of TIM registers that read die 0's values on every die (R368). -/
def timShared (off : Nat) : Bool :=
  off == TIM_CFG.gptp_enable.off || decide (TIM_SET_SEC.seconds.off ≤ off ∧ off ≤ TIM_OFFSET.offset.off + 8)
    || off == TIM_STATUS.switches.off || off == TIM_SWITCH_CFG.timeout_ms.off

/-- The offsets of TIM registers that only die 0 has (R382). -/
def timDie0 (off : Nat) : Bool := decide (TIM_PPS_CFG.offset_ns.off ≤ off ∧ off ≤ TIM_PPS_IN.nanoseconds.off + 8)

def State.timViews (s : State) (a : Nat) : List View :=
  let p := 128 * dieOfPage a + s.rd TIM_TXQ_SEL.port a
  let q := Sparse.get [] s.time.txq p
  let h := q.head?.getD ⟨0, 0, 0, 0, 0, 0⟩
  [view TIM_T0_SEC.seconds (secOf s.time.t0), view TIM_T1_SEC.seconds (secOf s.time.t1),
   (TIM_FREQ.integ, fun _ i => unsgn 32 (s.dom i).integ), (TIM_FREQ.freq, fun _ i => unsgn 32 ((s.dom i).freq + s.refAdjust)),
   (TIM_TXQ_HEAD.seconds, fun _ i => secOf (if i = 0 then h.t0 else h.t1) % 2 ^ 34),
   (TIM_TXQ_HEAD.nanoseconds, fun _ i => nsOf (if i = 0 then h.t0 else h.t1)),
   view TIM_TXQ_META.valid (b2n !q.isEmpty), view TIM_TXQ_META.overflow (b2n (Sparse.get false s.time.txqOverflow p)),
   view TIM_TXQ_META.count q.length, view TIM_TXQ_META.sub_port h.sub, view TIM_TXQ_META.domain h.domain,
   view TIM_TXQ_META.message_type h.msgType, view TIM_TXQ_META.sequence_id h.seqId]

/-! ### Switch (R161, R179, R180, R202, R219) -/

def State.fwdViews (s : State) (d : Nat) : List View :=
  let mine := s.tables.ep.filter fun e => e.1 / 2 ^ 19 == d
  [view FWD_EP_STATUS.foyer s.tables.foyer.length, view FWD_EP_STATUS.static_entries (mine.filter fun e => e.2.static).length,
   view FWD_EP_STATUS.entries mine.length, view FWD_AGE_CFG.interval_ms (if d = 0 then s.rd FWD_AGE_CFG.interval_ms (fwdPage 0) else 0)]

/-- Treads in the ring queues of die `d` in one direction (R192). -/
def State.ringUse (s : State) (d : Nat) (asc : Bool) : Nat := s.ringUseOf d asc 2 + s.ringUseOf d asc 6 + s.ringUseOf d asc 7

def State.bufViews (s : State) (d : Nat) : List View :=
  let used := [Pool.result, .request, .reply, .forward, .headroom].map (s.poolUse d)
  let deep := s.poolUse d .deepHead + s.poolUse d .overflow + s.ringUse d true + s.ringUse d false
  [view BUF_FREE.sram (dieTreads - used.foldl (· + ·) 0), view BUF_FREE.deep (deepTreads (Sparse.get 4 s.sw.deepGib d) - deep),
   view BUF_HEADROOM.sram (s.dieHeadroom d false), view BUF_HEADROOM.deep (s.dieHeadroom d true),
   view BUF_POOL_USE1.forward_size (s.poolSize d .forward)]

/-- GAL_RES_AREA of die `d` (R338 to R349). -/
def State.areaViews (s : State) (d : Nat) : List View :=
  let g := s.rd GAL_RES_SEL.group (galPage d)
  let c := s.rd GAL_RES_SEL.chunk (galPage d)
  let x := s.group g
  let y := s.area g c
  let on := x.residual && decide (c < x.resChunks) && areaDie g c == d
  let b := fun (v : Bool) => b2n (on && v)
  [view GAL_RES_AREA.allocated (b true), view GAL_RES_AREA.spilled (b (x.spilled g c)), view GAL_RES_AREA.fresh (b y.fresh),
   view GAL_RES_AREA.prev_valid (b y.prevValid), view GAL_RES_AREA.held (b y.held), view GAL_RES_AREA.cur_bank (b y.cur),
   view GAL_RES_AREA.next_step (if on then y.next else 0)]

def State.galViews (s : State) (d : Nat) : List View :=
  let topo := match s.boot.plan with
    | none => []
    | some pl =>
      let i := ringPos pl.n pl.hall
      let m := 2 ^ pl.n
      if pl.n = 0 then []
      else
        [view GAL_TOPO.cube_order pl.n, view GAL_TOPO.ring_pos i, view GAL_TOPO.pred_hall (grayHall ((i + m - 1) % m)),
         view GAL_TOPO.pred_group (predGroup pl.n pl.hall), view GAL_TOPO.succ_group (succGroup pl.n pl.hall),
         view GAL_TOPO.succ_hall (grayHall ((i + 1) % m))]
  let dram := (s.coll.groups.map fun e => e.2.areas.getD d 0).foldl (· + ·) 0
  let all := (s.coll.groups.map fun e => e.2.areasOn e.1 d).foldl (· + ·) 0
  topo ++ [view GAL_BANISTER_STATUS.asc_used (s.ringUse d true), view GAL_BANISTER_STATUS.desc_used (s.ringUse d false),
    view GAL_RES_STATUS.dram_areas dram, view GAL_RES_STATUS.spilled_areas (all - dram)] ++ s.areaViews d

/-- SCH_GATE_ENTRY shows the operational copy while SCH_GATE_VIEW.view is 1. -/
def State.schViews (s : State) (p : Nat) : List View :=
  if s.flag SCH_GATE_VIEW.view (schPage p) then
    let g := s.gates p
    [(SCH_GATE_ENTRY.states, fun _ i => Sparse.get 0 g.entries i / 2 ^ 32),
     (SCH_GATE_ENTRY.interval_ns, fun _ i => Sparse.get 0 g.entries i % 2 ^ 32)]
  else []

/-! ### Landings, groups, triggers, cores (R290 to R292, R311, R336, R337) -/

def State.lndViews (s : State) (d : Nat) : List View :=
  let mine := s.coll.dir.filter fun e => e.key.home == d
  let job := s.rd LND_JOB_SEL.job (lndPage d)
  let q := if d = 0 then s.quota job else (0, 0)
  let u := if d = 0 then s.jobUse job else (0, 0)
  [(LND_CORE_USE.ctx, fun _ i => (s.coreUse (8 * d + i)).1), (LND_CORE_USE.sram_kib, fun _ i => (s.coreUse (8 * d + i)).2),
   view LND_JOB_SEL.job (if d = 0 then job else 0),
   view LND_JOB_QUOTA.ctx (min q.1 (2 ^ 17 - 1)), view LND_JOB_QUOTA.sram_kib (min q.2 (2 ^ 20 - 1)),
   view LND_JOB_USE.ctx u.1, view LND_JOB_USE.sram_kib u.2,
   view LND_DIR_STATUS.entries mine.length, view LND_DIR_STATUS.tombstones (mine.filter fun e => e.tomb.isSome).length,
   view LND_DIR_STATUS.pass (mine.filter fun e => e.pass && e.tomb.isNone).length]

def State.grpViews (s : State) (d : Nat) : List View :=
  let x := s.group (s.rd GRP_ENTRY_SEL.group (grpPage d))
  [(GRP_ENTRY.quadword, fun _ i => x.g i),
   view GRP_STATUS.enabled (s.coll.groups.filter fun e => e.2.memberCount != 0).length,
   view GRP_STATUS.records ((s.coll.groups.map fun e => e.2.members.length).foldl (· + ·) 0)]

def State.trgViews (s : State) (d : Nat) : List View :=
  let x := s.trigger (16384 * d + s.rd TRG_SEL.index (trgPage d))
  [view TRG_STATE.state x.state, view TRG_STATE.auto_rearm (b2n x.rearm), view TRG_STATE.count x.count,
   view TRG_SOURCE.operand x.source, view TRG_ACTION.operand x.action, view TRG_TAG.operand x.tag]

def State.cmbViews (s : State) (c : Nat) : List View :=
  let x := s.core c
  let n := s.rd CMB_SLOT_SEL.slot (cmbPage c)
  let slot := x.slots.find? fun e => e.1 == n
  let y := (slot.map fun e => e.2).getD ⟨[], 0, 0⟩
  let bound := (s.coll.dir.map fun e => if (s.group e.key.group).flight = n then (e.landings.filter fun l => l.core == c).length else 0).foldl
    (· + ·) 0
  [view CMB_SLOT_STATUS.loaded (b2n slot.isSome), view CMB_SLOT_STATUS.length y.words.length, view CMB_SLOT_STATUS.job y.job,
   view CMB_SLOT_STATUS.crc y.crc, view CMB_SLOT_USE.activations (Sparse.get 0 x.uses n), view CMB_SLOT_USE.landings bound,
   view CMB_ACT_STATUS.active ((x.ctxs.map fun e => 2 ^ e.1).foldl (· + ·) 0), view CMB_ACT_STATUS.waiting (min x.events.length 65535),
   view CMB_ACT_STATUS.outstanding x.operations.length]

def BankState.code : BankState → Nat
  | .free => 0
  | .accumulating => 1
  | .chainHeld => 2
  | .draining => 3

def State.arrViews (s : State) (c : Nat) : List View :=
  let x := (s.core c).array
  let run := x.inState .accumulating
  let f := match run.bind fun b => (x.bank b).pass with
    | some p => Nat.log2 (fold p.m p.n)
    | none => 0
  [view ARR_STATUS.bank0_tag x.bank0.tag, view ARR_STATUS.bank1_tag x.bank1.tag, view ARR_STATUS.bank0_state x.bank0.state.code,
   view ARR_STATUS.bank1_state x.bank1.state.code, view ARR_STATUS.log2_fold f,
   view ARR_STATUS.ramping (b2n (decide (s.rd ARR_STATUS.duty (arrPage c) < 128))), view ARR_STATUS.pass_active (b2n run.isSome),
   view ARR_STATUS.filler_active (b2n (s.fillerActive c)),
   view ARR_STALL.queued x.queue.length]

/-! ### Ports, discovery, records, health, security, boot -/

def State.portViews (s : State) (p : Nat) : List View :=
  match s.boot.plan with
  | none => []
  | some _ => [view OPT_PORT_CFG.role (s.portRec p).role, view OPT_PORT_CFG.breakout (s.portRec p).breakout]

def State.discViews (s : State) (d : Nat) : List View :=
  let x := s.sub (512 * d + s.rd CTL_DISC_SEL.port (ctlDiePage d))
  let n := x.nbr
  [view CTL_DISC_STATE.hold_reason x.holdReason, view CTL_DISC_STATE.cabling_swap (b2n x.cablingSwap),
   view CTL_DISC_STATE.accepted_by_command (b2n x.byCommand), view CTL_DISC_STATE.two_way (b2n x.twoWay),
   view CTL_DISC_STATE.state (match x.disc with
    | .notUp => 0
    | .unaccepted => 1
    | .accepted => 2
    | .held => 3),
   view CTL_DISC_NEIGHBOUR.role n.role, view CTL_DISC_NEIGHBOUR.hall n.hall, view CTL_DISC_NEIGHBOUR.rail n.rail,
   view CTL_DISC_NEIGHBOUR.plane n.plane, view CTL_DISC_NEIGHBOUR.spine_index n.spine, view CTL_DISC_NEIGHBOUR.leaf n.leaf,
   view CTL_DISC_NEIGHBOUR.port n.port, view CTL_DISC_NEIGHBOUR.group_or_uplink n.gou, view CTL_DISC_SERIAL.serial (if x.heard then n.serial else 0),
   view CTL_DISC_LLDP.truncated (b2n x.lldpTruncated), view CTL_DISC_LLDP.length x.lldp.length,
   (CTL_DISC_LLDP_DATA.bytes, fun _ i => leAt x.lldp (8 * i) 8)]

/-- The record that CTL_ERR_SEL names: zeros where it is no longer, or not yet, held. -/
def State.errView (s : State) (k : Nat) : Nat :=
  let d := s.rd CTL_ERR_SEL.die ctlPkgPage
  let i := s.rd CTL_ERR_SEL.index ctlPkgPage
  let n := s.errIndex d
  if n ≤ i ∨ 2 ^ 24 < n - i then 0 else (Sparse.get [] s.rel.records (d * 2 ^ 24 + i % 2 ^ 24)).getD k 0

def State.ctlPkgViews (s : State) : List View :=
  let p := s.rd CTL_HEALTH_SEL.port ctlPkgPage
  let h := s.portHealth p
  [view CTL_PKG_SERIAL.serial Config.packageSerial.toNat, (CTL_ERR_REC.quadword, fun _ k => s.errView k),
   view CTL_HEALTH_PORT.score h.score, view CTL_HEALTH_PORT.factor (s.factorOf p), view CTL_HEALTH_PORT.capped (b2n h.capped),
   view CTL_HEALTH_PORT.quarantined (b2n h.quarantined),
   view CTL_QUAR_STATUS.quarantined (s.rel.health.filter fun e => e.2.quarantined).length,
   view CTL_QUAR_STATUS.capped (s.rel.health.filter fun e => e.2.capped).length,
   view CTL_QUAR_STATUS.in_window s.begunNow.length]

/-- SEC_PT_DATA: the active entry, or the shadow entry under PG_CTRL.read_shadow (R428). -/
def State.ptEntry (s : State) : Nat :=
  let i := s.rd SEC_PT_SEL.index secPage
  let sh := s.flag PG_CTRL.read_shadow secPage
  match s.rd SEC_PT_SEL.table secPage with
  | 0 => Sparse.get 0 (if sh then s.sec.shadow0 else s.sec.active0) (i % 16)
  | 1 => Sparse.get 0 (if sh then s.sec.shadow1 else s.sec.active1) i
  | _ => 0

def State.secViews (s : State) : List View :=
  let m := digestBytes (Sparse.get 0 s.sec.meas (s.rd SEC_MEAS_SEL.index secPage))
  let id := natBe 64 Config.identityKey.toNat
  [(SEC_ID_PUB.key, fun _ i => leAt id (8 * i) 8), (SEC_MEAS.value, fun _ i => leAt m (8 * i) 8), view SEC_PT_DATA.entry s.ptEntry]

/-- Free credits of pool `i` on link `k` of die `d`, as MSH_CREDIT shows them (R46). -/
def State.creditView (s : State) (d k i : Nat) : Nat := min 0xFFFF (s.meshFree d (if k < d then k else k + 1) i)

/-- The views of a page of kind `b`. -/
def State.blkViews (s : State) (a : Nat) (b : Blk) : List View :=
  let d := dieOfPage a
  let i := instOfPage a
  match b with
  | .ctlRing => [(CTL_RING_STATE.state, fun base _ => s.ringState base)]
  | .mgtPkg => s.mgtViews
  | .mgtPort => [view MGT_PORT_STATUS.qps_ready
      (s.mgmt.qps.filter fun e => e.1 / 64 == i && decide (e.2.mode = .ready)).length]
  | .msh => [(MSH_LINK.peer, fun _ k => if k < d then k else k + 1),
      (MSH_CREDIT.requests, fun _ k => s.creditView d k 0), (MSH_CREDIT.replies, fun _ k => s.creditView d k 1),
      (MSH_CREDIT.results, fun _ k => s.creditView d k 2), (MSH_CREDIT.forwarded, fun _ k => s.creditView d k 3)]
  | .tim => s.timViews a
  | .fwd => s.fwdViews d
  | .buf => s.bufViews d
  | .gal => s.galViews d
  | .schPort => s.schViews i
  | .lnd => s.lndViews d
  | .grp => s.grpViews d
  | .trg => s.trgViews d
  | .cmb => s.cmbViews i
  | .arr => s.arrViews i
  | .optPort => (OPT_LANE_RX_PWR.lane, fun _ k => if s.calState (engOfPort i) = calIdle then 0 else (Config.freeBits (s.freeCtr + k)).toNat)
      :: (OPT_LANE_TX_PWR.lane, fun _ k => if s.calState (engOfPort i) = calIdle then 0 else (Config.freeBits (s.freeCtr + 4 + k)).toNat)
      :: view OPT_PRBS.chk_lock (if s.rd OPT_PRBS.chk_pattern a = 0 then 0 else s.free) :: s.portViews i
  | .f2f => [view F2F_STATUS.ready (b2n (s.dramReady d))]
  | .boot => [view BOOT_SAVE.pending (b2n s.savePending), view BOOT_SAVE.busy (b2n s.boot.writing.isSome)]
  | .ctlDie => s.discViews d
  | .ctlPkg => s.ctlPkgViews
  | .sec => s.secViews
  | _ => []

/-- Free values that one register read may take. -/
def readFree : Nat := 16

/-- The value of the field at a place of page `a`: zero for a WO field (R12), a view, or what is stored. -/
def State.readField (s : State) (a off : Nat) (vs : List View) (p : Place) : Nat :=
  if p.fld.acc = .wo then 0
  else match vs.find? fun x => decide (x.1 = p.fld) with
    | some x => x.2 p.base p.inst % 2 ^ p.fld.w
    | none =>
      if bankedAt a off && s.flag PG_CTRL.read_shadow a then s.shadowRd p.fld p.base p.inst else s.rd p.fld p.base p.inst

/-- A read of the register at offset `off` of page `a`: its fields at their places, reserved bits zero (R10, R12). -/
def State.readReg (s : State) (a off : Nat) : Nat :=
  match blkOfPage a with
  | none => 0
  | some b =>
    if b = .tim ∧ dieOfPage a ≠ 0 ∧ timDie0 off = true then 0 else
    let a' := if b = .tim ∧ timShared off = true then timPage 0 else a
    let vs := if off < 0x100 then s.hdrViews a' else if 0xF00 ≤ off then [] else s.blkViews a' b
    ((placesAt a' off).map fun p => s.readField a' off vs p * 2 ^ p.fld.loAt p.inst).foldl (· + ·) 0

/-- Session `n` may not read the register at RDMA address `addr` (R53, R69, R429): no page is mapped there (false), or its rights do not
cover it (true). -/
def State.readRefused (s : State) (n addr : Nat) : Option Bool :=
  let a := addr / 0x1000 * 0x1000
  if (blkOfPage a).isNone then some false else if s.mayRead n a (addr % 0x1000) then none else some true

/-- A read of TIM_T0_SEC or TIM_T1_SEC latches the same counter's nanoseconds and fraction (R369). -/
def State.latchTime (s : State) (a off : Nat) : State :=
  if blkOfPage a ≠ some .tim then s
  else if off = TIM_T0_SEC.seconds.off then
    (s.wr TIM_T0_NS.nanoseconds a (nsOf s.time.t0)).wr TIM_T0_NS.fraction a (fracOf s.time.t0)
  else if off = TIM_T1_SEC.seconds.off then
    (s.wr TIM_T1_NS.nanoseconds a (nsOf s.time.t1)).wr TIM_T1_NS.fraction a (fracOf s.time.t1)
  else s

/-- A read by session `n` of a register that it may read. -/
def State.sessionRead (s : State) (addr : Nat) : Nat × State :=
  let a := addr / 0x1000 * 0x1000
  (s.readReg a (addr % 0x1000), (s.latchTime a (addr % 0x1000)).tickFree readFree)

end Sys2Proof.Machine
end

