-- ==== Sys2Proof/Machine/RegWrite.lean ====
section
/-! DEFINITION. What a write to a register does: R12, the rights of R53 and R429, and the effects that the register sections give their
fields. -/

namespace Sys2Proof.Machine

/-! ### Fields (R12) -/

/-- Register word `v` written to the field at a place: RO and WO fields take nothing here. -/
def State.putField (s : State) (v : Nat) (p : Place) : State :=
  let x := p.fld.legal (p.base / 4096 * 4096) (bits v (p.fld.loAt p.inst) p.fld.w)
  match p.fld.acc with
  | .rw | .rws => s.wr p.fld p.base x p.inst
  | .w1c => s.wr p.fld p.base (s.rd p.fld p.base p.inst - Nat.land (s.rd p.fld p.base p.inst) x) p.inst
  | _ => s

/-- Register word `v` written to the register at offset `off` of page `a`, fields for which `ok` fails left as they are. -/
def State.putSome (s : State) (a off v : Nat) (ok : Fld → Bool) : State :=
  s.each ((placesAt a off).filter fun p => ok p.fld) fun p s => s.putField v p

/-- Register word `v` written to every field of a register. -/
def State.putReg (s : State) (a off v : Nat) : State := s.putSome a off v fun _ => true

/-- The field of a written word. -/
def Fld.of (f : Fld) (v : Nat) (i : Nat := 0) : Nat := bits v (f.loAt i) f.w

/-! ### Header (R55 to R59) and counters (R453) -/

/-- A write to the page header. Of PG_CTRL a session without ADMIN writes only the selector field read_shadow (R402, R429). -/
def State.writeHdr (s : State) (who a off v : Nat) : State :=
  if off = PG_CTRL.enable.off ∧ s.isAdmin who = false then s.putSome a off v fun f => f == PG_CTRL.read_shadow
  else if off = PG_CTRL.enable.off then
    let s := s.putReg a off v
    if PG_CTRL.soft_reset.of v = 1 then s.pageReset a else s
  else if off = PG_IRQ_MASK.block_irq.off then s.irqEdge a fun s => s.putReg a off v
  else if off = PG_SHADOW_SEQ.shadow_seq.off then
    if s.guarded a who then s.guardDenied a who off else if pageBanked a then s.putReg a off v else s
  else if off = PG_COMMIT.commit_seq.off then
    if pageBanked a then s.commitWrite a who v else s.iff (s.guarded a who) fun s => s.guardDenied a who off
  else if off = PG_GUARD.owner.off then s.guardWrite a who (PG_GUARD.owner.of v)
  else s.putReg a off v

/-- A counter or select; a select written is marked for the reader's next record of the page (R458). -/
def State.writeCtr (s : State) (a off v : Nat) : State :=
  let s := s.putReg a off v
  s.iff (decide (0xF80 ≤ off)) fun s =>
    { s with reader := { s.reader with changed := Sparse.upd 0 s.reader.changed a fun m => Nat.lor m (2 ^ ((off - 0xF80) / 8)) } }

/-! ### Rings (R60, R67, R69, R70) -/

/-- An 8-bit qp field names a queue pair that session `o` holds. -/
def State.qpHeld (s : State) (o x : Nat) : Bool :=
  let q := s.qp (x / 64) (x % 64)
  decide (q.mode ≠ .free) && q.session == o && o != 0xFF

/-- A write of `v` at `off` of the ring block at `base` names in the field `qp` a queue pair that the owner `o` does not hold, whether the
ring is enabled or not (R69). -/
def State.badQp (s : State) (base off v : Nat) (o : Nat) (qp : Fld) : Bool :=
  base + qp.off == base / 4096 * 4096 + off && !s.qpHeld o (qp.of v)

/-- A write of `v` to a register of the ring block at `base`, enabled or not: while the ring is enabled the fields of `fixed` are left, and
the write is counted under RING_ACTIVE where its register holds one of them alone or it would change one; a write whose qp field names no
queue pair of the owner `o` is discarded and counted under R53. -/
def State.ringPut (s : State) (who base off v : Nat) (enabled : Bool) (o : Nat) (qp : Fld) (fixed : List Fld) : State :=
  let a := base / 4096 * 4096
  let here := fun (f : Fld) => decide (f ∈ fixed) && base + f.off == a + off
  let locked := enabled && fixed.any fun f => here f && (f.w == 64 || f.legal a (f.of v) != s.rd f base)
  if s.badQp base off v o qp then s.refuseAccess who true off
  else
    let s := s.putSome a off v fun f => !(enabled && fixed.contains f) && f != CTL_RING_CFG.enable && f != CTL_EVR_CFG.enable
    s.iff locked fun s => s.pageError a 0x000D who (offDetail off)

def State.writeRing (s : State) (who a off v : Nat) : State :=
  let r := instOfPage a * 32 + (off - 0x100) / 0x70
  let base := ringBlock r
  let o := a + off - base
  let on := s.flag CTL_RING_CFG.enable base
  let put := fun (s : State) => s.ringPut who base off v on (s.rd CTL_RING_CFG.owner base) CTL_RING_CQ_CFG.qp
    [CTL_RING_CFG.log2_entries, CTL_RING_CQ_ADDR.address, CTL_RING_CQ_CFG.rkey, CTL_RING_CQ_CFG.qp, CTL_RING_CQ_CFG.log2_entries]
  if 32 ≤ (off - 0x100) / 0x70 then s
  else if o = CTL_RING_DOORBELL.producer.off then s.doorbell r (CTL_RING_DOORBELL.producer.of v)
  else if o = CTL_RING_CFG.enable.off then (put s).ringEnable r (CTL_RING_CFG.enable.of v == 1)
  else put s

def State.writeEvr (s : State) (who a off v : Nat) : State :=
  let e := instOfPage a * 32 + (off - 0x100) / 0x70
  let base := evrBlock e
  let o := a + off - base
  let on := s.flag CTL_EVR_CFG.enable base
  let put := fun (s : State) => s.ringPut who base off v on (s.rd CTL_EVR_CFG.owner base) CTL_EVR_CFG.qp
    [CTL_EVR_ADDR.address, CTL_EVR_CFG.rkey, CTL_EVR_CFG.qp, CTL_EVR_CFG.log2_entries]
  if 32 ≤ (off - 0x100) / 0x70 then s
  else if o = CTL_EVR_HEAD.consumed.off then s.evrHead e (CTL_EVR_HEAD.consumed.of v)
  else if s.badQp base off v (s.rd CTL_EVR_CFG.owner base) CTL_EVR_CFG.qp then put s
  else if o = CTL_EVR_CFG.enable.off then (put s).evrEnable e (CTL_EVR_CFG.enable.of v == 1)
  else put s

/-! ### Optics and bypass (R85, R92 to R95, R108) -/

def State.writeEng (s : State) (a off v : Nat) : State :=
  let e := instOfPage a
  let old := s.rd OPT_ENG_CTRL.laser_enable a
  let s := s.putReg a off v
  if off ≠ OPT_ENG_CTRL.laser_enable.off then s
  else
    let new := s.rd OPT_ENG_CTRL.laser_enable a
    let s := s.iff (old != new && (s.module e).associated && decide (calLaserWait ≤ s.calState e)) fun s =>
      s.outputs e new
    s.iff (OPT_ENG_CTRL.recal.of v == 1) fun s => s.recal e

def State.writePort (s : State) (a off v : Nat) : State :=
  let p := instOfPage a
  if off ≠ OPT_PORT_CFG.sub_enable.off then s.putReg a off v
  else
    let sub := s.rd OPT_PORT_CFG.sub_enable a
    let sleep := s.flag OPT_PORT_CFG.sleep a
    let loop := s.rd OPT_PORT_CFG.loopback a
    let s := s.putReg a off v
    let s := s.wr OPT_PORT_CFG.sub_enable a (s.rd OPT_PORT_CFG.sub_enable a % 2 ^ subCount (s.portRec p).breakout)
    let s := s.subEnable p sub (s.rd OPT_PORT_CFG.sub_enable a)
    let now := s.flag OPT_PORT_CFG.sleep a
    let s := if now && !sleep then s.portSleep p else if !now && sleep then s.startPort p else s
    s.iff (loop == 0 && s.rd OPT_PORT_CFG.loopback a != 0) fun s => s.loopbackOn p

/-! ### Buffers (R166) and schedulers (R207, R210, R213) -/

/-- A write to the BUF page of die `d` that is performed: the thresholds of R168 may move with it. -/
def State.bufPut (s : State) (d : Nat) (put : State → State) : State := (put s).pfcAll d

def State.writeBuf (s : State) (who a off v : Nat) : State :=
  let d := dieOfPage a
  let sum := fun (r q y h : Nat) => r + q + y + s.dieHeadroom d false + h
  let hold := s.rd BUF_HOLD_CFG.hold_floor a
  if off = BUF_POOL_SIZE.result.off then
    if dieTreads < sum (BUF_POOL_SIZE.result.of v) (BUF_POOL_SIZE.request.of v) (BUF_POOL_SIZE.reply.of v) hold then
      s.pageError a 0x0005 who (offDetail off)
    else s.bufPut d fun s => s.putReg a off v
  else if off = BUF_HOLD_CFG.hold_floor.off then
    let bad := decide (dieTreads < sum (s.rd BUF_POOL_SIZE.result a) (s.rd BUF_POOL_SIZE.request a) (s.rd BUF_POOL_SIZE.reply a)
      (BUF_HOLD_CFG.hold_floor.of v))
    let s := s.bufPut d fun s => s.putSome a off v fun f => !(bad && f == BUF_HOLD_CFG.hold_floor)
    s.iff bad fun s => s.pageError a 0x0005 who (offDetail off)
  else s.bufPut d fun s => s.putReg a off v

/-- A write to the settings of the buckets with keys `ks`: one is full once enabled; otherwise it keeps its tokens up to the new burst, and
its rate until the next update (R207, R210). -/
def State.bucketPut (s : State) (ks : List Nat) (put : State → State) : State :=
  let old := ks.map fun k => (k, (s.bucketCfg k).enable, s.tokens k, s.rateNow k)
  (put s).each old fun x s =>
    let k := x.1
    if !x.2.1 && (s.bucketCfg k).enable then
      { s with sw := { s.sw with buckets := Sparse.del s.sw.buckets k, rates := Sparse.del s.sw.rates k } }
    else
      let s := s.setTokens k x.2.2.1
      if x.2.2.2 = (s.bucketCfg k).add then { s with sw := { s.sw with rates := Sparse.del s.sw.rates k } }
      else { s with sw := { s.sw with rates := Sparse.set s.sw.rates k x.2.2.2 } }

/-- A write that may change weights, given by key with the reading of each: one replaced applies until the next round (R210). -/
def State.weightPut (s : State) (ks : List (Nat × (State → Nat))) (put : State → State) : State :=
  let old := ks.map fun k => (k, k.2 s)
  (put s).each old fun x s =>
    s.iff (decide (x.2 ≠ x.1.2 s) && !Sparse.has s.sw.weights x.1.1) fun s =>
      { s with sw := { s.sw with weights := Sparse.set s.sw.weights x.1.1 x.2 } }

/-- Offsets of the admin gate list. -/
def gateAdmin (off : Nat) : Bool :=
  off == SCH_GATE_ADMIN_CFG.enable.off || off == SCH_GATE_ADMIN_CYCLE.cycle_ns.off || off == SCH_GATE_ADMIN_BASE.seconds.off
    || decide (SCH_GATE_ENTRY.states.off ≤ off ∧ off < SCH_GATE_ENTRY.states.off + 2048)

def State.writeSch (s : State) (who a off v : Nat) : State :=
  let p := instOfPage a
  if gateAdmin off && s.flag SCH_GATE_STATUS.change_pending a then s.pageError a 0x0006 who (offDetail off)
  else if off = SCH_GATE_CHANGE.request.off then
    let s := s.iff (SCH_GATE_CHANGE.cancel.of v == 1) fun s => gateChangeCancel p s
    s.iff (SCH_GATE_CHANGE.request.of v == 1) fun s => gateChangeRequest who p s
  else if 0x100 ≤ off ∧ off < 0x200 then s.bucketPut [32 * p + (off - 0x100) / 8] fun s => s.putReg a off v
  else if 0x200 ≤ off ∧ off < 0x300 then s.bucketPut [16384 + 32 * p + (off - 0x200) / 8] fun s => s.putReg a off v
  else if off = SCH_PORT_CFG.strict_mask.off then
    let old := s.rd SCH_PORT_CFG.strict_mask a
    let s := s.putReg a off v
    let new := s.rd SCH_PORT_CFG.strict_mask a
    { s with sw := { s.sw with credit := Sparse.delIf s.sw.credit fun k => k / 32 == p && bit old (k % 8) && !bit new (k % 8) } }
  else
    s.weightPut ((List.range 32).map fun i => (32 * p + i, fun s => s.rd SCH_WEIGHT.weight a i)) fun s => s.putReg a off v

def State.writeGal (s : State) (a off v : Nat) : State :=
  let d := dieOfPage a
  let k := (off - 0x200) / 8
  if 0x200 ≤ off ∧ off < 0x400 then
    let sets := s.sw.slotCredit.filter fun e => e.1 / 64 / 4096 == d && e.1 % 64 == k && decide (0 < e.2)
    s.bucketPut ((List.range 128).map fun q => 32768 + 64 * (128 * d + q) + k) fun s =>
      s.weightPut (sets.map fun e => (16384 + e.1, fun s => s.rd GAL_SLOT_CFG.weight a k)) fun s => s.putReg a off v
  else
    let s := s.putReg a off v
    s.iff (s.rd GAL_SPRAY_CFG.decay_ns a == 0) fun s =>
      { s with sw := { s.sw with spray := Sparse.delIf s.sw.spray fun k => k / 8192 == d } }

/-! ### Time (R368 to R374, R379) -/

def State.writeTim (s : State) (who a off v : Nat) : State :=
  let d := dieOfPage a
  if off = TIM_TXQ_SEL.port.off then
    let s := s.putReg a off v
    s.iff (TIM_TXQ_SEL.pop.of v == 1) fun s => txqPop d s
  else if off = TIM_TXQ_META.overflow.off then
    let p := 128 * d + s.rd TIM_TXQ_SEL.port a
    s.iff (TIM_TXQ_META.overflow.of v == 1) fun s => { s with time := { s.time with txqOverflow := Sparse.del s.time.txqOverflow p } }
  else if d ≠ 0 ∧ (timShared off = true ∨ timDie0 off = true) then s
  else if off = TIM_CFG.gptp_enable.off then
    let m0 := s.domMode 0
    let m1 := s.domMode 1
    let s := s.putReg a off v
    let s := s.iff (s.domMode 0 != m0) fun s => domainModeWrite 0 (s.domMode 0) s
    s.iff (s.domMode 1 != m1) fun s => domainModeWrite 1 (s.domMode 1) s
  else if off = TIM_SET_CTRL.op.off then
    let n := TIM_SET_CTRL.domain.of v
    match TIM_SET_CTRL.op.of v with
    | 1 => timSet n s
    | 2 => timAdd n s
    | _ => s
  else if off = TIM_OFFSET.offset.off then timOffsetWrite who 0 (sgn 64 v) s
  else if off = TIM_OFFSET.offset.off + 8 then timOffsetWrite who 1 (sgn 64 v) s
  else if off = TIM_PPS_CFG.out_enable.off then
    let s := s.putReg a off v
    s.iff (d == 0 && !s.flag TIM_PPS_CFG.out_enable a) fun s => s.ppsLow
  else s.putReg a off v

/-! ### Power (R388 to R390, R393, R396) -/

def State.writePwrDie (s : State) (who a off v : Nat) : State :=
  let d := dieOfPage a
  if off ≠ PWR_DIE_CTRL.gate_mask.off then s.putReg a off v
  else
    let old := s.rd PWR_DIE_CTRL.standby_req a
    let new := PWR_DIE_CTRL.standby_req.of v
    let s := ((s.wr PWR_DIE_CTRL.gate_mask a (PWR_DIE_CTRL.gate_mask.of v)).gateWrite d).standbyStep
    if d = 0 then s.iff (new == 1) fun s => s.pageError a 0x000A who (offDetail off)
    else s.iff (old != new) fun s => (s.wr PWR_DIE_CTRL.standby_req a new).standbyWrite d (new == 1)

/-- PWR_FAULT: a bit clears only once its cause has ended. -/
def State.clearFaults (s : State) (a off v : Nat) : State :=
  s.putReg a off (v - Nat.land v s.power.causes)

def State.writePwrPkg (s : State) (who a off v : Nat) : State :=
  if bankedAt a off then
    if s.guarded a who then s.guardDenied a who off
    else if s.flag PG_STATUS.dual_pending a then s.pageError a 0x0008 who (offDetail off)
    else s.bankedWrite off v
  else if off = PWR_FAULT.boot_mem.off then s.clearFaults a off v
  else if off = PWR_PKG_CTRL.standby_req.off then
    let old := s.flag PWR_PKG_CTRL.standby_req a
    let s := s.putReg a off v
    s.iff (!old && s.flag PWR_PKG_CTRL.standby_req a) fun s => s.pkgStandbyBegin
  else s.putReg a off v

/-! ### Control and security (R397, R398, R424, R428, R443, R464) -/

def State.writeCtlDie (s : State) (who a off v : Nat) : State :=
  let d := dieOfPage a
  if off ≠ CTL_DIE_RESET.die_reset.off then s.putReg a off v
  else
    let s := s.iff (CTL_DIE_RESET.die_reset.of v == 1) fun s => s.dieReset who d
    s.iff (CTL_DIE_RESET.warm_reset.of v == 1 && d == 0) fun s => s.warmEnter 2

/-- A write of a protected table's shadow entry. -/
def State.ptWrite (s : State) (who v : Nat) : State :=
  let t := s.rd SEC_PT_SEL.table secPage
  let i := s.rd SEC_PT_SEL.index secPage
  let off := SEC_PT_DATA.entry.off
  if s.guarded secPage who then s.guardDenied secPage who off
  else if s.tableLocked t then (s.pageError secPage 0x0008 who (offDetail off)).count secPage 0x84
  else if t = 0 ∧ i < 16 then { s with sec := { s.sec with shadow0 := Sparse.set s.sec.shadow0 i v } }
  else if t = 1 then { s with sec := { s.sec with shadow1 := Sparse.set s.sec.shadow1 i v } }
  else s

def State.writeSec (s : State) (who a off v : Nat) : State :=
  if off = SEC_PT_DATA.entry.off then s.ptWrite who v
  else
    let s := s.putReg a off v
    s.iff (off == SEC_QUOTE_CTRL.request.off && SEC_QUOTE_CTRL.request.of v == 1) fun s => s.quote who

/-- GRP_REPL_SEL (R291). -/
def State.writeGrp (s : State) (a off v : Nat) : State :=
  let s := s.putReg a off v
  if off ≠ GRP_REPL_SEL.set.off then s
  else match GRP_REPL_SEL.op.of v with
    | 1 => grpReplLoad (dieOfPage a) s
    | 2 => grpReplStore (dieOfPage a) s
    | _ => s

/-! ### The write -/

/-- Session `who` writes `v` to the block register at offset `off` of page `a`, of kind `b`. -/
def State.writeBlk (s : State) (who a off v : Nat) (b : Blk) : State :=
  let i := instOfPage a
  match b with
  | .ctlRing => s.writeRing who a off v
  | .ctlEvr => s.writeEvr who a off v
  | .optEng => s.writeEng a off v
  | .optPort => s.writePort a off v
  | .byp =>
    let s := s.putReg a off v
    s.iff (off == BYP_CTRL.readback.off && BYP_CTRL.readback.of v == 1 && s.bypAlive i) fun s => s.readbackNow i
  | .fwd => if off = FWD_AGE_CFG.interval_ms.off ∧ dieOfPage a ≠ 0 then s else s.putReg a off v
  | .buf => s.writeBuf who a off v
  | .schPort => s.writeSch who a off v
  | .gal => s.writeGal a off v
  | .lnd => if off = LND_JOB_SEL.job.off ∧ dieOfPage a ≠ 0 then s else s.putReg a off v
  | .grp => s.writeGrp a off v
  | .xse => if off = XSE_INJECT.arm.off then xseInject i v s else s.putReg a off v
  | .arr => if off = ARR_INJECT.arm.off then arrInject i v s else s.putReg a off v
  | .vec => if off = VEC_INJECT.arm.off then vecInject i v s else s.putReg a off v
  | .tim => s.writeTim who a off v
  | .pwrDie => s.writePwrDie who a off v
  | .pwrPkg => s.writePwrPkg who a off v
  | .ctlDie => s.writeCtlDie who a off v
  | .ctlPkg => if off = CTL_RETIRE.retired.off then s.retireWrite (CTL_RETIRE.retired.of v) else s.putReg a off v
  | .ctrPkg =>
    let s := s.putReg a off v
    s.iff (off == CTR_SWEEP_CTRL.once.off && CTR_SWEEP_CTRL.once.of v == 1 && s.readerOn) fun s => s.sweep
  | .sec => s.writeSec who a off v
  | _ => s.putReg a off v

/-- Session `who` may not write the register at RDMA address `addr` (R53, R69, R429): no page is mapped there (false), or its rights do
not cover it (true). -/
def State.writeRefused (s : State) (who addr : Nat) : Option Bool :=
  let a := addr / 0x1000 * 0x1000
  if (blkOfPage a).isNone then some false else if s.mayWrite who a (addr % 0x1000) then none else some true

/-- The 64-bit word `v` is written to the register at RDMA address `addr` by a session that may (R52). -/
def State.regStore (s : State) (who addr v : Nat) : State :=
  let a := addr / 0x1000 * 0x1000
  let off := addr % 0x1000
  match blkOfPage a with
  | none => s
  | some b =>
    if off < 0x100 then s.writeHdr who a off v
    else if 0xF00 ≤ off then s.writeCtr a off v
    else s.writeBlk who a off v b

/-- Session `who` writes one register: discarded and counted where it may not, or where no page is mapped (R53). -/
def State.regWrite (s : State) (who addr v : Nat) : State :=
  match s.writeRefused who addr with
  | some mapped => s.refuseAccess who mapped (addr % 0x1000)
  | none => s.regStore who addr v

/-- REGISTER_WRITE: one register write of an admitted session, performed. -/
def registerWrite (who addr v : Nat) (s : State) : State :=
  if (s.session who).active then s.regWrite who (addr / 8 * 8) v else s

/-- The register of a field as it stands, with the field (instance `i`) set to `v`: what a session writes to change that field alone. A
W1C or WO field beside it is written 0. -/
def State.wordWith (s : State) (f : Fld) (a v : Nat) (i : Nat := 0) : Nat :=
  let off := a + f.offAt i
  let page := off / 0x1000 * 0x1000
  let keep := ((placesAt page (off % 0x1000)).filter fun p => p.fld.acc == .rw || p.fld.acc == .rws || p.fld.acc == .rwp).map fun p =>
    s.rd p.fld p.base p.inst * 2 ^ p.fld.loAt p.inst
  setBits (keep.foldl (· + ·) 0) (f.loAt i) f.w v

/-- Session `who` writes field `f` of the block at `a`, its other fields as they stand. -/
def State.fieldWrite (s : State) (who : Nat) (f : Fld) (a v : Nat) (i : Nat := 0) : State :=
  registerWrite who (a + f.offAt i) (s.wordWith f a v i) s

end Sys2Proof.Machine
end

