-- ==== Sys2Proof/Machine/Rdma.lean ====
section
/-! DEFINITION. RDMA WRITE and RDMA READ at a management port (R49 to R53, R71), and the register commands that act through a write of
their own: R57, R59, R60, R67, R70 and the control registers of the chapters. -/

namespace Sys2Proof.Machine

/-- The regions of the memory map, each under one rkey of the session (R51). -/
inductive Region where
  | pages | rings | staging | telemetry
  deriving DecidableEq, Repr

def Region.index : Region → Nat
  | .pages => 0
  | .rings => 1
  | .staging => 2
  | .telemetry => 3

/-- The region that the `len` bytes at `addr` lie in as a whole (R51): the first 48 MiB of a die's stride, the package window, ring
memory, staging windows, telemetry rings. -/
def regionOf (addr len : Nat) : Option Region :=
  let fits := fun (lo hi : Nat) => decide (lo ≤ addr ∧ addr + len ≤ hi ∧ addr < hi)
  if fits 0xF000000 0x10000000 then some .pages
  else if addr < 0x10000000 && fits (addr / 0x4000000 * 0x4000000) (addr / 0x4000000 * 0x4000000 + 0x3000000) then some .pages
  else if fits 0x100000000 0x500000000 then some .rings
  else if fits 0x800000000 0x900000000 then some .staging
  else if fits 0xC00000000 0x1000000000 then some .telemetry
  else none

/-- An access to a page window is aligned, a multiple of 8 bytes, and within one page (R52). -/
def pageAccessOk (addr len : Nat) : Bool := addr % 8 == 0 && len % 8 == 0 && decide (addr % 4096 + len ≤ 4096)

/-- The session's rkey of a region is `k`. -/
def State.rkeyOk (s : State) (n : Nat) (x : Region) (k : Nat) : Bool := (s.session n).rkeys.getD x.index (2 ^ 32) == k

/-- NAK Remote Access Error, after which the queue pair is in error (R49, R51, R52). -/
def State.nakAccess (s : State) (m q : Nat) : State := ((s.emit (.nakAccess m q)).count (mgtPage m) 0x83 q).qpError m q

/-- NAK Remote Operational Error on that queue pair (R363). -/
def State.nakOperational (s : State) (m q : Nat) : State := ((s.emit (.nakOperational m q)).count (mgtPage m) 0x83 q).qpError m q

/-- The session `n` owns every ring whose memory the `len` bytes at `addr` touch (R53, R69). -/
def State.ownsRings (s : State) (n addr len : Nat) : Bool :=
  let r0 := (addr - 0x100000000) / 0x400000
  let r1 := (addr - 0x100000000 + (len - 1)) / 0x400000
  (List.range (r1 + 1 - r0)).all fun i => s.rd CTL_RING_CFG.owner (ringBlock (r0 + i)) == n

/-- The `len` bytes at `addr` lie in session `n`'s staging window. -/
def ownStaging (n addr len : Nat) : Bool := decide (stagingBase n ≤ addr ∧ addr + len ≤ stagingBase n + stagingSize)

/-- The access of session `n` is counted as refused at its first refused register, at `addr`; `done` says that it has been (R53). -/
def State.refuseOnce (s : State) (done : Bool) (n : Nat) (mapped : Bool) (addr : Nat) : State :=
  s.iff (!done) fun s => s.refuseAccess n mapped (addr % 0x1000)

/-- The words of `data` are written to the registers from `addr` up, in ascending order (R52). One access is counted once, however many
of its registers the session may not write (R53). -/
def State.writeWords (s : State) (n addr : Nat) (data : List Byte) : State :=
  ((List.range (data.length / 8)).foldl (fun x i =>
    match x.2.writeRefused n (addr + 8 * i) with
    | some mapped => (true, x.2.refuseOnce x.1 n mapped (addr + 8 * i))
    | none => (x.1, x.2.regStore n (addr + 8 * i) (leAt data (8 * i) 8))) (false, s)).2

/-- A request on a queue pair that is ready: its session's idle time starts again. -/
def State.onReady (s : State) (m q : Nat) (via : Via) (act : Nat → State → State) : State :=
  s.mgtFrame m via (qp := some q) fun s =>
    let x := s.qp m q
    if x.mode = .ready then act x.session (s.touch x.session) else s

/-- RDMA_WRITE. -/
def rdmaWrite (m q rkey addr : Nat) (data : List Byte) (via : Via) (s : State) : State :=
  s.onReady m q via fun n s =>
    let len := data.length
    match regionOf addr len with
    | none => s.nakAccess m q
    | some x =>
      if s.rkeyOk n x rkey = false then s.nakAccess m q
      else match x with
        | .telemetry => s.nakAccess m q
        | .pages => if pageAccessOk addr len then (s.writeWords n addr data).emit (.ack m q) else s.nakAccess m q
        | .rings =>
          (if s.ownsRings n addr len then { s with mem := Memory.writeN s.mem addr data } else s.refuseAccess n true (addr % 4096)).emit
            (.ack m q)
        | .staging =>
          (if ownStaging n addr len then { s with mem := Memory.writeN s.mem addr data } else s.refuseAccess n true (addr % 4096)).emit
            (.ack m q)

/-- The registers from `addr` up, as bytes: zeros where session `n` may not read (R52, R53); `done` says that the access has been counted
as refused. -/
def State.readWords (s : State) (n addr : Nat) (done : Bool) : Nat → List Byte × State
  | 0 => ([], s)
  | k + 1 =>
    match s.readRefused n addr with
    | some mapped =>
      let y := (s.refuseOnce done n mapped addr).readWords n (addr + 8) true k
      (natLe 8 0 ++ y.1, y.2)
    | none =>
      let x := s.sessionRead addr
      let y := x.2.readWords n (addr + 8) done k
      (natLe 8 x.1 ++ y.1, y.2)

/-- RDMA_READ of `len` bytes; `find` says what LPDDR6 reads there (R362, R363). -/
def rdmaRead (m q rkey addr len : Nat) (via : Via) (find : ReadFind) (s : State) : State :=
  s.onReady m q via fun n s =>
    match regionOf addr len with
    | none => s.nakAccess m q
    | some x =>
      if s.rkeyOk n x rkey = false then s.nakAccess m q
      else match x with
        | .pages =>
          if pageAccessOk addr len then
            let y := s.readWords n addr false (len / 8)
            y.2.emit (.readResponse m q y.1)
          else s.nakAccess m q
        | _ =>
          let s := s.lpRead addr len find
          if readLost find then s.nakOperational m q
          else s.emit (.readResponse m q (Memory.readN s.mem addr len))

/-! ### Commands that are one write of a session -/

/-- PAGE_SOFT_RESET. -/
def pageSoftReset (who a : Nat) (s : State) : State := s.fieldWrite who PG_CTRL.soft_reset a 1

/-- PORT_RESET: a page soft reset of the port's page (R94). -/
def portResetRow (who p : Nat) (s : State) : State := s.fieldWrite who PG_CTRL.soft_reset (portPage p) 1

/-- WARM_RESET_REGISTER. -/
def warmResetRegister (who : Nat) (s : State) : State := s.fieldWrite who CTL_DIE_RESET.warm_reset (ctlDiePage 0) 1

/-- DIE_RESET. -/
def dieResetRow (who d : Nat) (s : State) : State := s.fieldWrite who CTL_DIE_RESET.die_reset (ctlDiePage d) 1

/-- PG_COMMIT_WRITE: commit_seq `q`. -/
def pgCommitWrite (who a q : Nat) (s : State) : State := registerWrite who (a + PG_COMMIT.commit_seq.off) (q % 2 ^ 32) s

/-- PG_COMMIT_ABORT. -/
def pgCommitAbort (who a : Nat) (s : State) : State := registerWrite who (a + PG_COMMIT.abort.off) (2 ^ 32) s

/-- PG_GUARD_WRITE: owner `v`. -/
def pgGuardWrite (who a v : Nat) (s : State) : State := registerWrite who (a + PG_GUARD.owner.off) (v % 256 * 256) s

/-- RING_DOORBELL. -/
def ringDoorbell (who r v : Nat) (s : State) : State := registerWrite who (ringBlock r + CTL_RING_DOORBELL.producer.off) (v % 2 ^ 32) s

/-- RING_ENABLE and RING_DISABLE. -/
def ringEnableWrite (who r : Nat) (v : Bool) (s : State) : State := s.fieldWrite who CTL_RING_CFG.enable (ringBlock r) (b2n v)

/-- CQ_HEAD_WRITE. -/
def cqHeadWrite (who r v : Nat) (s : State) : State := s.fieldWrite who CTL_RING_CQ_HEAD.consumed (ringBlock r) v

/-- EVR_ENABLE and EVR_DISABLE. -/
def evrEnableWrite (who e : Nat) (v : Bool) (s : State) : State := s.fieldWrite who CTL_EVR_CFG.enable (evrBlock e) (b2n v)

/-- EVR_HEAD_WRITE. -/
def evrHeadWrite (who e v : Nat) (s : State) : State := s.fieldWrite who CTL_EVR_HEAD.consumed (evrBlock e) v

/-- OPT_RECAL. -/
def optRecal (who e : Nat) (s : State) : State := s.fieldWrite who OPT_ENG_CTRL.recal (engPage e) 1

/-- PORT_SLEEP and PORT_WAKE. -/
def portSleepWrite (who p : Nat) (v : Bool) (s : State) : State := s.fieldWrite who OPT_PORT_CFG.sleep (portPage p) (b2n v)

/-- SUB_PORT_ENABLE_WRITE. -/
def subPortEnableWrite (who p v : Nat) (s : State) : State := s.fieldWrite who OPT_PORT_CFG.sub_enable (portPage p) v

/-- BYP_READBACK_WRITE. -/
def bypReadbackWrite (who e : Nat) (s : State) : State := s.fieldWrite who BYP_CTRL.readback (bypPage e) 1

/-- GATE_CHANGE_REQUEST. -/
def gateRequestWrite (who p : Nat) (s : State) : State := s.fieldWrite who SCH_GATE_CHANGE.request (schPage p) 1

/-- GATE_CHANGE_CANCEL. -/
def gateCancelWrite (who p : Nat) (s : State) : State := s.fieldWrite who SCH_GATE_CHANGE.cancel (schPage p) 1

/-- TIM_SET and TIM_ADD on counter `n`: op 1 or 2. -/
def timSetWrite (who n op : Nat) (s : State) : State := registerWrite who (timPage 0 + TIM_SET_CTRL.op.off) (4 * (n % 2) + op) s

/-- TIM_OFFSET_WRITE of domain `n`. -/
def timOffsetRow (who n o : Nat) (s : State) : State := registerWrite who (timPage 0 + TIM_OFFSET.offset.off + 8 * (n % 2)) (o % 2 ^ 64) s

/-- DOMAIN_MODE_WRITE of domain `n`. -/
def domainModeRow (who n mode : Nat) (s : State) : State :=
  s.fieldWrite who (if n = 0 then TIM_CFG.dom0_mode else TIM_CFG.dom1_mode) (timPage 0) mode

/-- TXQ_POP on die `d`. -/
def txqPopWrite (who d : Nat) (s : State) : State := s.fieldWrite who TIM_TXQ_SEL.pop (timPage d) 1

/-- GRP_REPL_LOAD and GRP_REPL_STORE on die `d`: op 1 or 2, of set `n`. -/
def grpReplWrite (who d n op : Nat) (s : State) : State :=
  registerWrite who (grpPage d + GRP_REPL_SEL.set.off) (op * 2 ^ 62 + n % 2 ^ 14) s

/-- The injections: word `v` written to the arm register of core `c`. -/
def injectWrite (who a v : Nat) (f : Fld) (s : State) : State := registerWrite who (a + f.off) (v % 2 ^ 64) s

/-- CLUSTER_GATE and CLUSTER_UNGATE: bit `c` of gate_mask of die `d`. -/
def clusterGateWrite (who d c : Nat) (v : Bool) (s : State) : State :=
  let m := s.rd PWR_DIE_CTRL.gate_mask (pwrDiePage d)
  s.fieldWrite who PWR_DIE_CTRL.gate_mask (pwrDiePage d) (setBit m c v)

/-- DIE_STANDBY_ENTER. -/
def dieStandbyEnter (who d : Nat) (s : State) : State := s.fieldWrite who PWR_DIE_CTRL.standby_req (pwrDiePage d) 1

/-- DIE_STANDBY_EXIT: the request is cleared and the exit completes (R389); `trained` as in `train`. -/
def dieStandbyExit (who d : Nat) (trained : List Bool) (s : State) : State :=
  let s := s.fieldWrite who PWR_DIE_CTRL.standby_req (pwrDiePage d) 0
  if s.rd PWR_DIE_STATUS.state (pwrDiePage d) = 3 then s.standbyExit d trained else s

/-- PACKAGE_STANDBY_ENTER. -/
def packageStandbyEnter (who : Nat) (s : State) : State := s.fieldWrite who PWR_PKG_CTRL.standby_req pwrPkgPage 1

/-- Something of a package standby is still in force. -/
def State.pkgStandbyLeft (s : State) : Bool :=
  s.flag PWR_PKG_STATUS.pkg_standby pwrPkgPage || [1, 2, 3].any fun d =>
    s.rd PWR_DIE_STATUS.state (pwrDiePage d) != 0 && !s.flag PWR_DIE_CTRL.standby_req (pwrDiePage d)

/-- PACKAGE_STANDBY_EXIT: the request is cleared and the exit completes (R390). -/
def packageStandbyExit (who : Nat) (trained : List Bool) (s : State) : State :=
  let was := s.flag PWR_PKG_CTRL.standby_req pwrPkgPage
  let s := s.fieldWrite who PWR_PKG_CTRL.standby_req pwrPkgPage 0
  if !s.flag PWR_PKG_CTRL.standby_req pwrPkgPage && (was || s.pkgStandbyLeft) then s.pkgStandbyExit trained else s

/-- QUOTE_REQUEST at staging offset `off`. -/
def quoteRequest (who off : Nat) (s : State) : State :=
  registerWrite who (secPage + SEC_QUOTE_CTRL.offset.off) (2 ^ 63 + off % 2 ^ 26) s

/-- RETIRE_WRITE. -/
def retireRow (who v : Nat) (s : State) : State := s.fieldWrite who CTL_RETIRE.retired ctlPkgPage v

/-- SWEEP_ONCE. -/
def sweepOnce (who : Nat) (s : State) : State := s.fieldWrite who CTR_SWEEP_CTRL.once ctrPkgPage 1

end Sys2Proof.Machine
end

