-- ==== Sys2Proof/Machine/ExecFlights.lean ====
section
/-! DEFINITION. Meanings of the commands of flight programs, arrays and injections, one for each row of the opcode table: the effect that
the rules give the row, run as one command. -/

namespace Sys2Proof.Machine

/-- ACTIVATION_START (R315). -/
def execActivationStart (core : Fin 32) (s : State) : Host.Outcome State Fault Refusal :=
  s.command (activationStart core.val)

/-- FLIGHT_NOP (R322). -/
def execFlightNop (core : Fin 32) (ctx : Fin 4) (s : State) : Host.Outcome State Fault Refusal :=
  s.command (fiNop core.val ctx.val)

/-- END (R322). -/
def execFlightEnd (core : Fin 32) (ctx : Fin 4) (s : State) : Host.Outcome State Fault Refusal :=
  s.command (flightEnd core.val ctx.val)

/-- SYNC (R322). -/
def execSync (core : Fin 32) (ctx : Fin 4) (s : State) : Host.Outcome State Fault Refusal :=
  s.command (fiSync core.val ctx.val)

/-- LI (R322). -/
def execLi (core : Fin 32) (ctx : Fin 4) (s : State) : Host.Outcome State Fault Refusal :=
  s.command (fiLi core.val ctx.val)

/-- LSI (R322). -/
def execLsi (core : Fin 32) (ctx : Fin 4) (s : State) : Host.Outcome State Fault Refusal :=
  s.command (fiLsi core.val ctx.val)

/-- ADDI (R322). -/
def execAddi (core : Fin 32) (ctx : Fin 4) (s : State) : Host.Outcome State Fault Refusal :=
  s.command (fiAddi core.val ctx.val)

/-- SHLI (R322). -/
def execShli (core : Fin 32) (ctx : Fin 4) (s : State) : Host.Outcome State Fault Refusal :=
  s.command (fiShli core.val ctx.val)

/-- SHRI (R322). -/
def execShri (core : Fin 32) (ctx : Fin 4) (s : State) : Host.Outcome State Fault Refusal :=
  s.command (fiShri core.val ctx.val)

/-- ALU (R322). -/
def execAlu (core : Fin 32) (ctx : Fin 4) (s : State) : Host.Outcome State Fault Refusal :=
  s.command (fiAlu core.val ctx.val)

/-- FLD (R322). -/
def execFld (core : Fin 32) (ctx : Fin 4) (s : State) : Host.Outcome State Fault Refusal :=
  s.command (fiFld core.val ctx.val)

/-- FINS (R322). -/
def execFins (core : Fin 32) (ctx : Fin 4) (s : State) : Host.Outcome State Fault Refusal :=
  s.command (fiFins core.val ctx.val)

/-- LDW (R322). -/
def execLdw (core : Fin 32) (ctx : Fin 4) (find : Find) (s : State) : Host.Outcome State Fault Refusal :=
  s.command (fiLdw core.val ctx.val find)

/-- STW (R322). -/
def execStw (core : Fin 32) (ctx : Fin 4) (s : State) : Host.Outcome State Fault Refusal :=
  s.command (fiStw core.val ctx.val)

/-- BEQ (R322). -/
def execBeq (core : Fin 32) (ctx : Fin 4) (s : State) : Host.Outcome State Fault Refusal :=
  s.command (fiBranch 0x0D (fun a b => a == b) core.val ctx.val)

/-- BNE (R322). -/
def execBne (core : Fin 32) (ctx : Fin 4) (s : State) : Host.Outcome State Fault Refusal :=
  s.command (fiBranch 0x0E (fun a b => a != b) core.val ctx.val)

/-- BLTU (R322). -/
def execBltu (core : Fin 32) (ctx : Fin 4) (s : State) : Host.Outcome State Fault Refusal :=
  s.command (fiBranch 0x0F (fun a b => decide (a < b)) core.val ctx.val)

/-- BGEU (R322). -/
def execBgeu (core : Fin 32) (ctx : Fin 4) (s : State) : Host.Outcome State Fault Refusal :=
  s.command (fiBranch 0x10 (fun a b => decide (b ≤ a)) core.val ctx.val)

/-- BEQI (R322). -/
def execBeqi (core : Fin 32) (ctx : Fin 4) (s : State) : Host.Outcome State Fault Refusal :=
  s.command (fiBranchImm 0x11 (fun a b => a == b) core.val ctx.val)

/-- BNEI (R322). -/
def execBnei (core : Fin 32) (ctx : Fin 4) (s : State) : Host.Outcome State Fault Refusal :=
  s.command (fiBranchImm 0x12 (fun a b => a != b) core.val ctx.val)

/-- JMP (R322). -/
def execJmp (core : Fin 32) (ctx : Fin 4) (s : State) : Host.Outcome State Fault Refusal :=
  s.command (fiJmp core.val ctx.val)

/-- SPCFG (R320). -/
def execSpcfg (core : Fin 32) (ctx : Fin 4) (s : State) : Host.Outcome State Fault Refusal :=
  s.command (fiSpcfg core.val ctx.val)

/-- TDEF (R321). -/
def execTdef (core : Fin 32) (ctx : Fin 4) (s : State) : Host.Outcome State Fault Refusal :=
  s.command (fiTdef core.val ctx.val)

/-- VLD (R322). -/
def execVld (core : Fin 32) (ctx : Fin 4) (find : Find) (s : State) : Host.Outcome State Fault Refusal :=
  s.command (fiVld core.val ctx.val find)

/-- VST (R322). -/
def execVst (core : Fin 32) (ctx : Fin 4) (s : State) : Host.Outcome State Fault Refusal :=
  s.command (fiVst core.val ctx.val)

/-- VBIN (R323). -/
def execVbin (core : Fin 32) (ctx : Fin 4) (find : Find) (s : State) : Host.Outcome State Fault Refusal :=
  s.command (fiVbin core.val ctx.val find)

/-- VCVT (R324). -/
def execVcvt (core : Fin 32) (ctx : Fin 4) (find : Find) (s : State) : Host.Outcome State Fault Refusal :=
  s.command (fiVcvt core.val ctx.val find)

/-- VQUANT (R324). -/
def execVquant (core : Fin 32) (ctx : Fin 4) (find : Find) (s : State) : Host.Outcome State Fault Refusal :=
  s.command (fiVquant core.val ctx.val find)

/-- XADD (R325). -/
def execXadd (core : Fin 32) (ctx : Fin 4) (find : Find) (eng : Fin 2) (s : State) : Host.Outcome State Fault Refusal :=
  s.command (fiXadd core.val ctx.val find eng.val)

/-- XROUND (R325). -/
def execXround (core : Fin 32) (ctx : Fin 4) (find : Find) (eng : Fin 2) (s : State) : Host.Outcome State Fault Refusal :=
  s.command (fiXround core.val ctx.val find eng.val)

/-- PASS (R326). -/
def execPass (core : Fin 32) (ctx : Fin 4) (s : State) : Host.Outcome State Fault Refusal :=
  s.command (flightPass core.val ctx.val)

/-- FSEND (R327). -/
def execFsend (core : Fin 32) (ctx : Fin 4) (s : State) : Host.Outcome State Fault Refusal :=
  s.command (fiFsend core.val ctx.val)

/-- ARRAY_PASS_START (R304). -/
def execArrayPassStart (core : Fin 32) (find : Find) (s : State) : Host.Outcome State Fault Refusal :=
  s.command (arrayPassStart core.val find)

/-- ARRAY_DRAIN (R301). -/
def execArrayDrain (core : Fin 32) (find : Find) (s : State) : Host.Outcome State Fault Refusal :=
  s.command (arrayDrain core.val find)

/-- FILLER_PASS (R308). -/
def execFillerPass (core : Fin 32) (result : FillerEnd) (s : State) : Host.Outcome State Fault Refusal :=
  s.command (fillerPass core.val result.ok result.find)

/-- DUTY_RAMP (R309). -/
def execDutyRamp (core : Fin 32) (s : State) : Host.Outcome State Fault Refusal :=
  s.command (dutyRamp core.val)

/-- XSE_INJECT (R262). -/
def execXseInject (who : Fin 64) (core : Fin 32) (value : BitVec 64) (s : State) : Host.Outcome State Fault Refusal :=
  s.command (injectWrite who.val (xsePage core.val) value.toNat XSE_INJECT.arm)

/-- ARR_INJECT (R262). -/
def execArrInject (who : Fin 64) (core : Fin 32) (value : BitVec 64) (s : State) : Host.Outcome State Fault Refusal :=
  s.command (injectWrite who.val (arrPage core.val) value.toNat ARR_INJECT.arm)

/-- VEC_INJECT (R262). -/
def execVecInject (who : Fin 64) (core : Fin 32) (value : BitVec 64) (s : State) : Host.Outcome State Fault Refusal :=
  s.command (injectWrite who.val (vecPage core.val) value.toNat VEC_INJECT.arm)

end Sys2Proof.Machine
end

