-- ==== Sys2Proof/Machine/ExecLandings.lean ====
section
/-! DEFINITION. Meanings of the commands of landings, residual areas and replication sets, one for each row of the opcode table: the effect
that the rules give the row, run as one command. -/

namespace Sys2Proof.Machine

/-- HALL_STAGE_COMPLETE (R272). -/
def execHallStageComplete (key : Key) (s : State) : Host.Outcome State Fault Refusal :=
  s.command (hallStageComplete key)

/-- DIE_LANDING_MERGE (R272). -/
def execDieLandingMerge (key : Key) (die : Fin 4) (s : State) : Host.Outcome State Fault Refusal :=
  s.command (dieLandingMerge key die.val)

/-- LANDING_EMIT (R283). -/
def execLandingEmit (key : Key) (s : State) : Host.Outcome State Fault Refusal :=
  s.command (landingEmit key)

/-- LANDING_TIMER_CHECK (R282). -/
def execLandingTimerCheck (die : Fin 4) (s : State) : Host.Outcome State Fault Refusal :=
  s.command (landingTimerCheck die.val)

/-- TOMBSTONE_EXPIRY (R269). -/
def execTombstoneExpiry (die : Fin 4) (s : State) : Host.Outcome State Fault Refusal :=
  s.command (tombstoneExpiry die.val)

/-- RESIDUAL_AREA_HOLD (R345). -/
def execResidualAreaHold (key : Key) (s : State) : Host.Outcome State Fault Refusal :=
  s.command (residualAreaHold key)

/-- RESIDUAL_COPY_DONE (R345). -/
def execResidualCopyDone (key : Key) (find : ReadFind) (s : State) : Host.Outcome State Fault Refusal :=
  s.command (residualCopyDone key find)

/-- RESIDUAL_WRITE_BACK (R345). -/
def execResidualWriteBack (key : Key) (s : State) : Host.Outcome State Fault Refusal :=
  s.command (residualWriteBack key)

/-- GRP_REPL_LOAD (R291). -/
def execGrpReplLoad (who : Fin 64) (die : Fin 4) (set : Fin 16384) (s : State) : Host.Outcome State Fault Refusal :=
  s.command (grpReplWrite who.val die.val set.val 1)

/-- GRP_REPL_STORE (R291). -/
def execGrpReplStore (who : Fin 64) (die : Fin 4) (set : Fin 16384) (s : State) : Host.Outcome State Fault Refusal :=
  s.command (grpReplWrite who.val die.val set.val 2)

end Sys2Proof.Machine
end

