-- ==== Sys2Proof/Machine/ExecManagement.lean ====
section
/-! DEFINITION. Meanings of the commands of RDMA, sessions, register writes, commits and dual control, one for each row of the opcode
table: the effect that the rules give the row, run as one command. -/

namespace Sys2Proof.Machine

/-- RDMA_WRITE (R52). -/
def execRdmaWrite (m : Fin 4) (qp : Fin 64) (rkey : BitVec 32) (addr : BitVec 64) (data : List Byte) (via : Via)
    (s : State) : Host.Outcome State Fault Refusal :=
  s.command (rdmaWrite m.val qp.val rkey.toNat addr.toNat data via)

/-- RDMA_READ (R52). -/
def execRdmaRead (m : Fin 4) (qp : Fin 64) (rkey : BitVec 32) (addr : BitVec 64) (len : BitVec 32) (via : Via) (find : ReadFind)
    (s : State) : Host.Outcome State Fault Refusal :=
  s.command (rdmaRead m.val qp.val rkey.toNat addr.toNat len.toNat via find)

/-- REGISTER_WRITE (R12). -/
def execRegisterWrite (who : Fin 64) (addr : Nat) (value : BitVec 64) (s : State) : Host.Outcome State Fault Refusal :=
  s.commandIf (Instr.registerWrite who addr value).wellFormed (registerWrite who.val addr value.toNat)

/-- HOST_SEND (R49). -/
def execHostSend (m : Fin 4) (qp : Fin 64) (via : Via) (s : State) : Host.Outcome State Fault Refusal :=
  s.command (hostSend m.val qp.val via)

/-- LOCAL_ACK_TIMEOUT (R49). -/
def execLocalAckTimeout (m : Fin 4) (qp : Fin 64) (s : State) : Host.Outcome State Fault Refusal :=
  s.command (localAckTimeout m.val qp.val)

/-- RNR_RETRY_TIMER (R49). -/
def execRnrRetryTimer (m : Fin 4) (qp : Fin 64) (s : State) : Host.Outcome State Fault Refusal :=
  s.command (rnrRetryTimer m.val qp.val)

/-- CM_REQ (R427). -/
def execCmReq (m : Fin 4) (hostQpn : Nat) (priv : List Byte) (via : Via) (s : State) : Host.Outcome State Fault Refusal :=
  s.commandIf (Instr.cmReq m hostQpn priv via).wellFormed (cmReq m.val hostQpn priv via)

/-- CM_RTU (R427). -/
def execCmRtu (m : Fin 4) (qp : Fin 64) (signature : List Byte) (via : Via) (s : State) : Host.Outcome State Fault Refusal :=
  s.command (cmRtu m.val qp.val signature via)

/-- SESSION_IDLE_TIMEOUT (R50). -/
def execSessionIdleTimeout (session : Fin 64) (s : State) : Host.Outcome State Fault Refusal :=
  s.command (sessionIdle session.val)

/-- RING_OWNER_RELEASE (R69). -/
def execRingOwnerRelease (session : Fin 64) (s : State) : Host.Outcome State Fault Refusal :=
  s.command (ringOwnerRelease session.val)

/-- MKA_KEY_INSTALL (R48). -/
def execMkaKeyInstall (m : Fin 4) (an : Fin 4) (s : State) : Host.Outcome State Fault Refusal :=
  s.command (mkaKeyInstall m.val an.val)

/-- MKA_TIMEOUT (R74). -/
def execMkaTimeout (m : Fin 4) (s : State) : Host.Outcome State Fault Refusal :=
  s.command (mkaTimeout m.val)

/-- MGT_LINK_CHANGE (R47). -/
def execMgtLinkChange (m : Fin 4) (up : Bool) (s : State) : Host.Outcome State Fault Refusal :=
  s.command (mgtLinkChange m.val up)

/-- PG_COMMIT_WRITE (R57). -/
def execPgCommitWrite (who : Fin 64) (page : Nat) (seq : BitVec 32) (s : State) : Host.Outcome State Fault Refusal :=
  s.commandIf (Instr.pgCommitWrite who page seq).wellFormed (pgCommitWrite who.val page seq.toNat)

/-- PG_COMMIT_ABORT (R55). -/
def execPgCommitAbort (who : Fin 64) (page : Nat) (s : State) : Host.Outcome State Fault Refusal :=
  s.commandIf (Instr.pgCommitAbort who page).wellFormed (pgCommitAbort who.val page)

/-- BANK_SWAP (R57). -/
def execBankSwap (page : Nat) (s : State) : Host.Outcome State Fault Refusal :=
  s.commandIf (Instr.bankSwap page).wellFormed (bankSwap page)

/-- DUAL_TIMEOUT (R58). -/
def execDualTimeout (ticket : BitVec 32) (s : State) : Host.Outcome State Fault Refusal :=
  s.command (dualTimeout ticket.toNat)

/-- PG_GUARD_WRITE (R59). -/
def execPgGuardWrite (who : Fin 64) (page : Nat) (owner : BitVec 8) (s : State) : Host.Outcome State Fault Refusal :=
  s.commandIf (Instr.pgGuardWrite who page owner).wellFormed (pgGuardWrite who.val page owner.toNat)

/-- ROCEV2_ACK_RECEIVE (R49). -/
def execRocev2AckReceive (m : Fin 4) (qp : Fin 64) (answer : RoceAnswer) (via : Via)
    (s : State) : Host.Outcome State Fault Refusal :=
  s.command (roceAck m.val qp.val answer via)

/-- NEIGHBOR_DISCOVERY (R47). -/
def execNeighborDiscovery (m : Fin 4) (target : Nat) (via : Via) (s : State) : Host.Outcome State Fault Refusal :=
  s.commandIf (Instr.neighborDiscovery m target via).wellFormed (neighborDiscovery m.val target via)

end Sys2Proof.Machine
end

