-- ==== Sys2Proof/Machine/ExecMemory.lean ====
section
/-! DEFINITION. Meanings of the commands of memories and the die mesh, one for each row of the opcode table: the effect that the rules give
the row, run as one command. -/

namespace Sys2Proof.Machine

/-- MESH_LANE_GROUP_FAIL (R37). -/
def execMeshLaneGroupFail (die : Fin 4) (link : Fin 3) (group : Fin 8) (flits : List Nat) (s : State) : Host.Outcome State Fault Refusal :=
  s.commandIf (Instr.meshLaneGroupFail die link group flits).wellFormed (meshLaneGroupFail die.val link.val group.val flits)

/-- DRAM_REFRESH (R351). -/
def execDramRefresh (die : Fin 4) (temp : BitVec 16) (s : State) : Host.Outcome State Fault Refusal :=
  s.command (dramRefresh die.val temp.toNat)

/-- DRAM_SCRUB (R355). -/
def execDramScrub (die : Fin 4) (finds : List MemFind) (s : State) : Host.Outcome State Fault Refusal :=
  s.command (dramScrub die.val finds)

/-- LPDDR6_REFRESH (R357). -/
def execLpddr6Refresh (device : Fin 12) (s : State) : Host.Outcome State Fault Refusal :=
  s.command (lpddr6Refresh device.val)

/-- LPDDR6_TEMP_READ (R357). -/
def execLpddr6TempRead (device : Fin 12) (temp : BitVec 16) (mult : BitVec 2) (ok : Bool) (us : BitVec 16)
    (s : State) : Host.Outcome State Fault Refusal :=
  s.command (lpddr6TempRead device.val temp.toNat mult.toNat ok us.toNat)

/-- LPDDR6_RETRAIN (R361). -/
def execLpddr6Retrain (device : Fin 12) (ok : Bool) (us : BitVec 16) (s : State) : Host.Outcome State Fault Refusal :=
  s.command (lpddr6Retrain device.val ok us.toNat)

/-- LPDDR6_SCRUB (R362). -/
def execLpddr6Scrub (device : Fin 12) (finds : List MemFind) (s : State) : Host.Outcome State Fault Refusal :=
  s.command (lpddr6Scrub device.val finds)

/-- SRAM_SCRUB (R433). -/
def execSramScrub (die : Fin 4) (finds : List MemFind) (s : State) : Host.Outcome State Fault Refusal :=
  s.command (sramScrub die.val finds)

end Sys2Proof.Machine
end

