-- ==== Sys2Proof/Machine/ExecOptics.lean ====
section
/-! DEFINITION. Meanings of the commands of engines, ports and bypass circuits, one for each row of the opcode table: the effect that the
rules give the row, run as one command. -/

namespace Sys2Proof.Machine

/-- MODULE_ASSOCIATE (R81). -/
def execModuleAssociate (die : Fin 4) (straps : List (BitVec 8)) (s : State) : Host.Outcome State Fault Refusal :=
  s.command (moduleAssociate die.val (straps.map fun b => b.toNat))

/-- I3C_RETRY (R84). -/
def execI3cRetry (transfer : I3cTransfer) (s : State) : Host.Outcome State Fault Refusal :=
  s.command (i3cRetry transfer.engine.val transfer.again transfer.write)

/-- MODULE_REDISCOVERY (R84). -/
def execModuleRediscovery (engine : Fin 16) (answer : Option (BitVec 8)) (s : State) : Host.Outcome State Fault Refusal :=
  s.command (moduleRediscovery engine.val (answer.map fun b => b.toNat))

/-- MODULE_IBI (R82). -/
def execModuleIbi (engine : Fin 16) (faults : BitVec 8) (s : State) : Host.Outcome State Fault Refusal :=
  s.command (moduleIbi engine.val faults.toNat)

/-- LASER_INPUT_LOW (R83). -/
def execLaserInputLow (engine : Fin 16) (input : Fin 8) (tap : BitVec 8) (s : State) : Host.Outcome State Fault Refusal :=
  s.command (laserInputLow engine.val input.val tap.toNat)

/-- LASER_INPUT_RESTORE (R83). -/
def execLaserInputRestore (engine : Fin 16) (input : Fin 8) (tap : BitVec 8) (s : State) : Host.Outcome State Fault Refusal :=
  s.command (laserInputRestore engine.val input.val tap.toNat)

/-- ENGINE_BRINGUP (R85). -/
def execEngineBringup (engine : Fin 16) (s : State) : Host.Outcome State Fault Refusal :=
  s.command (engineBringup engine.val)

/-- LASER_INPUTS_READY (R85). -/
def execLaserInputsReady (engine : Fin 16) (taps : List (BitVec 8)) (s : State) : Host.Outcome State Fault Refusal :=
  s.commandIf (Instr.laserInputsReady engine taps).wellFormed (laserInputsReady engine.val (taps.map fun b => b.toNat))

/-- CALIBRATION_DONE (R85). -/
def execCalibrationDone (engine : Fin 16) (taps : List (BitVec 8)) (s : State) : Host.Outcome State Fault Refusal :=
  s.commandIf (Instr.calibrationDone engine taps).wellFormed (calibrationDone engine.val (taps.map fun b => b.toNat))

/-- ENGINE_STEP_TIMEOUT (R85). -/
def execEngineStepTimeout (engine : Fin 16) (s : State) : Host.Outcome State Fault Refusal :=
  s.command (engineStepTimeout engine.val)

/-- OPT_RECAL (R85). -/
def execOptRecal (who : Fin 64) (engine : Fin 16) (s : State) : Host.Outcome State Fault Refusal :=
  s.command (optRecal who.val engine.val)

/-- PORT_TX_ENABLE (R86). -/
def execPortTxEnable (lport : Fin 2048) (s : State) : Host.Outcome State Fault Refusal :=
  s.command (portTxEnable lport.val)

/-- PARTNER_LIGHT_LOCK (R86). -/
def execPartnerLightLock (lport : Fin 2048) (s : State) : Host.Outcome State Fault Refusal :=
  s.command (partnerLightLock lport.val)

/-- ALIGNMENT_LOCK (R86). -/
def execAlignmentLock (lport : Fin 2048) (s : State) : Host.Outcome State Fault Refusal :=
  s.command (alignmentLock lport.val)

/-- LINK_HOLD_UP_EXPIRY (R86). -/
def execLinkHoldUpExpiry (lport : Fin 2048) (s : State) : Host.Outcome State Fault Refusal :=
  s.command (linkHoldUpExpiry lport.val)

/-- LINK_DOWN_DECLARE (R87). -/
def execLinkDownDeclare (lport : Fin 2048) (cause : Nat) (s : State) : Host.Outcome State Fault Refusal :=
  s.commandIf (Instr.linkDownDeclare lport cause).wellFormed (linkDownDeclare lport.val cause)

/-- RX_FAULT_ORDERED_SET (R88). -/
def execRxFaultOrderedSet (lport : Fin 2048) (fault : RxFault) (s : State) : Host.Outcome State Fault Refusal :=
  s.command (rxFaultOrderedSet lport.val fault)

/-- BER_WINDOW (R89). -/
def execBerWindow (port : Fin 512) (corrected : List (BitVec 32)) (errors : List LaneErrors) (s : State) : Host.Outcome State Fault Refusal :=
  s.commandIf (Instr.berWindow port corrected errors).wellFormed
    (berWindow port.val (corrected.map fun b => b.toNat) (errors.map fun b => b.uncorrected.toNat) (errors.map fun b => b.pattern.toNat))

/-- PORT_SLEEP (R91). -/
def execPortSleep (who : Fin 64) (port : Fin 512) (s : State) : Host.Outcome State Fault Refusal :=
  s.command (portSleepWrite who.val port.val true)

/-- PORT_WAKE (R387). -/
def execPortWake (who : Fin 64) (port : Fin 512) (s : State) : Host.Outcome State Fault Refusal :=
  s.command (portSleepWrite who.val port.val false)

/-- SUB_PORT_ENABLE_WRITE (R91). -/
def execSubPortEnableWrite (who : Fin 64) (port : Fin 512) (enable : BitVec 4) (s : State) : Host.Outcome State Fault Refusal :=
  s.command (subPortEnableWrite who.val port.val enable.toNat)

/-- SHUTTER_CLOSE (R91). -/
def execShutterClose (lport : Fin 2048) (s : State) : Host.Outcome State Fault Refusal :=
  s.command (shutterClose lport.val)

/-- BYPASS_DRAIN_EXPIRY (R101). -/
def execBypassDrainExpiry (port : Fin 512) (s : State) : Host.Outcome State Fault Refusal :=
  s.command (bypassDrainExpiry port.val)

/-- SWITCHING_START (R103). -/
def execSwitchingStart (engine : Fin 16) (s : State) : Host.Outcome State Fault Refusal :=
  s.command (switchingStart engine.val)

/-- SWITCHING_DONE (R103). -/
def execSwitchingDone (engine : Fin 16) (bad : BitVec 4) (s : State) : Host.Outcome State Fault Refusal :=
  s.command (switchingDone engine.val bad.toNat)

/-- PERIODIC_READBACK (R108). -/
def execPeriodicReadback (engine : Fin 16) (s : State) : Host.Outcome State Fault Refusal :=
  s.command (periodicReadback engine.val)

/-- BYP_READBACK_WRITE (R110). -/
def execBypReadbackWrite (who : Fin 64) (engine : Fin 16) (s : State) : Host.Outcome State Fault Refusal :=
  s.command (bypReadbackWrite who.val engine.val)

/-- BYPASS_TEMPERATURE_WAIT_EXPIRY (R102). -/
def execBypassTemperatureWaitExpiry (engine : Fin 16) (s : State) : Host.Outcome State Fault Refusal :=
  s.command (bypassTemperatureWaitExpiry engine.val)

end Sys2Proof.Machine
end

