-- ==== Sys2Proof/Machine/ExecPower.lean ====
section
/-! DEFINITION. Meanings of the commands of throttling, thermal control, gating and standby, one for each row of the opcode table: the
effect that the rules give the row, run as one command. -/

namespace Sys2Proof.Machine

/-- THROTTLE_PERIOD (R391). -/
def execThrottlePeriod (watts : BitVec 16) (current : BitVec 12) (vin : BitVec 10) (s : State) : Host.Outcome State Fault Refusal :=
  s.command (throttlePeriod watts.toNat current.toNat vin.toNat)

/-- THROTTLE_RELEASE (R391). -/
def execThrottleRelease (watts : BitVec 16) (s : State) : Host.Outcome State Fault Refusal :=
  s.command (throttleRelease watts.toNat)

/-- CAP_EXCEEDED (R391). -/
def execCapExceeded (watts : BitVec 16) (s : State) : Host.Outcome State Fault Refusal :=
  s.command (capExceeded watts.toNat)

/-- THERMAL_SENSOR_READ (R393). -/
def execThermalSensorRead (die : Fin 4) (hot : BitVec 16) (engines : List (BitVec 16)) (stage : BitVec 10) (watts : BitVec 16)
    (s : State) : Host.Outcome State Fault Refusal :=
  s.commandIf (Instr.thermalSensorRead die hot engines stage watts).wellFormed (thermalSensorRead die.val hot.toNat (engines.map fun b => b.toNat) stage.toNat watts.toNat)

/-- THERMAL_NOTCH (R394). -/
def execThermalNotch (die : Fin 4) (s : State) : Host.Outcome State Fault Refusal :=
  s.command (thermalNotch die.val)

/-- THERM_N_RELEASE (R393). -/
def execThermNRelease (s : State) : Host.Outcome State Fault Refusal :=
  s.command thermNRelease

/-- CLUSTER_GATE (R388). -/
def execClusterGate (who : Fin 64) (die : Fin 4) (cluster : Fin 4) (s : State) : Host.Outcome State Fault Refusal :=
  s.command (clusterGateWrite who.val die.val cluster.val true)

/-- CLUSTER_GATE_COMPLETE (R388). -/
def execClusterGateComplete (die : Fin 4) (cluster : Fin 4) (s : State) : Host.Outcome State Fault Refusal :=
  s.command (clusterGateComplete die.val cluster.val)

/-- CLUSTER_UNGATE (R388). -/
def execClusterUngate (who : Fin 64) (die : Fin 4) (cluster : Fin 4) (s : State) : Host.Outcome State Fault Refusal :=
  s.command (clusterGateWrite who.val die.val cluster.val false)

/-- DIE_STANDBY_ENTER (R389). -/
def execDieStandbyEnter (who : Fin 64) (die : Fin 4) (s : State) : Host.Outcome State Fault Refusal :=
  s.command (dieStandbyEnter who.val die.val)

/-- DIE_STANDBY_EXIT (R389). -/
def execDieStandbyExit (who : Fin 64) (die : Fin 4) (trained : List Bool) (s : State) : Host.Outcome State Fault Refusal :=
  s.commandIf (Instr.dieStandbyExit who die trained).wellFormed (dieStandbyExit who.val die.val trained)

/-- PACKAGE_STANDBY_ENTER (R390). -/
def execPackageStandbyEnter (who : Fin 64) (s : State) : Host.Outcome State Fault Refusal :=
  s.command (packageStandbyEnter who.val)

/-- PACKAGE_STANDBY_EXIT (R390). -/
def execPackageStandbyExit (who : Fin 64) (trained : List Bool) (s : State) : Host.Outcome State Fault Refusal :=
  s.commandIf (Instr.packageStandbyExit who trained).wellFormed (packageStandbyExit who.val trained)

end Sys2Proof.Machine
end

