-- ==== Sys2Proof/Machine/ExecReliability.lean ====
section
/-! DEFINITION. Meanings of the commands of quotes, correlation, retirement, health and counter sweeps, one for each row of the opcode
table: the effect that the rules give the row, run as one command. -/

namespace Sys2Proof.Machine

/-- QUOTE_REQUEST (R424). -/
def execQuoteRequest (who : Fin 64) (offset : BitVec 26) (s : State) : Host.Outcome State Fault Refusal :=
  s.command (quoteRequest who.val offset.toNat)

/-- ERROR_CORRELATION (R441). -/
def execErrorCorrelation (s : State) : Host.Outcome State Fault Refusal :=
  s.command errorCorrelation

/-- RETIRE_WRITE (R443). -/
def execRetireWrite (who : Fin 64) (retired : BitVec 32) (s : State) : Host.Outcome State Fault Refusal :=
  s.command (retireRow who.val retired.toNat)

/-- HEALTH_EVALUATION (R446). -/
def execHealthEvaluation (s : State) : Host.Outcome State Fault Refusal :=
  s.command healthEvaluation

/-- COUNTER_SWEEP (R457). -/
def execCounterSweep (s : State) : Host.Outcome State Fault Refusal :=
  s.command counterSweep

/-- SWEEP_ONCE (R464). -/
def execSweepOnce (who : Fin 64) (s : State) : Host.Outcome State Fault Refusal :=
  s.command (sweepOnce who.val)

end Sys2Proof.Machine
end

