-- ==== Sys2Proof/Machine/ExecReset.lean ====
section
/-! DEFINITION. Meanings of the commands of power-on, resets and reference clocks, one for each row of the opcode table: the effect that
the rules give the row, run as one command. -/

namespace Sys2Proof.Machine

/-- POWER_ON (R385). -/
def execPowerOn (vin : BitVec 10) (s : State) : Host.Outcome State Fault Refusal :=
  s.command (powerOn vin.toNat)

/-- RAIL_BOUND_MISSED (R385). -/
def execRailBoundMissed (s : State) : Host.Outcome State Fault Refusal :=
  s.command railBoundMissed

/-- RAIL_RETRY (R385). -/
def execRailRetry (s : State) : Host.Outcome State Fault Refusal :=
  s.command railRetry

/-- VIN48_TRIP (R386). -/
def execVin48Trip (cause : Fin 3) (s : State) : Host.Outcome State Fault Refusal :=
  s.command (vin48Trip cause.val)

/-- ISOLATION_LINK_SILENT (R384). -/
def execIsolationLinkSilent (tenMs : Bool) (s : State) : Host.Outcome State Fault Refusal :=
  s.command (isolationLinkSilent tenMs)

/-- COLD_BOOT (R404). -/
def execColdBoot (pufOk : Bool) (trained : List Bool) (s : State) : Host.Outcome State Fault Refusal :=
  s.commandIf (Instr.coldBoot pufOk trained).wellFormed (coldBoot pufOk trained)

/-- WARM_RST_PIN (R397). -/
def execWarmRstPin (s : State) : Host.Outcome State Fault Refusal :=
  s.command warmRstPin

/-- WARM_RESET_REGISTER (R397). -/
def execWarmResetRegister (who : Fin 64) (s : State) : Host.Outcome State Fault Refusal :=
  s.command (warmResetRegister who.val)

/-- WARM_RESET_RELEASE (R406). -/
def execWarmResetRelease (trained : List Bool) (copyOk : Bool) (s : State) : Host.Outcome State Fault Refusal :=
  s.commandIf (Instr.warmResetRelease trained copyOk).wellFormed (warmResetRelease trained copyOk)

/-- DIE_RESET (R407). -/
def execDieReset (who : Fin 64) (die : Fin 4) (s : State) : Host.Outcome State Fault Refusal :=
  s.command (dieResetRow who.val die.val)

/-- DIE_RESET_RELEASE (R407). -/
def execDieResetRelease (die : Fin 4) (trained : List Bool) (s : State) : Host.Outcome State Fault Refusal :=
  s.commandIf (Instr.dieResetRelease die trained).wellFormed (dieResetRelease die.val trained)

/-- PAGE_SOFT_RESET (R399). -/
def execPageSoftReset (who : Fin 64) (page : Nat) (s : State) : Host.Outcome State Fault Refusal :=
  s.commandIf (Instr.pageSoftReset who page).wellFormed (pageSoftReset who.val page)

/-- PAGE_CONFIG_RESTORE (R399). -/
def execPageConfigRestore (page : Nat) (s : State) : Host.Outcome State Fault Refusal :=
  s.commandIf (Instr.pageConfigRestore page).wellFormed (pageConfigRestore page)

/-- PORT_RESET (R397). -/
def execPortReset (who : Fin 64) (port : Fin 512) (s : State) : Host.Outcome State Fault Refusal :=
  s.command (portResetRow who.val port.val)

/-- SYSCLK_LOSS (R40). -/
def execSysclkLoss (s : State) : Host.Outcome State Fault Refusal :=
  s.command sysclkLoss

/-- SERDES_REF_LOSS (R40). -/
def execSerdesRefLoss (die : Fin 4) (s : State) : Host.Outcome State Fault Refusal :=
  s.command (serdesRefLoss die.val)

/-- SERDES_REF_RETURN (R40). -/
def execSerdesRefReturn (die : Fin 4) (s : State) : Host.Outcome State Fault Refusal :=
  s.command (serdesRefReturn die.val)

/-- SYSCLK_RETURN (R45). -/
def execSysclkReturn (s : State) : Host.Outcome State Fault Refusal :=
  s.command sysclkReturn

end Sys2Proof.Machine
end

