-- ==== Sys2Proof/Machine/ExecRings.lean ====
section
/-! DEFINITION. Meanings of the commands of command and event rings and the opcodes of R64, one for each row of the opcode table: the
effect that the rules give the row, run as one command. -/

namespace Sys2Proof.Machine

/-- RING_DOORBELL (R60). -/
def execRingDoorbell (who : Fin 64) (ring : Fin 4096) (producer : BitVec 32) (s : State) : Host.Outcome State Fault Refusal :=
  s.command (ringDoorbell who.val ring.val producer.toNat)

/-- DESCRIPTOR_FETCH (R61). -/
def execDescriptorFetch (ring : Fin 4096) (find : ReadFind) (s : State) : Host.Outcome State Fault Refusal :=
  s.command (descriptorFetch ring.val find)

/-- RING_ENABLE (R70). -/
def execRingEnable (who : Fin 64) (ring : Fin 4096) (s : State) : Host.Outcome State Fault Refusal :=
  s.command (ringEnableWrite who.val ring.val true)

/-- RING_DISABLE (R70). -/
def execRingDisable (who : Fin 64) (ring : Fin 4096) (s : State) : Host.Outcome State Fault Refusal :=
  s.command (ringEnableWrite who.val ring.val false)

/-- CQ_HEAD_WRITE (R61). -/
def execCqHeadWrite (who : Fin 64) (ring : Fin 4096) (consumed : BitVec 32) (s : State) : Host.Outcome State Fault Refusal :=
  s.command (cqHeadWrite who.val ring.val consumed.toNat)

/-- EVR_ENABLE (R70). -/
def execEvrEnable (who : Fin 64) (evr : Fin 256) (s : State) : Host.Outcome State Fault Refusal :=
  s.command (evrEnableWrite who.val evr.val true)

/-- EVR_DISABLE (R70). -/
def execEvrDisable (who : Fin 64) (evr : Fin 256) (s : State) : Host.Outcome State Fault Refusal :=
  s.command (evrEnableWrite who.val evr.val false)

/-- EVR_HEAD_WRITE (R67). -/
def execEvrHeadWrite (who : Fin 64) (evr : Fin 256) (consumed : BitVec 32) (s : State) : Host.Outcome State Fault Refusal :=
  s.command (evrHeadWrite who.val evr.val consumed.toNat)

/-- CORE_WATCHDOG_EXPIRY (R73). -/
def execCoreWatchdogExpiry (core : Fin 4) (rings : List (Fin 4096)) (s : State) : Host.Outcome State Fault Refusal :=
  s.command (coreWatchdogExpiry core.val (rings.map fun b => b.val))

/-- CORE_RESTART (R73). -/
def execCoreRestart (core : Fin 4) (s : State) : Host.Outcome State Fault Refusal :=
  s.command (coreRestart core.val)

/-- NOP (R64). -/
def execNop (ring : Fin 4096) (s : State) : Host.Outcome State Fault Refusal :=
  s.command (opNop ring.val)

/-- BANK_COMMIT (R64). -/
def execBankCommit (ring : Fin 4096) (s : State) : Host.Outcome State Fault Refusal :=
  s.command (opBankCommit ring.val)

/-- TABLE_SEARCH (R157). -/
def execTableSearch (ring : Fin 4096) (s : State) : Host.Outcome State Fault Refusal :=
  s.command (opTableSearch ring.val)

/-- TABLE_NEXT (R158). -/
def execTableNext (ring : Fin 4096) (s : State) : Host.Outcome State Fault Refusal :=
  s.command (opTableNext ring.val)

/-- TABLE_INSERT (R157). -/
def execTableInsert (ring : Fin 4096) (ecc : Bool) (s : State) : Host.Outcome State Fault Refusal :=
  s.command (opTableInsert ring.val ecc)

/-- TABLE_DELETE (R157). -/
def execTableDelete (ring : Fin 4096) (s : State) : Host.Outcome State Fault Refusal :=
  s.command (opTableDelete ring.val)

/-- FLUSH_BY_PORT (R150). -/
def execFlushByPort (ring : Fin 4096) (s : State) : Host.Outcome State Fault Refusal :=
  s.command (opFlushByPort ring.val)

/-- ROUTE_DRAIN (R199). -/
def execRouteDrain (ring : Fin 4096) (s : State) : Host.Outcome State Fault Refusal :=
  s.command (opRouteDrain ring.val)

/-- PORT_ACCEPT (R412). -/
def execPortAccept (ring : Fin 4096) (s : State) : Host.Outcome State Fault Refusal :=
  s.command (opPortAccept ring.val)

/-- BYPASS_ENABLE (R102). -/
def execBypassEnable (ring : Fin 4096) (s : State) : Host.Outcome State Fault Refusal :=
  s.command (opBypassEnable ring.val)

/-- BYPASS_RESET (R104). -/
def execBypassReset (ring : Fin 4096) (s : State) : Host.Outcome State Fault Refusal :=
  s.command (opBypassReset ring.val)

/-- BYPASS_READ (R106). -/
def execBypassRead (ring : Fin 4096) (s : State) : Host.Outcome State Fault Refusal :=
  s.command (opBypassRead ring.val)

/-- GROUP_WRITE (R265). -/
def execGroupWrite (ring : Fin 4096) (find : ReadFind) (s : State) : Host.Outcome State Fault Refusal :=
  s.command (opGroupWrite ring.val find)

/-- GROUP_DISABLE (R266). -/
def execGroupDisable (ring : Fin 4096) (s : State) : Host.Outcome State Fault Refusal :=
  s.command (opGroupDisable ring.val)

/-- FLIGHT_LOAD (R312). -/
def execFlightLoad (ring : Fin 4096) (find : ReadFind) (s : State) : Host.Outcome State Fault Refusal :=
  s.command (opFlightLoad ring.val find)

/-- TRIGGER_ARM (R286). -/
def execTriggerArm (ring : Fin 4096) (s : State) : Host.Outcome State Fault Refusal :=
  s.command (opTriggerArm ring.val)

/-- QUOTA_SET (R271). -/
def execQuotaSet (ring : Fin 4096) (s : State) : Host.Outcome State Fault Refusal :=
  s.command (opQuotaSet ring.val)

/-- PLAN_LOAD (R409). -/
def execPlanLoad (ring : Fin 4096) (find : ReadFind) (s : State) : Host.Outcome State Fault Refusal :=
  s.command (opPlanLoad ring.val find)

/-- CONFIG_SAVE (R403). -/
def execConfigSave (ring : Fin 4096) (good : Bool) (s : State) : Host.Outcome State Fault Refusal :=
  s.command (opConfigSave ring.val good)

/-- CONFIG_SAVE_AUTO (R403). -/
def execConfigSaveAuto (good : Bool) (s : State) : Host.Outcome State Fault Refusal :=
  s.command (configSaveAuto good)

/-- POWER_CAP_SET (R64). -/
def execPowerCapSet (ring : Fin 4096) (s : State) : Host.Outcome State Fault Refusal :=
  s.command (opPowerCapSet ring.val)

/-- POWER_CAP_ABOVE_DEFAULT (R64). -/
def execPowerCapAboveDefault (ring : Fin 4096) (s : State) : Host.Outcome State Fault Refusal :=
  s.command (opPowerCapAboveDefault ring.val)

/-- KEY_ENROL (R425). -/
def execKeyEnrol (ring : Fin 4096) (find : ReadFind) (s : State) : Host.Outcome State Fault Refusal :=
  s.command (opKeyEnrol ring.val find)

/-- PROTECT_TABLE_COMMIT (R428). -/
def execProtectTableCommit (ring : Fin 4096) (s : State) : Host.Outcome State Fault Refusal :=
  s.command (opProtectTableCommit ring.val)

/-- COUNTER_SNAPSHOT (R459). -/
def execCounterSnapshot (ring : Fin 4096) (find : ReadFind) (s : State) : Host.Outcome State Fault Refusal :=
  s.command (opCounterSnapshot ring.val find)

end Sys2Proof.Machine
end

