-- ==== Sys2Proof/Machine/ExecSwitch.lean ====
section
/-! DEFINITION. Meanings of the commands of frames, discovery, tables, routing and gates, one for each row of the opcode table: the effect
that the rules give the row, run as one command. -/

namespace Sys2Proof.Machine

/-- MESH_CROSSING (R36). -/
def execMeshCrossing (src : Fin 4) (dst : Fin 4) (pool : Pool) (s : State) : Host.Outcome State Fault Refusal :=
  s.commandIf (Instr.meshCrossing src dst pool).wellFormed (meshCrossing src.val dst.val pool)

/-- ROUTE_DRAIN_QUEUES_EMPTY (R199). -/
def execRouteDrainQueuesEmpty (table : Nat) (s : State) : Host.Outcome State Fault Refusal :=
  s.commandIf (Instr.routeDrainQueuesEmpty table).wellFormed (routeDrainQueuesEmpty table)

/-- ROUTE_DRAIN_EXPIRY (R199). -/
def execRouteDrainExpiry (table : Nat) (s : State) : Host.Outcome State Fault Refusal :=
  s.commandIf (Instr.routeDrainExpiry table).wellFormed (routeDrainExpiry table)

/-- FRAME_RECEIVE (R162). -/
def execFrameReceive (lport : Fin 2048) (bytes : List Byte) (find : RxFind) (s : State) : Host.Outcome State Fault Refusal :=
  s.command (frameReceive lport.val bytes find)

/-- PFC_XOFF_REFRESH (R169). -/
def execPfcXoffRefresh (lport : Fin 2048) (cls : Fin 8) (s : State) : Host.Outcome State Fault Refusal :=
  s.command (pfcXoffRefresh lport.val cls.val)

/-- PFC_PAUSE_EXPIRY (R169). -/
def execPfcPauseExpiry (lport : Fin 2048) (cls : Fin 8) (s : State) : Host.Outcome State Fault Refusal :=
  s.command (pfcPauseExpiry lport.val cls.val)

/-- HELD_FRAME_ADMIT (R173). -/
def execHeldFrameAdmit (src : Fin 4) (dst : Fin 4) (s : State) : Host.Outcome State Fault Refusal :=
  s.command (heldFrameAdmit src.val dst.val)

/-- FRAME_TRANSMIT (R204). -/
def execFrameTransmit (lport : Fin 2048) (find : TxFind) (s : State) : Host.Outcome State Fault Refusal :=
  s.command (frameTransmit lport.val find)

/-- MC_RESIDENCY_EXPIRY (R175). -/
def execMcResidencyExpiry (lport : Fin 2048) (cls : Fin 8) (s : State) : Host.Outcome State Fault Refusal :=
  s.command (mcResidencyExpiry lport.val cls.val)

/-- HELLO_SEND (R135). -/
def execHelloSend (lport : Fin 2048) (s : State) : Host.Outcome State Fault Refusal :=
  s.command (helloSend lport.val)

/-- NEIGHBOUR_LIVENESS_TIMEOUT (R135). -/
def execNeighbourLivenessTimeout (lport : Fin 2048) (silent : Bool) (s : State) : Host.Outcome State Fault Refusal :=
  s.command (neighbourLivenessTimeout lport.val silent)

/-- LLDP_SEND (R138). -/
def execLldpSend (lport : Fin 2048) (s : State) : Host.Outcome State Fault Refusal :=
  s.command (lldpSend lport.val)

/-- DISCOVERY_COMPARE (R410). -/
def execDiscoveryCompare (lport : Fin 2048) (s : State) : Host.Outcome State Fault Refusal :=
  s.command (discoveryCompare lport.val)

/-- LEARN_APPLY (R146). -/
def execLearnApply (die : Fin 4) (ecc : Bool) (s : State) : Host.Outcome State Fault Refusal :=
  s.command (learnApply die.val ecc)

/-- AGING_SWEEP (R149). -/
def execAgingSweep (s : State) : Host.Outcome State Fault Refusal :=
  s.command agingSweep

/-- LPM_SCRUB (R153). -/
def execLpmScrub (die : Fin 4) (bad : List (Nat × Bool)) (s : State) : Host.Outcome State Fault Refusal :=
  s.command (lpmScrub die.val bad)

/-- ESCAPE_REEVALUATE (R193). -/
def execEscapeReevaluate (die : Fin 4) (s : State) : Host.Outcome State Fault Refusal :=
  s.command (escapeReevaluate die.val)

/-- ESCAPE_TIMER (R193). -/
def execEscapeTimer (lport : Fin 2048) (cls : Fin 8) (s : State) : Host.Outcome State Fault Refusal :=
  s.command (escapeTimer lport.val cls.val)

/-- BANISTER_CONTINUE (R192). -/
def execBanisterContinue (lport : Fin 2048) (cls : Fin 8) (s : State) : Host.Outcome State Fault Refusal :=
  s.command (banisterContinue lport.val cls.val)

/-- RING_WAIT_ALARM (R202). -/
def execRingWaitAlarm (die : Fin 4) (s : State) : Host.Outcome State Fault Refusal :=
  s.command (ringWaitAlarm die.val)

/-- SPRAY_DECAY (R184). -/
def execSprayDecay (die : Fin 4) (s : State) : Host.Outcome State Fault Refusal :=
  s.command (sprayDecay die.val)

/-- TOKEN_BUCKET_UPDATE (R207). -/
def execTokenBucketUpdate (s : State) : Host.Outcome State Fault Refusal :=
  s.command tokenBucketUpdate

/-- GATE_ENTRY_CHANGE (R211). -/
def execGateEntryChange (port : Fin 512) (s : State) : Host.Outcome State Fault Refusal :=
  s.command (gateEntryChange port.val)

/-- GATE_CHANGE_REQUEST (R213). -/
def execGateChangeRequest (who : Fin 64) (port : Fin 512) (s : State) : Host.Outcome State Fault Refusal :=
  s.command (gateRequestWrite who.val port.val)

/-- GATE_CHANGE_CANCEL (R213). -/
def execGateChangeCancel (who : Fin 64) (port : Fin 512) (s : State) : Host.Outcome State Fault Refusal :=
  s.command (gateCancelWrite who.val port.val)

/-- GATE_CHANGE_TIME (R213). -/
def execGateChangeTime (port : Fin 512) (s : State) : Host.Outcome State Fault Refusal :=
  s.command (gateChangeTime port.val)

/-- QUEUE_SAMPLE (R216). -/
def execQueueSample (die : Fin 4) (late : Bool) (s : State) : Host.Outcome State Fault Refusal :=
  s.command (queueSample die.val late)

end Sys2Proof.Machine
end

