-- ==== Sys2Proof/Machine/ExecTime.lean ====
section
/-! DEFINITION. Meanings of the commands of the time base, one for each row of the opcode table: the effect that the rules give the row,
run as one command. -/

namespace Sys2Proof.Machine

/-- TIME_REF_LOSS (R377). -/
def execTimeRefLoss (diff : Int) (s : State) : Host.Outcome State Fault Refusal :=
  s.command (timeRefLoss diff)

/-- TIME_REF_RETURN (R377). -/
def execTimeRefReturn (s : State) : Host.Outcome State Fault Refusal :=
  s.command timeRefReturn

/-- PPS_IN_EDGE (R378). -/
def execPpsInEdge (s : State) : Host.Outcome State Fault Refusal :=
  s.command ppsInEdge

/-- PPS_MISS (R378). -/
def execPpsMiss (s : State) : Host.Outcome State Fault Refusal :=
  s.command ppsMiss

/-- TIM_SET (R369). -/
def execTimSet (who : Fin 64) (counter : Fin 2) (s : State) : Host.Outcome State Fault Refusal :=
  s.command (timSetWrite who.val counter.val 1)

/-- TIM_ADD (R369). -/
def execTimAdd (who : Fin 64) (counter : Fin 2) (s : State) : Host.Outcome State Fault Refusal :=
  s.command (timSetWrite who.val counter.val 2)

/-- TIM_OFFSET_WRITE (R374). -/
def execTimOffsetWrite (who : Fin 64) (domain : Fin 2) (offset : BitVec 64) (s : State) : Host.Outcome State Fault Refusal :=
  s.command (timOffsetRow who.val domain.val offset.toNat)

/-- DOMAIN_MODE_WRITE (R374). -/
def execDomainModeWrite (who : Fin 64) (domain : Fin 2) (mode : BitVec 2) (s : State) : Host.Outcome State Fault Refusal :=
  s.command (domainModeRow who.val domain.val mode.toNat)

/-- LIVENESS_CHECK (R375). -/
def execLivenessCheck (s : State) : Host.Outcome State Fault Refusal :=
  s.command livenessCheck

/-- T1_FOLLOW_FEED (R376). -/
def execT1FollowFeed (s : State) : Host.Outcome State Fault Refusal :=
  s.command t1FollowFeed

/-- GPTP_SYNC_SEND (R372). -/
def execGptpSyncSend (lport : Fin 2048) (message : List Byte) (s : State) : Host.Outcome State Fault Refusal :=
  s.command (gptpSyncSend lport.val message)

/-- TXQ_POP (R373). -/
def execTxqPop (who : Fin 64) (die : Fin 4) (s : State) : Host.Outcome State Fault Refusal :=
  s.command (txqPopWrite who.val die.val)

/-- PPS_OUT_RISE (R379). -/
def execPpsOutRise (s : State) : Host.Outcome State Fault Refusal :=
  s.command ppsOutRise

/-- PPS_OUT_FALL (R379). -/
def execPpsOutFall (s : State) : Host.Outcome State Fault Refusal :=
  s.command ppsOutFall

end Sys2Proof.Machine
end

