-- ==== Sys2Proof/Machine/Dispatch.lean ====
section
/-! DEFINITION. The meaning of every command, one arm for each row of the opcode table. -/

namespace Sys2Proof.Machine

def exec (i : Instr) (s : State) : Host.Outcome State Fault Refusal :=
  match i with
  | .powerOn vin => Sys2Proof.Machine.execPowerOn vin s
  | .railBoundMissed => Sys2Proof.Machine.execRailBoundMissed s
  | .railRetry => Sys2Proof.Machine.execRailRetry s
  | .vin48Trip cause => Sys2Proof.Machine.execVin48Trip cause s
  | .isolationLinkSilent tenMs => Sys2Proof.Machine.execIsolationLinkSilent tenMs s
  | .coldBoot pufOk trained => Sys2Proof.Machine.execColdBoot pufOk trained s
  | .warmRstPin => Sys2Proof.Machine.execWarmRstPin s
  | .warmResetRegister who => Sys2Proof.Machine.execWarmResetRegister who s
  | .warmResetRelease trained copyOk => Sys2Proof.Machine.execWarmResetRelease trained copyOk s
  | .dieReset who die => Sys2Proof.Machine.execDieReset who die s
  | .dieResetRelease die trained => Sys2Proof.Machine.execDieResetRelease die trained s
  | .pageSoftReset who page => Sys2Proof.Machine.execPageSoftReset who page s
  | .pageConfigRestore page => Sys2Proof.Machine.execPageConfigRestore page s
  | .portReset who port => Sys2Proof.Machine.execPortReset who port s
  | .sysclkLoss => Sys2Proof.Machine.execSysclkLoss s
  | .serdesRefLoss die => Sys2Proof.Machine.execSerdesRefLoss die s
  | .serdesRefReturn die => Sys2Proof.Machine.execSerdesRefReturn die s
  | .timeRefLoss diff => Sys2Proof.Machine.execTimeRefLoss diff s
  | .timeRefReturn => Sys2Proof.Machine.execTimeRefReturn s
  | .ppsInEdge => Sys2Proof.Machine.execPpsInEdge s
  | .ppsMiss => Sys2Proof.Machine.execPpsMiss s
  | .meshLaneGroupFail die link group flits => Sys2Proof.Machine.execMeshLaneGroupFail die link group flits s
  | .meshCrossing src dst pool => Sys2Proof.Machine.execMeshCrossing src dst pool s
  | .rdmaWrite m qp rkey addr data via => Sys2Proof.Machine.execRdmaWrite m qp rkey addr data via s
  | .rdmaRead m qp rkey addr len via find => Sys2Proof.Machine.execRdmaRead m qp rkey addr len via find s
  | .registerWrite who addr value => Sys2Proof.Machine.execRegisterWrite who addr value s
  | .hostSend m qp via => Sys2Proof.Machine.execHostSend m qp via s
  | .localAckTimeout m qp => Sys2Proof.Machine.execLocalAckTimeout m qp s
  | .rnrRetryTimer m qp => Sys2Proof.Machine.execRnrRetryTimer m qp s
  | .cmReq m hostQpn priv via => Sys2Proof.Machine.execCmReq m hostQpn priv via s
  | .cmRtu m qp signature via => Sys2Proof.Machine.execCmRtu m qp signature via s
  | .sessionIdleTimeout session => Sys2Proof.Machine.execSessionIdleTimeout session s
  | .ringOwnerRelease session => Sys2Proof.Machine.execRingOwnerRelease session s
  | .mkaKeyInstall m an => Sys2Proof.Machine.execMkaKeyInstall m an s
  | .mkaTimeout m => Sys2Proof.Machine.execMkaTimeout m s
  | .mgtLinkChange m up => Sys2Proof.Machine.execMgtLinkChange m up s
  | .pgCommitWrite who page seq => Sys2Proof.Machine.execPgCommitWrite who page seq s
  | .pgCommitAbort who page => Sys2Proof.Machine.execPgCommitAbort who page s
  | .bankSwap page => Sys2Proof.Machine.execBankSwap page s
  | .dualTimeout ticket => Sys2Proof.Machine.execDualTimeout ticket s
  | .pgGuardWrite who page owner => Sys2Proof.Machine.execPgGuardWrite who page owner s
  | .ringDoorbell who ring producer => Sys2Proof.Machine.execRingDoorbell who ring producer s
  | .descriptorFetch ring find => Sys2Proof.Machine.execDescriptorFetch ring find s
  | .ringEnable who ring => Sys2Proof.Machine.execRingEnable who ring s
  | .ringDisable who ring => Sys2Proof.Machine.execRingDisable who ring s
  | .cqHeadWrite who ring consumed => Sys2Proof.Machine.execCqHeadWrite who ring consumed s
  | .evrEnable who evr => Sys2Proof.Machine.execEvrEnable who evr s
  | .evrDisable who evr => Sys2Proof.Machine.execEvrDisable who evr s
  | .evrHeadWrite who evr consumed => Sys2Proof.Machine.execEvrHeadWrite who evr consumed s
  | .coreWatchdogExpiry core rings => Sys2Proof.Machine.execCoreWatchdogExpiry core rings s
  | .coreRestart core => Sys2Proof.Machine.execCoreRestart core s
  | .nop ring => Sys2Proof.Machine.execNop ring s
  | .bankCommit ring => Sys2Proof.Machine.execBankCommit ring s
  | .tableSearch ring => Sys2Proof.Machine.execTableSearch ring s
  | .tableNext ring => Sys2Proof.Machine.execTableNext ring s
  | .tableInsert ring ecc => Sys2Proof.Machine.execTableInsert ring ecc s
  | .tableDelete ring => Sys2Proof.Machine.execTableDelete ring s
  | .flushByPort ring => Sys2Proof.Machine.execFlushByPort ring s
  | .routeDrain ring => Sys2Proof.Machine.execRouteDrain ring s
  | .routeDrainQueuesEmpty table => Sys2Proof.Machine.execRouteDrainQueuesEmpty table s
  | .routeDrainExpiry table => Sys2Proof.Machine.execRouteDrainExpiry table s
  | .portAccept ring => Sys2Proof.Machine.execPortAccept ring s
  | .bypassEnable ring => Sys2Proof.Machine.execBypassEnable ring s
  | .bypassReset ring => Sys2Proof.Machine.execBypassReset ring s
  | .bypassRead ring => Sys2Proof.Machine.execBypassRead ring s
  | .groupWrite ring find => Sys2Proof.Machine.execGroupWrite ring find s
  | .groupDisable ring => Sys2Proof.Machine.execGroupDisable ring s
  | .flightLoad ring find => Sys2Proof.Machine.execFlightLoad ring find s
  | .triggerArm ring => Sys2Proof.Machine.execTriggerArm ring s
  | .quotaSet ring => Sys2Proof.Machine.execQuotaSet ring s
  | .planLoad ring find => Sys2Proof.Machine.execPlanLoad ring find s
  | .configSave ring good => Sys2Proof.Machine.execConfigSave ring good s
  | .configSaveAuto good => Sys2Proof.Machine.execConfigSaveAuto good s
  | .powerCapSet ring => Sys2Proof.Machine.execPowerCapSet ring s
  | .powerCapAboveDefault ring => Sys2Proof.Machine.execPowerCapAboveDefault ring s
  | .keyEnrol ring find => Sys2Proof.Machine.execKeyEnrol ring find s
  | .protectTableCommit ring => Sys2Proof.Machine.execProtectTableCommit ring s
  | .counterSnapshot ring find => Sys2Proof.Machine.execCounterSnapshot ring find s
  | .moduleAssociate die straps => Sys2Proof.Machine.execModuleAssociate die straps s
  | .i3cRetry transfer => Sys2Proof.Machine.execI3cRetry transfer s
  | .moduleRediscovery engine answer => Sys2Proof.Machine.execModuleRediscovery engine answer s
  | .moduleIbi engine faults => Sys2Proof.Machine.execModuleIbi engine faults s
  | .laserInputLow engine input tap => Sys2Proof.Machine.execLaserInputLow engine input tap s
  | .laserInputRestore engine input tap => Sys2Proof.Machine.execLaserInputRestore engine input tap s
  | .engineBringup engine => Sys2Proof.Machine.execEngineBringup engine s
  | .laserInputsReady engine taps => Sys2Proof.Machine.execLaserInputsReady engine taps s
  | .calibrationDone engine taps => Sys2Proof.Machine.execCalibrationDone engine taps s
  | .engineStepTimeout engine => Sys2Proof.Machine.execEngineStepTimeout engine s
  | .optRecal who engine => Sys2Proof.Machine.execOptRecal who engine s
  | .portTxEnable lport => Sys2Proof.Machine.execPortTxEnable lport s
  | .partnerLightLock lport => Sys2Proof.Machine.execPartnerLightLock lport s
  | .alignmentLock lport => Sys2Proof.Machine.execAlignmentLock lport s
  | .linkHoldUpExpiry lport => Sys2Proof.Machine.execLinkHoldUpExpiry lport s
  | .linkDownDeclare lport cause => Sys2Proof.Machine.execLinkDownDeclare lport cause s
  | .rxFaultOrderedSet lport fault => Sys2Proof.Machine.execRxFaultOrderedSet lport fault s
  | .berWindow port corrected errors => Sys2Proof.Machine.execBerWindow port corrected errors s
  | .portSleep who port => Sys2Proof.Machine.execPortSleep who port s
  | .portWake who port => Sys2Proof.Machine.execPortWake who port s
  | .subPortEnableWrite who port enable => Sys2Proof.Machine.execSubPortEnableWrite who port enable s
  | .shutterClose lport => Sys2Proof.Machine.execShutterClose lport s
  | .bypassDrainExpiry port => Sys2Proof.Machine.execBypassDrainExpiry port s
  | .switchingStart engine => Sys2Proof.Machine.execSwitchingStart engine s
  | .switchingDone engine bad => Sys2Proof.Machine.execSwitchingDone engine bad s
  | .periodicReadback engine => Sys2Proof.Machine.execPeriodicReadback engine s
  | .bypReadbackWrite who engine => Sys2Proof.Machine.execBypReadbackWrite who engine s
  | .frameReceive lport bytes find => Sys2Proof.Machine.execFrameReceive lport bytes find s
  | .pfcXoffRefresh lport cls => Sys2Proof.Machine.execPfcXoffRefresh lport cls s
  | .pfcPauseExpiry lport cls => Sys2Proof.Machine.execPfcPauseExpiry lport cls s
  | .heldFrameAdmit src dst => Sys2Proof.Machine.execHeldFrameAdmit src dst s
  | .frameTransmit lport find => Sys2Proof.Machine.execFrameTransmit lport find s
  | .mcResidencyExpiry lport cls => Sys2Proof.Machine.execMcResidencyExpiry lport cls s
  | .helloSend lport => Sys2Proof.Machine.execHelloSend lport s
  | .neighbourLivenessTimeout lport silent => Sys2Proof.Machine.execNeighbourLivenessTimeout lport silent s
  | .lldpSend lport => Sys2Proof.Machine.execLldpSend lport s
  | .discoveryCompare lport => Sys2Proof.Machine.execDiscoveryCompare lport s
  | .learnApply die ecc => Sys2Proof.Machine.execLearnApply die ecc s
  | .agingSweep => Sys2Proof.Machine.execAgingSweep s
  | .lpmScrub die bad => Sys2Proof.Machine.execLpmScrub die bad s
  | .escapeReevaluate die => Sys2Proof.Machine.execEscapeReevaluate die s
  | .escapeTimer lport cls => Sys2Proof.Machine.execEscapeTimer lport cls s
  | .banisterContinue lport cls => Sys2Proof.Machine.execBanisterContinue lport cls s
  | .ringWaitAlarm die => Sys2Proof.Machine.execRingWaitAlarm die s
  | .sprayDecay die => Sys2Proof.Machine.execSprayDecay die s
  | .tokenBucketUpdate => Sys2Proof.Machine.execTokenBucketUpdate s
  | .gateEntryChange port => Sys2Proof.Machine.execGateEntryChange port s
  | .gateChangeRequest who port => Sys2Proof.Machine.execGateChangeRequest who port s
  | .gateChangeCancel who port => Sys2Proof.Machine.execGateChangeCancel who port s
  | .gateChangeTime port => Sys2Proof.Machine.execGateChangeTime port s
  | .queueSample die late => Sys2Proof.Machine.execQueueSample die late s
  | .activationStart core => Sys2Proof.Machine.execActivationStart core s
  | .flightNop core ctx => Sys2Proof.Machine.execFlightNop core ctx s
  | .flightEnd core ctx => Sys2Proof.Machine.execFlightEnd core ctx s
  | .sync core ctx => Sys2Proof.Machine.execSync core ctx s
  | .li core ctx => Sys2Proof.Machine.execLi core ctx s
  | .lsi core ctx => Sys2Proof.Machine.execLsi core ctx s
  | .addi core ctx => Sys2Proof.Machine.execAddi core ctx s
  | .shli core ctx => Sys2Proof.Machine.execShli core ctx s
  | .shri core ctx => Sys2Proof.Machine.execShri core ctx s
  | .alu core ctx => Sys2Proof.Machine.execAlu core ctx s
  | .fld core ctx => Sys2Proof.Machine.execFld core ctx s
  | .fins core ctx => Sys2Proof.Machine.execFins core ctx s
  | .ldw core ctx find => Sys2Proof.Machine.execLdw core ctx find s
  | .stw core ctx => Sys2Proof.Machine.execStw core ctx s
  | .beq core ctx => Sys2Proof.Machine.execBeq core ctx s
  | .bne core ctx => Sys2Proof.Machine.execBne core ctx s
  | .bltu core ctx => Sys2Proof.Machine.execBltu core ctx s
  | .bgeu core ctx => Sys2Proof.Machine.execBgeu core ctx s
  | .beqi core ctx => Sys2Proof.Machine.execBeqi core ctx s
  | .bnei core ctx => Sys2Proof.Machine.execBnei core ctx s
  | .jmp core ctx => Sys2Proof.Machine.execJmp core ctx s
  | .spcfg core ctx => Sys2Proof.Machine.execSpcfg core ctx s
  | .tdef core ctx => Sys2Proof.Machine.execTdef core ctx s
  | .vld core ctx find => Sys2Proof.Machine.execVld core ctx find s
  | .vst core ctx => Sys2Proof.Machine.execVst core ctx s
  | .vbin core ctx find => Sys2Proof.Machine.execVbin core ctx find s
  | .vcvt core ctx find => Sys2Proof.Machine.execVcvt core ctx find s
  | .vquant core ctx find => Sys2Proof.Machine.execVquant core ctx find s
  | .xadd core ctx find eng => Sys2Proof.Machine.execXadd core ctx find eng s
  | .xround core ctx find eng => Sys2Proof.Machine.execXround core ctx find eng s
  | .pass core ctx => Sys2Proof.Machine.execPass core ctx s
  | .fsend core ctx => Sys2Proof.Machine.execFsend core ctx s
  | .arrayPassStart core find => Sys2Proof.Machine.execArrayPassStart core find s
  | .arrayDrain core find => Sys2Proof.Machine.execArrayDrain core find s
  | .fillerPass core result => Sys2Proof.Machine.execFillerPass core result s
  | .dutyRamp core => Sys2Proof.Machine.execDutyRamp core s
  | .xseInject who core value => Sys2Proof.Machine.execXseInject who core value s
  | .arrInject who core value => Sys2Proof.Machine.execArrInject who core value s
  | .vecInject who core value => Sys2Proof.Machine.execVecInject who core value s
  | .hallStageComplete key => Sys2Proof.Machine.execHallStageComplete key s
  | .dieLandingMerge key die => Sys2Proof.Machine.execDieLandingMerge key die s
  | .landingEmit key => Sys2Proof.Machine.execLandingEmit key s
  | .landingTimerCheck die => Sys2Proof.Machine.execLandingTimerCheck die s
  | .tombstoneExpiry die => Sys2Proof.Machine.execTombstoneExpiry die s
  | .residualAreaHold key => Sys2Proof.Machine.execResidualAreaHold key s
  | .residualCopyDone key find => Sys2Proof.Machine.execResidualCopyDone key find s
  | .residualWriteBack key => Sys2Proof.Machine.execResidualWriteBack key s
  | .dramRefresh die temp => Sys2Proof.Machine.execDramRefresh die temp s
  | .dramScrub die finds => Sys2Proof.Machine.execDramScrub die finds s
  | .lpddr6Refresh device => Sys2Proof.Machine.execLpddr6Refresh device s
  | .lpddr6TempRead device temp mult ok us => Sys2Proof.Machine.execLpddr6TempRead device temp mult ok us s
  | .lpddr6Retrain device ok us => Sys2Proof.Machine.execLpddr6Retrain device ok us s
  | .lpddr6Scrub device finds => Sys2Proof.Machine.execLpddr6Scrub device finds s
  | .sramScrub die finds => Sys2Proof.Machine.execSramScrub die finds s
  | .timSet who counter => Sys2Proof.Machine.execTimSet who counter s
  | .timAdd who counter => Sys2Proof.Machine.execTimAdd who counter s
  | .timOffsetWrite who domain offset => Sys2Proof.Machine.execTimOffsetWrite who domain offset s
  | .domainModeWrite who domain mode => Sys2Proof.Machine.execDomainModeWrite who domain mode s
  | .livenessCheck => Sys2Proof.Machine.execLivenessCheck s
  | .t1FollowFeed => Sys2Proof.Machine.execT1FollowFeed s
  | .gptpSyncSend lport message => Sys2Proof.Machine.execGptpSyncSend lport message s
  | .txqPop who die => Sys2Proof.Machine.execTxqPop who die s
  | .ppsOutRise => Sys2Proof.Machine.execPpsOutRise s
  | .ppsOutFall => Sys2Proof.Machine.execPpsOutFall s
  | .throttlePeriod watts current vin => Sys2Proof.Machine.execThrottlePeriod watts current vin s
  | .throttleRelease watts => Sys2Proof.Machine.execThrottleRelease watts s
  | .capExceeded watts => Sys2Proof.Machine.execCapExceeded watts s
  | .thermalSensorRead die hot engines stage watts => Sys2Proof.Machine.execThermalSensorRead die hot engines stage watts s
  | .thermalNotch die => Sys2Proof.Machine.execThermalNotch die s
  | .thermNRelease => Sys2Proof.Machine.execThermNRelease s
  | .clusterGate who die cluster => Sys2Proof.Machine.execClusterGate who die cluster s
  | .clusterGateComplete die cluster => Sys2Proof.Machine.execClusterGateComplete die cluster s
  | .clusterUngate who die cluster => Sys2Proof.Machine.execClusterUngate who die cluster s
  | .dieStandbyEnter who die => Sys2Proof.Machine.execDieStandbyEnter who die s
  | .dieStandbyExit who die trained => Sys2Proof.Machine.execDieStandbyExit who die trained s
  | .packageStandbyEnter who => Sys2Proof.Machine.execPackageStandbyEnter who s
  | .packageStandbyExit who trained => Sys2Proof.Machine.execPackageStandbyExit who trained s
  | .grpReplLoad who die set => Sys2Proof.Machine.execGrpReplLoad who die set s
  | .grpReplStore who die set => Sys2Proof.Machine.execGrpReplStore who die set s
  | .quoteRequest who offset => Sys2Proof.Machine.execQuoteRequest who offset s
  | .errorCorrelation => Sys2Proof.Machine.execErrorCorrelation s
  | .retireWrite who retired => Sys2Proof.Machine.execRetireWrite who retired s
  | .healthEvaluation => Sys2Proof.Machine.execHealthEvaluation s
  | .counterSweep => Sys2Proof.Machine.execCounterSweep s
  | .sweepOnce who => Sys2Proof.Machine.execSweepOnce who s
  | .sysclkReturn => Sys2Proof.Machine.execSysclkReturn s
  | .rocev2AckReceive m qp answer via => Sys2Proof.Machine.execRocev2AckReceive m qp answer via s
  | .neighborDiscovery m target via => Sys2Proof.Machine.execNeighborDiscovery m target via s
  | .bypassTemperatureWaitExpiry engine => Sys2Proof.Machine.execBypassTemperatureWaitExpiry engine s

end Sys2Proof.Machine
end

