-- ==== Sys2Proof/Machine/Tick.lean ====
section
/-! DEFINITION. The tick: one nanosecond in which no command waits. Both time counters advance (R367), the page counters of modes ABOVE
and CYCLES count the CK_CORE cycles in it (R454, R456), and what comes about by itself at boot, at standby and in a save does so. -/

namespace Sys2Proof.Machine

/-- Pages and numbers of the counters whose enable bit is listed: no other counter is enabled. -/
def State.enabledCounters (s : State) : List (Nat × Nat) :=
  (s.regs.filter fun e => e.1 % 64 == 63 && decide (0xF80 ≤ e.1 / 64 % 4096) && e.2 != 0).map fun e =>
    (e.1 / 64 / 4096 * 4096, (e.1 / 64 % 4096 - 0xF80) / 8)

/-- One nanosecond of a powered package. -/
def State.tickOn (s : State) : State :=
  let n := cyclesIn s.now 1
  let s := s.each s.enabledCounters fun x s => s.cycleCount n x.1 x.2
  s.tickTime.bootProgress.standbyStep.saveStep

/-- One nanosecond passes with no command waiting. -/
def State.tick (s : State) : State :=
  { s.run fun s => s.iff s.power.pwrOk State.tickOn with now := s.now + 1 }

end Sys2Proof.Machine
end

