-- ==== Sys2Proof/Safety.lean ====
section
/-! DEFINITION. What claims about the package are stated in: a command that completes with a result, a run that goes on, and the
properties of a state that every step keeps. -/

namespace Sys2Proof.Machine

/-- Command `c` at state `s` completes: it answers a next state, and `P` holds of it. -/
def Completes (c : Instr) (s : State) (P : State → Prop) : Prop := ∃ t, exec c s = .next t ∧ P t

/-- Every command that waits is well formed. -/
def State.queueOk (s : State) : Prop := ∀ c ∈ s.pending, c.wellFormed = true

/-- The FAULT_N pin is low exactly while some bit of PWR_FAULT is 1 (R393). -/
def State.pinOk (s : State) : Prop := s.power.faultN = !s.faulted

/-- A safe run of `n` steps: none of them ends in a fault or a refusal. -/
def SafeRun : Nat → State → Prop
  | 0, _ => True
  | n + 1, s => ∃ t, step s = .next t ∧ SafeRun n t

/-- Session `who` is admitted and may write the register at offset `off` of page `a` (R53, R429). -/
def State.writes (s : State) (who a off : Nat) : Prop := (s.session who).active = true ∧ s.mayWrite who a off = true

/-- The oldest command of ring `r` is `e`, of opcode `op`: read without error, within the rights of R63, not started, and with a control core
running where firmware performs it (R73). -/
structure State.atFront (s : State) (r op : Nat) (fw : Bool) (e : Descriptor) : Prop where
  front : (s.ring r).inflight.head? = some e
  good : e.bad = false
  code : e.opcode = op
  idle : (s.ring r).waiting = false
  allowed : e.allowed = true
  core : fw = true → s.boot.cores ≠ 0

/-- What ring `r` does once a command has been performed: commands at its front that cannot be performed complete too. -/
def State.settled (s : State) (r : Nat) : State := s.settle r (s.ring r).inflight.length

/-- Command `c` performs the oldest command of ring `r`: its effect leaves a state with `P`, and then it completes with a status and two
results, and the ring goes on. -/
def Answers (c : Instr) (s : State) (r st c1 c2 : Nat) (P : State → Prop) : Prop :=
  ∃ v, P v ∧ exec c s = .next (s.run fun _ => (v.complete r st c1 c2).settled r)

/-- Command `c` starts the oldest command of ring `r`: its effect so far leaves a state with `P`, and it waits for an event of its own. -/
def Waits (c : Instr) (s : State) (r : Nat) (P : State → Prop) : Prop :=
  ∃ v, P v ∧ exec c s = .next (s.run fun _ => (v.answer r none).settled r)

/-- A command whose completion is to be discarded (R61). -/
def Descriptor.muted (e : Descriptor) : Descriptor := { e with mute := true }

/-- From `s` to `t` the oldest command of ring `r` has left it. Where its queue pair was not ready, the completions of the others are to be
discarded (R61). -/
def Left (s t : State) (r : Nat) : Prop := (t.ring r).inflight.map Descriptor.muted = (s.ring r).inflight.tail.map Descriptor.muted

/-- What `t` shares with `s` when a command has touched registers, power, outputs, queue pairs and records at most: memory, tables, the
switch, the collectives and the cores. -/
structure SameCore (s t : State) : Prop where
  mem : t.mem = s.mem
  tables : t.tables = s.tables
  sw : t.sw = s.sw
  coll : t.coll = s.coll
  cores : t.cores = s.cores
  subs : t.subs = s.subs

/-! ### Frames -/

/-- Byte offset of a register key within its page, and the page. -/
def offOf (k : Nat) : Nat := k / 64 % 4096
def pageOf (k : Nat) : Nat := k / 64 / 4096 * 4096

/-- Page counter values. -/
def isCtr (k : Nat) : Prop := 0xF00 ≤ offOf k ∧ offOf k < 0xF80
/-- Fields of the event ring pages. -/
def isEvr (k : Nat) : Prop := 0xF010000 ≤ pageOf k ∧ pageOf k < 0xF018000
/-- Interrupt and error fields of the page at `a`. -/
def isIrq (a k : Nat) : Prop := pageOf k = a ∧ offOf k = 0x18
def isErr (a k : Nat) : Prop := pageOf k = a ∧ (offOf k = 0x30 ∨ offOf k = 0x38)

/-- What counting and events may write: counter values and the event rings' own fields. -/
def shared (k : Nat) : Prop := isCtr k ∨ isEvr k

/-- What a command that works on the pages `l` may write: their fields, counter values and the event rings' own fields. -/
def onPages (l : List Nat) (k : Nat) : Prop := shared k ∨ pageOf k ∈ l

/-! Pages of one kind, over the package. -/
def diePagesOf (f : Nat → Nat) : List Nat := (List.range 4).map f
def engPagesOf (f : Nat → Nat) : List Nat := (List.range 16).map f
def corePagesOf (f : Nat → Nat) : List Nat := (List.range 32).map f

/-- The pieces of the state beside the register fields. `banks` is the shadow bank with the writes held for it. -/
inductive Piece where
  | banks | mem | power | boot | sec | mgmt | time | subs | modules | byp | rel | reader | tables | sw | coll | cores
  deriving DecidableEq, Repr

/-- A piece is the same in two states; of the power pins FAULT_N follows PWR_FAULT and is no part of it. -/
def Piece.same (s t : State) : Piece → Prop
  | .banks => t.shadow = s.shadow ∧ t.heldWrites = s.heldWrites ∧ t.commitSeq = s.commitSeq
  | .mem => t.mem = s.mem
  | .power => { t.power with faultN := s.power.faultN } = s.power
  | .boot => t.boot = s.boot
  | .sec => t.sec = s.sec
  | .mgmt => t.mgmt = s.mgmt
  | .time => t.time = s.time
  | .subs => t.subs = s.subs
  | .modules => t.modules = s.modules
  | .byp => t.byp = s.byp
  | .rel => t.rel = s.rel
  | .reader => t.reader = s.reader
  | .tables => t.tables = s.tables
  | .sw => t.sw = s.sw
  | .coll => t.coll = s.coll
  | .cores => t.cores = s.cores

/-- From `s` to `t` nothing changes but the pieces listed, the register fields whose keys satisfy `regs`, the outputs and the count of
free values: the queue and the clock stay, and so does every byte of device memory unless `mem` is listed. -/
structure ChangesOnly (changed : List Piece) (regs : Nat → Prop) (s t : State) : Prop where
  queue : t.pending = s.pending
  clock : t.now = s.now
  pieces : ∀ p, p ∉ changed → p.same s t
  fields : ∀ (d k : Nat), ¬regs k → Sparse.get d t.regs k = Sparse.get d s.regs k

/-- From `s` to `t` the bytes `l` have been stored at address `a`, and every other byte of device memory reads as before. -/
def Wrote (s t : State) (a : Nat) (l : List Byte) : Prop :=
  (∀ i, i < l.length → Memory.read t.mem (a + i) = l.getD i 0) ∧ ∀ b, (b < a ∨ a + l.length ≤ b) → Memory.read t.mem b = Memory.read s.mem b

/-- Nothing has changed at all but the outputs, which the next command takes away. -/
def Unchanged (s t : State) : Prop := ChangesOnly [] (fun _ => False) s t

/-! ### Frames at a management port -/

/-- A frame that came to management port `m` as `via` says is heard: on an up port it passes the port's MACsec checks (R48), and one relayed
over the fabric is the oldest that waits for M0, whose policy is OFF (R130). -/
def State.hears (s : State) (m : Nat) (via : Via) : Prop :=
  if via = .relayed then m = 0 ∧ s.mgmt.relayed ≠ [] ∧ s.passes 0 .relayed = true
  else s.flag MGT_PORT_STATUS.link_up (mgtPage m) = true ∧ s.passes m via = true

/-- What hearing it changes: the port's frame counter and the packet number expected next, or the frames relayed; and whether its queue
pair `qp` runs unprotected frames. -/
def State.heard (s : State) (m : Nat) (via : Via) (qp : Option Nat := none) : State :=
  (if via = .relayed then { s with mgmt := { s.mgmt with relayed := s.mgmt.relayed.tail } }
    else (s.count (mgtPage m) 0x80).sawPn m via).sawVia m qp via

/-- A frame that came to management port `m` as `via` says, for queue pair `q`, is an unprotected one that the policy REQUIRED discards on a
ready queue pair that still runs unprotected frames (R426). -/
def State.unheard (s : State) (m q : Nat) (via : Via) : Prop :=
  (if via = .relayed then m = 0 ∧ s.mgmt.relayed ≠ [] else s.flag MGT_PORT_STATUS.link_up (mgtPage m) = true)
    ∧ via.isPlain = true ∧ s.passes m via = false ∧ (s.qp m q).mode = .ready ∧ (s.qp m q).plain = true

/-- From `s` to `t` a frame at a management port has been taken at most: counters and the port's own records may have changed, and the queue
pairs are those of `u`. -/
def Passed (s t : State) (u : State := s) : Prop :=
  ChangesOnly [.mgmt] isCtr s t ∧ t.mgmt.sessions = s.mgmt.sessions ∧ t.mgmt.qps = u.mgmt.qps ∧ t.out = []

/-- What becomes of queue pair `q` of port `m` in error: it is not ready; device memory, tables and the switch stay. -/
def QpDead (s t : State) (m q : Nat) : Prop :=
  (t.qp m q).mode ≠ .ready ∧ t.mem = s.mem ∧ t.tables = s.tables ∧ t.sw = s.sw

/-- A frame for queue pair `q` of port `m` that does not reach its receiver: one not heard changes nothing but counters, or ends a queue pair
that still runs unprotected frames, and one heard on a pair that cannot take it changes no more than how that pair runs. -/
def NotTaken (c : Instr) (s : State) (m q : Nat) (via : Via) (fits : Prop) : Prop :=
  (s.hears m via → ¬fits → Completes c s fun t => Passed s t (s.sawVia m (some q) via))
    ∧ (¬s.hears m via → ¬s.unheard m q via → Completes c s fun t => Passed s t)
    ∧ (s.unheard m q via → Sparse.sorted s.mgmt.qps = true → Completes c s fun t => QpDead s t m q)

/-! ### Frames -/

/-- A frame of `n` bytes has arrived on logical port `l`: counted on its port page (R455). -/
def State.received (s : State) (l n : Nat) : State :=
  (s.count (portPage (l / 4)) 0x87 (l % 4)).count (portPage (l / 4)) 0x89 (l % 4) n

/-- Frame `b` as S0 stores it on logical port `l` in treads of `pool` (R162, R165): its number, and the state with it. -/
def State.stored (s : State) (l : Nat) (b : List Byte) (hjt : Bool) (pool : Pool) : Nat × State :=
  s.rxStore l (s.rxClass l (unwire b)) (treadsOf b.length) (unwire b) hjt pool

/-- Logical port `l` receives frames (R40, R162): the plan is `pl`, the sub-port is UP and of role DOWN or GALLERY. -/
structure State.receives (s : State) (pl : Plan) (l : Nat) : Prop where
  plan : s.boot.plan = some pl
  up : s.isUp l = true
  role : s.role (l / 4) = roleDown ∨ s.role (l / 4) = roleGallery
  running : s.power.stopped = false
  straight : s.loopsBack l = false

/-- Frame `id` is no longer in the store, and the queues, the waits and every other frame are as in `s`. -/
def Gone (s t : State) (id : Nat) : Prop :=
  t.frame? id = none ∧ (∀ i, i ≠ id → t.frame? i = s.frame? i) ∧ t.sw.queues = s.sw.queues ∧ t.sw.waits = s.sw.waits

/-- Target `k` of frame `f` is a queue of the frame's own die and admits it at `s` without a wait (R167, R172, R173, R176). -/
def State.admits (s : State) (f : Frame) (k : Target) : Prop :=
  let l := k.key / 66 / 8
  l / 512 = f.die ∧ s.inService l = true ∧ k.key % 66 ≠ 65
    ∧ (if isHold f.cls then s.behind f k.key = false ∧ s.mustSpill l f = false
       else s.underAlpha f.die f.cls (s.depth l f.cls + f.treads) (s.dropFree f.die f.pool) = true)

/-- From `s` to `t` the device has put the bytes `u` as one new frame at the end of queue `k`; every other queue and frame stays. -/
def Queued (s t : State) (k : Nat) (u : List Byte) : Prop :=
  t.queue k = s.queue k ++ [{ id := s.sw.nextId, at_ := s.now, mc := false, eligible := false, noEscape := false, hall := 0, hdr := none }] ∧ (∀ j, j ≠ k → t.queue j = s.queue j)
    ∧ (∃ f, t.frame? s.sw.nextId = some f ∧ f.bytes = u ∧ f.own = true ∧ f.refs = 1) ∧ ∀ i, i ≠ s.sw.nextId → t.frame? i = s.frame? i

/-- Logical port `l` is one of a banister port, whose hold-class queues are ring queues (R203). -/
def State.ringOut (s : State) (l : Nat) : Bool := decide (s.role (l / 4) = roleGallery) && s.isBanister (l / 4)

/-- The TC6 queue that a frame of the device enters on logical port `l` (R196, R203). -/
def State.ownQueue (s : State) (l : Nat) : Nat :=
  if s.role (l / 4) = roleGallery then if s.isBanister (l / 4) then qKey l 6 65 else qKey l 6 63 else qKey l 6 64

/-- The device's own TC6 frame of bytes `u` for logical port `l`, as it is stored with one reference. -/
def ownFrame (l : Nat) (u : List Byte) (hjt : Bool) : Frame :=
  { bytes := u, src := 0xFFFF, die := l / 512, pool := .forward, treads := treadsOf (wireLen u), cls := 6, job := if hjt then 0 else 0xFFFF,
    refs := 1, own := true, hjt := hjt, counted := false, result := false }

/-- The ring queue of logical port `l` has room for a frame that enters, once the frame of bytes `u` is stored (R192). -/
def State.ringRoom (s : State) (l : Nat) (u : List Byte) (hjt : Bool) : Prop :=
  ringEnterRoom ≤ (s.newFrame (ownFrame l u hjt)).2.ringFree l 6

/-- From `s` to `t` the device has copied its frame of bytes `u` into the ring treads of queue `k`, at its end; every other queue and frame
stays. -/
def RingQueued (s t : State) (l : Nat) (u : List Byte) (hjt : Bool) : Prop :=
  let id := s.sw.nextId + 1
  t.queue (s.ownQueue l) = s.queue (s.ownQueue l)
      ++ [{ id := id, at_ := s.now, mc := false, eligible := false, noEscape := false, hall := 0, hdr := none }]
    ∧ (∀ j, j ≠ s.ownQueue l → t.queue j = s.queue j) ∧ t.frame? id = some { ownFrame l u hjt with pool := .ring }
    ∧ t.frame? s.sw.nextId = none ∧ ∀ i, i ≠ id → i ≠ s.sw.nextId → t.frame? i = s.frame? i

/-- From `s` to `t` the device's frame of bytes `u` waits in its treads for room in the ring queue of logical port `l`. -/
def RingWaits (s t : State) (l : Nat) (u : List Byte) (hjt : Bool) : Prop :=
  let x : Target := ⟨s.ownQueue l, false, 0, none⟩
  t.sw.waits = s.sw.waits ++ [{ id := s.sw.nextId, kind := .intake, die := l / 512, targets := [x], hall := 0, hdr := none, mc := false, noEscape := false }]
    ∧ t.sw.queues = s.sw.queues ∧ t.frame? s.sw.nextId = some (ownFrame l u hjt) ∧ ∀ i, i ≠ s.sw.nextId → t.frame? i = s.frame? i

/-- Frame `id` has lost one reference from `s` to `t`, and with its last one its place in the store (R174). -/
def Released (s t : State) (id : Nat) : Prop :=
  ∀ f, s.frame? id = some f → t.frame? id = if 1 < f.refs then some { f with refs := f.refs - 1 } else none

/-- The oldest of some queue entries, the first one on a tie. -/
def oldestOf (l : List (Nat × QEntry)) : Option (Nat × QEntry) :=
  l.foldl (fun a x => match a with
    | none => some x
    | some y => if x.2.at_ < y.2.at_ then some x else a) none

/-- Entries of the queues of logical port `l` and class `c` that satisfy `p`, each with the key of its queue. -/
def State.entriesOf (s : State) (l c : Nat) (p : Nat → QEntry → Bool) : List (Nat × QEntry) :=
  (s.queuesOf l c).flatMap fun e => (e.2.filter fun x => p e.1 x).map fun x => (e.1, x)

/-- Wait `w` is of kind `k` and its frame is one of die `d`. -/
def State.waitsOn (s : State) (d : Nat) (k : WaitKind) (w : Wait) : Bool :=
  decide (w.kind = k) && match s.frame? w.id with
    | some f => f.die == d
    | none => false

/-- What stands before wait `w` when its frame is selected again (R163). -/
def State.aheadOf (s : State) (w : Wait) : List Wait := s.sw.waits.takeWhile fun y => !(y.id == w.id && decide (y.kind = w.kind))

/-- The frame of a ring queue entry: a frame that is not yet in ring treads is stored anew in them (R192). -/
def State.ringId (s : State) (f : Frame) (id : Nat) : Nat := if f.pool = .ring then id else s.sw.nextId

/-! ### Flights -/

/-- Context `i` of core `c` runs activation `a` of landing `l` of entry `e`, and the word at its pc is `w`. -/
structure State.issues (s : State) (c i w : Nat) (a : Activation) (e : Entry) (l : Landing) : Prop where
  ctx : ((s.core c).ctxs.find? fun x => x.1 == i) = some (i, a)
  live : s.live? a.event.key = some e
  landing : e.on? a.event.die = some l
  word : ∃ y, ((s.core c).slots.find? fun x => x.1 == a.slot) = some y ∧ y.2.words.getD a.pc 0 = w

/-- The run of activation `a` before its instruction starts. -/
def State.runOf (s : State) (c i : Nat) (a : Activation) (e : Entry) (l : Landing) : Run :=
  ⟨s, c, i, a, l, e, s.group a.event.key.group, .ok, 0⟩

/-- Nothing holds the word `w` of activation `a` back: it need not wait for a pass (R329), and its steps are not used up (R331). -/
structure State.mayIssue (s : State) (c i w : Nat) (a : Activation) (e : Entry) (l : Landing) : Prop where
  idle : (s.runOf c i a e l).mustWait w = false
  steps : a.steps < s.rd CMB_CFG.max_steps (cmbPage c)

/-- The run that an instruction starts from, its pc past the instruction. -/
def State.begun (s : State) (c i : Nat) (a : Activation) (e : Entry) (l : Landing) (find : Find) (eng : Nat) : Run :=
  ⟨s.cleared.count (cmbPage c) 0x81, c, i, { a with pc := a.pc + 1, steps := a.steps + 1 }, l, e, s.group a.event.key.group, find, eng⟩

/-- Activation `a` after an instruction that goes on at `pc`. -/
def Activation.next (a : Activation) (pc : Nat) : Activation := { a with pc := pc, steps := a.steps + 1 }

/-- Activation `a` after an instruction that leaves `v` in scalar register `rd`. -/
def Activation.result (a : Activation) (rd v : Nat) : Activation :=
  { a with pc := a.pc + 1, steps := a.steps + 1, s := Sparse.set a.s rd (v % 2 ^ 64) }

/-- From `s` to `t` context `i` of core `c` runs `b` and its landing is `m`: no other context, waiting event, array, slot, core, entry, group,
quota or area has changed, nor anything outside the listed pieces. -/
structure Advanced (s t : State) (c i : Nat) (k : Key) (e : Entry) (b : Activation) (m : Landing) (pieces : List Piece) : Prop where
  ctx : ((t.core c).ctxs.find? fun x => x.1 == i) = some (i, b)
  landing : t.live? k = some (e.setLanding m)
  ctxs : ∀ j, j ≠ i → ((t.core c).ctxs.find? fun x => x.1 == j) = (s.core c).ctxs.find? fun x => x.1 == j
  core : { t.core c with ctxs := (s.core c).ctxs } = s.core c
  cores : ∀ x, x ≠ c → t.core x = s.core x
  entries : ∀ j, j ≠ k → t.live? j = s.live? j
  coll : t.coll = { s.coll with dir := t.coll.dir }
  rest : ∀ y, y ∉ pieces → y.same s t

/-- Command `cmd` completes an instruction of context `i` of core `c`: its activation of entry `e` is `b` and its landing `m` after it. -/
def Retires (cmd : Instr) (s : State) (c i : Nat) (k : Key) (e : Entry) (b : Activation) (m : Landing) : Prop :=
  Completes cmd s fun t => Advanced s t c i k e b m [.coll, .cores, .mgmt, .rel]

end Sys2Proof.Machine
end

