-- ==== Sys2Proof/Certificates/Slice0/Obligations.lean ====
section
/-! DEFINITION. The statements for the provers: what each family of commands does, what it leaves unchanged, and what every step keeps. -/

open Sys2Proof Sys2Proof.Machine

/-- For every command c and state s, a step of s with c at the front of its queue is exec c on s with the queue's rest. On an empty queue one
nanosecond passes and the queue stays empty (the model's own choice, log entry 1). (95_what_each_step_holds.md) -/
def Obligations.StepRunsTheFrontCommand : Prop :=
  (∀ (c : Instr) (rest : List Instr) (s : State), step { s with pending := c :: rest } = exec c { s with pending := rest })
    ∧ ∀ s : State, s.pending = [] → ∃ t, step s = .next t ∧ t.pending = [] ∧ t.now = s.now + 1

/-- No state stops a well-formed command of any row: it answers a next state with the queue and the clock as they were and FAULT_N low exactly
when a bit of PWR_FAULT is 1. An ill-formed command stops with the fault illFormed at every state (log entry 49).
(95_what_each_step_holds.md) -/
def Obligations.WellFormedCommandsNeverStop : Prop :=
  ∀ (c : Instr) (s : State),
    (c.wellFormed = true → Completes c s fun t => t.pending = s.pending ∧ t.now = s.now ∧ t.pinOk)
      ∧ (c.wellFormed = false → exec c s = .fault .illFormed)

/-- From every state whose FAULT_N pin follows PWR_FAULT (R393) and whose waiting commands are well formed, the step of any command, or of the
clock, answers a next state of the same kind. The pin rule is R393's; that the queue holds well-formed commands is the model's condition
(log entry 49). (19_power_and_thermal.md, 95_what_each_step_holds.md) -/
def Obligations.EveryStepKeepsTheInvariant : Prop :=
  ∀ s : State, s.pinOk → s.queueOk → ∃ t, step s = .next t ∧ t.pinOk ∧ t.queueOk

/-- State.reset has FAULT_N high with no bit of PWR_FAULT set, an empty queue, canonical (empty) device memory, PWR_OK low, and every register
field at the reset value of the register tables. (19_power_and_thermal.md, 20_reset_boot_and_persistence.md) -/
def Obligations.ResetMeetsTheInvariant : Prop :=
  State.reset.pinOk ∧ State.reset.queueOk ∧ Memory.wf State.reset.mem = true ∧ State.reset.power.pwrOk = false
    ∧ (∀ (f : Fld) (a i : Nat), State.reset.rd f a i = f.reset i % 2 ^ f.w)
    ∧ State.reset.rd PWR_CAP.cap_w pwrPkgPage = 3000 ∧ State.reset.rd CTL_RING_CFG.owner (ringBlock 0) = 0xFF
    ∧ State.reset.rd PG_GUARD.owner bootPage = 0xFF ∧ State.reset.rd CTL_PKG_ID.stepping ctlPkgPage = 0xB0

/-- From every state whose FAULT_N pin follows PWR_FAULT and whose waiting commands are well formed, a run of any number of steps ends in
neither a fault nor a refusal. (95_what_each_step_holds.md) -/
def Obligations.WellFormedQueuesRunForever : Prop :=
  ∀ (n : Nat) (s : State), s.pinOk → s.queueOk → SafeRun n s

/-- With PWR_OK low and no lock-out, POWER_ON at a VIN48 of 41.0 V or more before any failure, and RAIL_RETRY after the first failure, leave
every rail at its nominal voltage and PWR_OK high. Nothing changes but the rail readings, PWR_OK, VIN48's reading, the stage and the start
of boot time. POWER_ON below 41.0 V or after a failure, RAIL_RETRY without one, and both with PWR_OK high or locked out change nothing.
The end of the sequence in one command is the model's (log entry 44). That a retry that succeeds clears the count of failures is the
model's choice (log entry 22). (R385, 19_power_and_thermal.md) -/
def Obligations.PowerUpRaisesPwrOk : Prop :=
  ∀ (s : State) (vin : BitVec 10),
    let up := fun t : State => t.power.pwrOk = true ∧ t.power.step = 6 ∧ t.power.supplied = true ∧ t.power.failures = 0
      ∧ t.rd PWR_PKG_STATUS.pwr_ok pwrPkgPage = 1 ∧ t.boot.startedAt = s.now
      ∧ (∀ d i, d < 4 → i < 8 → t.rd PWR_RAIL.rail (pwrDiePage d) i = [80, 75, 80, 85, 80, 75, 180, 180].getD i 0)
      ∧ ChangesOnly [.power, .boot] (fun k => (∃ d i, d < 4 ∧ i < 8 ∧ k = PWR_RAIL.rail.key (pwrDiePage d) i)
          ∨ k = PWR_PKG_STATUS.pwr_ok.key pwrPkgPage 0 ∨ k = PWR_PKG_STATUS.vin.key pwrPkgPage 0) s t
    let off := s.power.pwrOk = false ∧ s.power.lockedOff = false
    (off → s.power.failures = 0 → 410 ≤ vin.toNat →
        Completes (.powerOn vin) s fun t => up t ∧ t.rd PWR_PKG_STATUS.vin pwrPkgPage = vin.toNat)
      ∧ (off → s.power.failures ≠ 0 → Completes .railRetry s up)
      ∧ (¬off ∨ s.power.failures ≠ 0 ∨ vin.toNat < 410 → Completes (.powerOn vin) s (Unchanged s))
      ∧ (¬off ∨ s.power.failures = 0 → Completes .railRetry s (Unchanged s))

/-- With PWR_OK high, VIN48_TRIP sets undervoltage, overvoltage or overcurrent and ISOLATION_LINK_SILENT at 10 ms sets isolation_link;
RAIL_BOUND_MISSED sets rail_fault unless the stage is locked off. Each leaves PWR_OK low, every rail reading 0, FAULT_N low, the other
bits of PWR_FAULT as they were, and flash as it was. A silence of 100 us only holds the setpoints. A second missed bound locks the stage
off, and VIN48 below 38.0 V ends that at any time (log entry 22). Else, with PWR_OK low, a trip or a silence changes nothing, and no
missed bound does while the stage is locked off. (R385, R386, R393) -/
def Obligations.RailsGoOffOnATrip : Prop :=
  ∀ (s : State) (cause : Fin 3) (tenMs : Bool),
    let off := fun (f : Fld) (t : State) => t.power.pwrOk = false ∧ t.power.faultN = false ∧ t.rd f pwrPkgPage = 1
      ∧ (∀ g ∈ faultFields, g ≠ f → t.rd g pwrPkgPage = s.rd g pwrPkgPage) ∧ t.rd PWR_PKG_STATUS.pwr_ok pwrPkgPage = 0
      ∧ (∀ d i, d < 4 → i < 8 → t.rd PWR_RAIL.rail (pwrDiePage d) i = 0)
      ∧ t.boot.fwA = s.boot.fwA ∧ t.boot.fwB = s.boot.fwB ∧ t.boot.cfgA = s.boot.cfgA ∧ t.boot.cfgB = s.boot.cfgB
      ∧ t.sec.copyA = s.sec.copyA ∧ t.sec.copyB = s.sec.copyB
    let reset := fun t : State => t.power.supplied = false ∧ t.power.failures = 0 ∧ t.power.lockedOff = false
    (s.power.pwrOk = true → Completes (.vin48Trip cause) s fun t => off (tripField cause.val) t ∧ (cause = 0 → reset t))
      ∧ (s.power.pwrOk = false → cause = 0 → Completes (.vin48Trip cause) s fun t => reset t ∧ ChangesOnly [.power] (fun _ => False) s t)
      ∧ (s.power.pwrOk = false → cause ≠ 0 → Completes (.vin48Trip cause) s (Unchanged s))
      ∧ (s.power.pwrOk = true → Completes (.isolationLinkSilent true) s (off PWR_FAULT.isolation_link))
      ∧ (s.power.pwrOk = true → Completes (.isolationLinkSilent false) s fun t => t.power.held = true ∧ t.power.pwrOk = true
          ∧ ChangesOnly [.power] (fun _ => False) s t)
      ∧ (s.power.pwrOk = false → Completes (.isolationLinkSilent tenMs) s (Unchanged s))
      ∧ (s.power.lockedOff = false → Completes .railBoundMissed s fun t => off PWR_FAULT.rail_fault t
          ∧ t.power.failures = s.power.failures + 1 ∧ (t.power.lockedOff = true ↔ s.power.failures ≠ 0))
      ∧ (s.power.lockedOff = true → Completes .railBoundMissed s (Unchanged s))

/-- With PWR_OK high: a period with P above the cap applies one further notch (array ratio down to 8/16, then CK_CMB by 50 MHz to 24 notches,
then admission to 0) and CK_CMB of every cluster follows the higher of the package and the die's thermal notch; a period with P at or
below the cap, or with every step at its floor, leaves the notches; a release 100 us below the hysteresis takes one notch back in reverse
order; P above the cap with every step at its floor sets cap_exceeded, step 4 and FAULT_N low, and forwarding goes on. Where the four
clusters of a die ran at one frequency they still do. The highest step shown is that of the notches. Tables, memory, frames and landings
are untouched. With PWR_OK low none of the three changes anything, nor does CAP_EXCEEDED short of the floor or within the cap, nor a
release within the hysteresis or without a notch. (R391, R392, R42) -/
def Obligations.ThrottleMovesOneNotch : Prop :=
  ∀ (s : State) (w : BitVec 16) (cur : BitVec 12) (vin : BitVec 10),
    let on := s.power.pwrOk = true
    let low := w.toNat * 100 < s.cap * (100 - s.rd PWR_THROTTLE_CFG.hyst_pct pwrPkgPage)
    let R := fun t : State => t.rd PWR_THROTTLE.array_ratio pwrPkgPage
    let N := fun t : State => t.rd PWR_THROTTLE.cmb_notch pwrPkgPage
    let A := fun t : State => t.rd PWR_THROTTLE.admission pwrPkgPage
    let now := fun (t : State) (r n a : Nat) => R t = r ∧ N t = n ∧ A t = a
    let step := fun t : State => t.rd PWR_PKG_STATUS.throttle_step pwrPkgPage
    let mhz := fun (t : State) (d i : Nat) => t.rd CLK_CMB_FREQ.mhz (clkPage d) i
    let one := fun (t : State) (d : Nat) => ∀ i, i < 4 → mhz t d i = mhz t d 0
    let clocks := fun t : State => step t = t.stepNow
      ∧ ∀ d i, d < 4 → i < 4 → i = 0 ∨ one s d → mhz t d i = cmbMhz (max t.pkgNotch (t.rd PWR_DIE_STATUS.thermal_notch (pwrDiePage d)))
    let frame := fun t : State =>
      ChangesOnly [.power, .mgmt] (onPages (pwrPkgPage :: diePagesOf clkPage ++ diePagesOf pwrDiePage)) s t
        ∧ t.rd PWR_PKG_STATUS.power_w pwrPkgPage = w.toNat ∧ t.cap = s.cap ∧ t.power.stopped = s.power.stopped ∧ t.power.pwrOk = true
        ∧ ∀ d, d < 4 → one s d → one t d
    (on → s.cap < w.toNat → s.atFloor = false → Completes (.throttlePeriod w cur vin) s fun t => frame t
        ∧ (8 < R s → now t (R s - 1) (N s) (A s) ∧ clocks t)
        ∧ (R s ≤ 8 → N s < 24 → now t (R s) (N s + 1) (A s) ∧ clocks t)
        ∧ (R s ≤ 8 → 24 ≤ N s → 0 < A s → now t (R s) (N s) (A s - 1) ∧ clocks t))
      ∧ (on → w.toNat ≤ s.cap → Completes (.throttlePeriod w cur vin) s fun t => frame t ∧ now t (R s) (N s) (A s) ∧ step t = t.stepNow)
      ∧ (on → s.cap < w.toNat → s.atFloor = true → Completes (.throttlePeriod w cur vin) s fun t => frame t ∧ now t (R s) (N s) (A s)
          ∧ step t = step s)
      ∧ (on → s.pkgNotch ≠ 0 → low → Completes (.throttleRelease w) s fun t => frame t
            ∧ (A s < 8 → now t (R s) (N s) (A s + 1) ∧ clocks t)
            ∧ (8 ≤ A s → 0 < N s → now t (R s) (N s - 1) (A s) ∧ clocks t)
            ∧ (8 ≤ A s → N s = 0 → R s < 16 → now t (R s + 1) 0 (A s) ∧ clocks t))
      ∧ (on → s.atFloor = true → s.cap < w.toNat → Completes (.capExceeded w) s fun t => frame t ∧ now t (R s) (N s) (A s) ∧ step t = 4
          ∧ t.rd PWR_FAULT.cap_exceeded pwrPkgPage = 1 ∧ t.power.faultN = false)
      ∧ (¬on → Completes (.throttlePeriod w cur vin) s (Unchanged s))
      ∧ (¬on ∨ s.pkgNotch = 0 ∨ ¬low → Completes (.throttleRelease w) s (Unchanged s))
      ∧ (¬on ∨ s.atFloor = false ∨ w.toNat ≤ s.cap → Completes (.capExceeded w) s (Unchanged s))

/-- With PWR_OK high: readings of a die below crit_c and of the stage below 125 C are recorded, and THERM_N is low afterwards when the die's
hot temperature is at or above therm_c or an engine reads 85.0 C or more; at or above crit_c, or a stage at 125 C or more, therm_crit is
set, FAULT_N is low and the rails are off. At or above warn_c a die takes one further thermal notch, down to the floor at 40, and 5 C
below warn_c one fewer. THERM_N returns high only when every die is 5 C below therm_c and every engine at or below 80.0 C. With PWR_OK low
the readings and notches stay. (R393, R394, R386) -/
def Obligations.ThermalActions : Prop :=
  ∀ (s : State) (d : Fin 4),
    let on := s.power.pwrOk = true
    (∀ (hot : BitVec 16) (engs : List (BitVec 16)) (stage : BitVec 10) (watts : BitVec 16), engs.length = 4 →
      let crit := 10 * s.rd PWR_THERM_CFG.crit_c pwrPkgPage ≤ hot.toNat ∨ 125 ≤ stage.toNat
      let limit := 10 * s.rd PWR_THERM_CFG.therm_c pwrPkgPage ≤ hot.toNat ∨ ∃ e ∈ engs, 850 ≤ e.toNat
      (¬on → Completes (.thermalSensorRead d hot engs stage watts) s (Unchanged s)) ∧ (on → Completes (.thermalSensorRead d hot engs stage watts) s fun t =>
        (¬crit → t.rd PWR_DIE_STATUS.hot_temp (pwrDiePage d.val) = hot.toNat ∧ t.rd PWR_DIE_STATUS.die_power_w (pwrDiePage d.val) = watts.toNat
            ∧ t.rd PWR_PKG_STATUS.stage_temp pwrPkgPage = stage.toNat ∧ t.power.pwrOk = true ∧ t.mem = s.mem ∧ t.tables = s.tables
            ∧ (limit → t.power.thermN = false) ∧ (¬limit → t.power.thermN = s.power.thermN))
          ∧ (crit → t.rd PWR_FAULT.therm_crit pwrPkgPage = 1 ∧ t.power.faultN = false ∧ t.power.pwrOk = false
            ∧ ∀ i, i < 8 → t.rd PWR_RAIL.rail (pwrDiePage d.val) i = 0)))
      ∧ (¬on → Completes (.thermalNotch d) s (Unchanged s))
      ∧ (on → Completes (.thermalNotch d) s fun t =>
          let T := s.rd PWR_DIE_STATUS.hot_temp (pwrDiePage d.val)
          let W := 10 * s.rd PWR_THERM_CFG.warn_c pwrPkgPage
          let n := fun x : State => x.rd PWR_DIE_STATUS.thermal_notch (pwrDiePage d.val)
          (W ≤ T → n t = min 40 (n s + 1)) ∧ (T < W → T + 50 ≤ W → n t = n s - 1) ∧ (T < W → W < T + 50 → n t = n s)
            ∧ (∀ i, i < 4 → i = 0 ∨ (∀ j, j < 4 → s.rd CLK_CMB_FREQ.mhz (clkPage d.val) j = s.rd CLK_CMB_FREQ.mhz (clkPage d.val)) →
              (W ≤ T ∨ T + 50 ≤ W) → t.rd CLK_CMB_FREQ.mhz (clkPage d.val) i = cmbMhz (max t.pkgNotch (n t)))
            ∧ ChangesOnly [.power] (onPages [clkPage d.val, pwrDiePage d.val]) s t)
      ∧ Completes .thermNRelease s (fun t =>
          let cool := (∀ e, e < 4 → s.rd PWR_DIE_STATUS.hot_temp (pwrDiePage e) + 50 ≤ 10 * s.rd PWR_THERM_CFG.therm_c pwrPkgPage)
            ∧ ∀ e, e < 16 → s.rd OPT_ENG_STATUS.temp (engPage e) ≤ 800
          (cool → t.power.thermN = true) ∧ (¬cool → t.power.thermN = s.power.thermN) ∧ ChangesOnly [.power] (fun _ => False) s t)

/-- A session that may write PWR_DIE_CTRL sets or clears bit c of gate_mask and no other bit. CLUSTER_GATE_COMPLETE on a cluster that is asked
to leave, with no landing on its cores, its arrays at their boundary and the stage taking setpoints (R384), marks it gated with both
arrays at duty 0; at any other cluster it changes nothing. CLUSTER_UNGATE on a die in service marks it not gated, and an array of a
cluster that was gated starts at duty 0. Flight slots are kept; tables, frames, landings and memory are untouched, and unless a die is
entering standby nothing changes outside the pages of power, arrays, memories and engines. (R388, R12) -/
def Obligations.ClustersGateAndReturn : Prop :=
  ∀ (s : State) (who : Fin 64) (d c : Fin 4),
    let a := pwrDiePage d.val
    let mask := fun t : State => t.rd PWR_DIE_CTRL.gate_mask a
    let gated := fun t : State => bit (t.rd PWR_DIE_STATUS.gated a) c.val
    let cores := [8 * d.val + 2 * c.val, 8 * d.val + 2 * c.val + 1]
    let frame := fun t : State =>
      ((∀ k, 1 ≤ k → k < 4 → s.rd PWR_DIE_STATUS.state (pwrDiePage k) ≠ 1) →
          ChangesOnly [.cores, .mgmt, .modules, .power]
            (onPages (pwrPkgPage :: diePagesOf pwrDiePage ++ corePagesOf arrPage ++ (List.range 12).map memPage ++ engPagesOf engPage)) s t)
        ∧ t.mem = s.mem ∧ t.tables = s.tables ∧ t.sw = s.sw ∧ t.coll = s.coll
        ∧ (s.flag PWR_PKG_CTRL.standby_req pwrPkgPage = false → t.modules = s.modules)
        ∧ ∀ k, (t.core k).slots = (s.core k).slots
    (s.writes who.val a 0x100 → Completes (.clusterGate who d c) s fun t => frame t ∧ mask t = setBit (mask s) c.val true)
      ∧ (s.gateAsked d.val c.val = true → s.mayGate d.val c.val = true → Completes (.clusterGateComplete d c) s fun t => frame t
          ∧ gated t = true ∧ ∀ k ∈ cores, t.rd ARR_STATUS.duty (arrPage k) = 0)
      ∧ (s.gateAsked d.val c.val = false ∨ s.mayGate d.val c.val = false → Completes (.clusterGateComplete d c) s (Unchanged s))
      ∧ (s.writes who.val a 0x100 → s.rd PWR_DIE_STATUS.state a = 0 → s.flag PWR_PKG_CTRL.standby_req pwrPkgPage = false →
          Completes (.clusterUngate who d c) s fun t => frame t ∧ mask t = setBit (mask s) c.val false ∧ gated t = false
            ∧ (gated s = true → ∀ k ∈ cores, t.rd ARR_STATUS.duty (arrPage k) = 0))

/-- A session that may write the register: a die-standby request on die 0 is refused with STANDBY_DIE0 (counted, and latched where the latch
is free); on dies 1 to 3 in service it is held, no sub-port of the die stays UP, and the die is entering, or in standby with its clusters
gated. In standby its rails VCORE, VSRAM, VSERDES and VOPT read 0 (log entry 66). Clearing it returns the die to service, and a die whose
memories were in self-refresh takes die 0's endpoint copies. A package request puts dies 1 to 3 in or on the way to standby, leaves no
sub-port of a die in service UP, commands the outputs of every associated module off whose engine's ports are dark, and darkens M2 and M3;
clearing it ends package standby and returns dies 1 to 3 unless their own request stands. (R389, R390) -/
def Obligations.StandbyEntersAndLeaves : Prop :=
  ∀ (s : State) (who : Fin 64) (d : Fin 4) (trained : List Bool),
    let a := pwrDiePage d.val
    let st := fun (t : State) (k : Nat) => t.rd PWR_DIE_STATUS.state (pwrDiePage k)
    let req := fun (t : State) (k : Nat) => t.flag PWR_DIE_CTRL.standby_req (pwrDiePage k)
    let asleep := fun (t : State) (k : Nat) => st t k = 1 ∨ st t k = 2 ∧ t.rd PWR_DIE_STATUS.gated (pwrDiePage k) = 15
      ∧ ∀ i ∈ standbyRails, t.rd PWR_RAIL.rail (pwrDiePage k) i = 0
    (s.writes who.val a 0x100 → d = 0 → Completes (.dieStandbyEnter who d) s fun t =>
        req t 0 = req s 0 ∧ t.rd PG_ERR_COUNT.count a = min (s.rd PG_ERR_COUNT.count a + 1) (2 ^ 48 - 1)
          ∧ (s.flag PG_ERR_FIRST.valid a = false → t.rd PG_ERR_FIRST.code a = 0x000A ∧ t.flag PG_ERR_FIRST.valid a = true))
      ∧ (s.writes who.val a 0x100 → d ≠ 0 → req s d.val = false → st s d.val = 0 → Completes (.dieStandbyEnter who d) s fun t =>
          req t d.val = true ∧ asleep t d.val ∧ (∀ l, l / 512 = d.val → t.isUp l = false) ∧ t.mem = s.mem ∧ t.tables = s.tables)
      ∧ (s.writes who.val a 0x100 → d ≠ 0 → req s d.val = true → st s d.val ≠ 0 → s.flag PWR_PKG_CTRL.standby_req pwrPkgPage = false →
          trained.length = 6 → Completes (.dieStandbyExit who d trained) s fun t => req t d.val = false ∧ st t d.val = 0 ∧ t.mem = s.mem
            ∧ (s.flag MEM_STATUS.self_refresh (memPage (3 * d.val)) = true →
                ∀ k, k < 2 ^ 19 → t.ep? d.val k = s.ep? 0 k))
      ∧ (s.writes who.val pwrPkgPage 0x130 → s.flag PWR_PKG_CTRL.standby_req pwrPkgPage = false →
          Completes (.packageStandbyEnter who) s fun t => t.flag PWR_PKG_CTRL.standby_req pwrPkgPage = true
            ∧ (∀ k, 1 ≤ k → k < 4 → st t k = 1 ∨ st t k = 2)
            ∧ (∀ l, l < 2048 → st s (l / 512) = 0 → t.isUp l = false)
            ∧ (∀ e, e < 16 → (s.module e).associated = true → (∀ x ∈ t.subs, x.1 / 128 = e → x.2.tx = .dark) → (t.module e).outEn = 0)
            ∧ (∀ m, m = 2 ∨ m = 3 → t.rd MGT_PORT_STATUS.link_up (mgtPage m) = 0) ∧ t.mem = s.mem ∧ t.tables = s.tables)
      ∧ (s.writes who.val pwrPkgPage 0x130 → s.flag PWR_PKG_CTRL.standby_req pwrPkgPage = true → s.pkgStandbyLeft = true →
          trained.length = 24 → Completes (.packageStandbyExit who trained) s fun t => t.flag PWR_PKG_CTRL.standby_req pwrPkgPage = false
            ∧ t.flag PWR_PKG_STATUS.pkg_standby pwrPkgPage = false ∧ t.mem = s.mem
            ∧ (∀ k, 1 ≤ k → k < 4 → req s k = false → st t k = 0)
            ∧ (st s 3 ≠ 0 → req s 3 = false → ∀ m, m = 2 ∨ m = 3 → s.flag MGT_PORT_STATUS.link_up (mgtPage m) = false →
                t.flag MGT_PORT_STATUS.training (mgtPage m) = true))

/-- PORT_TX_ENABLE takes a wanted sub-port at step 5, served by its engine, to receive lock, sending remote fault; PARTNER_LIGHT_LOCK takes it
on to alignment; ALIGNMENT_LOCK makes its receive path valid and it sends idle in hold-up, unless the fault threshold is 0;
LINK_HOLD_UP_EXPIRY without a received fault and without loopback makes it UP and UNACCEPTED and raises the link-up interrupt bit. Every
other sub-port keeps its state, and nothing outside the port, its interrupt bits and the event rings changes. In any other state each of
the four changes nothing. (R86, R94) -/
def Obligations.PortBringUpSteps : Prop :=
  ∀ (s : State) (l : Fin 2048),
    let a := portPage (l.val / 4)
    let key := OPT_PORT_STATE.state.key a (l.val % 4)
    let others := fun t : State => ∀ k, k ≠ l.val → t.sub k = s.sub k ∧ (k < 2048 → t.linkState k = s.linkState k)
    let only := fun t : State => ChangesOnly [.subs] (fun k => k = key) s t ∧ others t
    (s.linkState l.val = psTxOn → s.wanted l.val = true → s.engineServes (l.val / 4) = true → Completes (.portTxEnable l) s fun t => only t
        ∧ t.linkState l.val = psRxLock ∧ t.sub l.val = { s.sub l.val with tx := .remoteFault, rxValid := false, rxFault := .none })
      ∧ (s.linkState l.val = psRxLock → Completes (.partnerLightLock l) s fun t => only t
          ∧ t.linkState l.val = psPcsLock ∧ t.sub l.val = s.sub l.val)
      ∧ (s.linkState l.val = psPcsLock → s.rd OPT_BER_CFG.fault a ≠ 0 → Completes (.alignmentLock l) s fun t => only t
          ∧ t.linkState l.val = psUpHold ∧ t.sub l.val = { s.sub l.val with rxValid := true, rxFault := .none, tx := .idle })
      ∧ (s.linkState l.val = psUpHold → (s.sub l.val).rxFault = .none → s.rd OPT_PORT_CFG.loopback a = 0 → s.wanted l.val = true →
          Completes (.linkHoldUpExpiry l) s fun t => others t ∧ t.isUp l.val = true ∧ (t.sub l.val).disc = .unaccepted
            ∧ (t.sub l.val).twoWay = false ∧ bit (t.rd PG_IRQ_RAW.block_irq a) 0 = true
            ∧ ChangesOnly [.subs, .mgmt] (fun k => k = key ∨ isIrq a k ∨ shared k) s t)
      ∧ (s.linkState l.val ≠ psTxOn ∨ s.wanted l.val = false ∨ s.engineServes (l.val / 4) = false → Completes (.portTxEnable l) s (Unchanged s))
      ∧ (s.linkState l.val ≠ psRxLock → Completes (.partnerLightLock l) s (Unchanged s))
      ∧ (s.linkState l.val ≠ psPcsLock ∨ s.rd OPT_BER_CFG.fault a = 0 → Completes (.alignmentLock l) s (Unchanged s))
      ∧ (s.linkState l.val ≠ psUpHold ∨ (s.sub l.val).rxFault ≠ .none ∨ s.rd OPT_PORT_CFG.loopback a ≠ 0 ∨ s.wanted l.val = false →
          Completes (.linkHoldUpExpiry l) s (Unchanged s))

/-- A condition of R87 takes an UP sub-port to receive lock with the cause recorded, its receive path not valid, its discovery state lost and
its queues empty (causes 5 and 6 only where that fault stands), and one in alignment or hold-up back to receive lock without an event;
nothing else changes a sub-port. A change of the received fault is kept; local fault is answered with remote fault, anything else with
idle. A window in which a lane of an UP sub-port reaches the fault threshold takes that sub-port down with SER_FAULT, and the corrected
and uncorrectable counts of the port rise only. Memory, tables, configuration, landings and combine cores are untouched. (R87, R88, R89,
R176, R90) -/
def Obligations.LinkLossAndReceivedFaults : Prop :=
  ∀ (s : State) (l : Fin 2048),
    let a := portPage (l.val / 4)
    let frame := fun t : State => ∀ p ∈ ([.banks, .mem, .power, .boot, .sec, .time, .modules, .byp, .reader, .tables, .coll, .cores] : List Piece), p.same s t
    let stands := fun c : Nat => (c = 5 → (s.sub l.val).rxFault = .remoteFault) ∧ (c = 6 → (s.sub l.val).rxFault = .localFault)
    let down := fun (c : Nat) (t : State) => t.linkState l.val = psRxLock ∧ (t.sub l.val).tx = .remoteFault ∧ (t.sub l.val).rxValid = false
      ∧ (t.sub l.val).disc = .notUp ∧ t.rd OPT_PORT_STATE.last_cause a = c ∧ ∀ k, k / 66 / 8 = l.val → t.queue k = []
    let early := s.linkState l.val = psPcsLock ∨ s.linkState l.val = psUpHold
    (∀ cause, 1 ≤ cause → cause ≤ 6 →
        (stands cause → s.isUp l.val = true → Completes (.linkDownDeclare l cause) s fun t => down cause t ∧ frame t)
          ∧ (stands cause → early → Completes (.linkDownDeclare l cause) s fun t => t.linkState l.val = psRxLock
            ∧ t.sub l.val = { s.sub l.val with tx := .remoteFault, rxValid := false, rxFault := .none }
            ∧ ChangesOnly [.subs] (fun k => k = OPT_PORT_STATE.state.key a (l.val % 4)) s t)
          ∧ (¬stands cause ∨ s.isUp l.val = false ∧ ¬early → Completes (.linkDownDeclare l cause) s (Unchanged s)))
      ∧ (∀ f : RxFault, (s.sub l.val).rxValid = false ∨ (s.sub l.val).rxFault = f → Completes (.rxFaultOrderedSet l f) s (Unchanged s))
      ∧ (∀ f : RxFault, (s.sub l.val).rxValid = true → (s.sub l.val).rxFault ≠ f → Completes (.rxFaultOrderedSet l f) s fun t =>
          t.sub l.val = { s.sub l.val with rxFault := f, tx := if f = .localFault then .remoteFault else .idle }
            ∧ (∀ k, k ≠ l.val → t.sub k = s.sub k) ∧ ChangesOnly [.subs, .mgmt] (fun k => isIrq a k ∨ shared k) s t)
      ∧ ∀ (p : Fin 512) (cor : List (BitVec 32)) (errs : List LaneErrors), cor.length = 4 → errs.length = 4 →
          Completes (.berWindow p cor errs) s fun t =>
          frame t ∧ s.rd OPT_FEC_CORR.count (portPage p.val) ≤ t.rd OPT_FEC_CORR.count (portPage p.val)
            ∧ s.rd OPT_FEC_UNCORR.count (portPage p.val) ≤ t.rd OPT_FEC_UNCORR.count (portPage p.val)
            ∧ ∀ k, k < 4 → l.val = 4 * p.val + laneSub (s.portRec p.val).breakout k → s.isUp l.val = true →
                s.rd OPT_BER_CFG.fault (portPage p.val) ≤ (cor.getD k 0).toNat → down cSerFault t

/-- A session that may write OPT_PORT_CFG: setting sleep takes every lit sub-port of the port to local fault and none stays UP; clearing it
starts every dark sub-port, at step 5 where the port is served by its engine and waiting for it otherwise; a sub_enable write keeps the
bits that the breakout uses, sends local fault on the sub-ports it disables, and starts the dark ones it enables; one that transmits goes
on. When the shutter closes, a sub-port that is to stay dark is dark in its rest state, one that is to restart starts, and one held for
its whole port starts with the last of them, and the last of a port whose drain closes ends the drain with every sub-port dark (R101). In
a die reset nothing starts. Sub-ports of other ports keep their state. That sleep acts when it changes, only on used sub-ports, and that
bits beyond the breakout are stored as 0 is the model's choice (log entry 29). (R91, R92, R86, R387) -/
def Obligations.PortTransmitChanges : Prop :=
  ∀ (s : State) (who : Fin 64) (p : Fin 512),
    let a := portPage p.val
    let sleep := fun t : State => t.flag OPT_PORT_CFG.sleep a
    let en := fun t : State => t.rd OPT_PORT_CFG.sub_enable a
    let others := fun t : State => (∀ l, l / 4 ≠ p.val → t.sub l = s.sub l ∧ (l < 2048 → t.linkState l = s.linkState l))
      ∧ ∀ q ∈ ([.mem, .power, .boot, .sec, .time, .modules, .byp, .tables, .coll, .cores] : List Piece), q.same s t
    let started := fun (t : State) (l : Nat) => t.wanted l = true →
      ((s.sub l).tx = .dark → t.dieHeld (l / 512) = false → t.linkState l = if t.engineServes p.val then psTxOn else psWaitEngine)
        ∧ ((s.sub l).tx ≠ .dark → t.sub l = s.sub l)
    let stopped := fun (t : State) (l : Nat) => t.isUp l = false ∧ ((s.sub l).tx ≠ .dark → (t.sub l).tx = .localFault)
    (s.writes who.val a 0x100 → sleep s = false → Completes (.portSleep who p) s fun t =>
        sleep t = true ∧ others t ∧ ∀ l, l / 4 = p.val → stopped t l)
      ∧ (s.writes who.val a 0x100 → sleep s = true → Completes (.portWake who p) s fun t =>
          sleep t = false ∧ others t ∧ ∀ l, l / 4 = p.val → s.linkState l ≠ psFaultTx → started t l)
      ∧ (∀ v : BitVec 4, s.writes who.val a 0x100 → Completes (.subPortEnableWrite who p v) s fun t =>
          en t = v.toNat % 2 ^ subCount (s.portRec p.val).breakout ∧ sleep t = sleep s ∧ others t
            ∧ ∀ k, k < 4 → (bit (en s) k = true → bit (en t) k = false → stopped t (4 * p.val + k))
              ∧ (bit (en s) k = false → bit (en t) k = true → s.linkState (4 * p.val + k) ≠ psFaultTx → started t (4 * p.val + k)))
      ∧ ∀ k : Fin 4, let l : Fin 2048 := ⟨4 * p.val + k.val, by omega⟩
          s.linkState l.val = psFaultTx →
            let rest := fun t : State => (t.sub l.val).tx = .dark ∧ (∀ j, j / 4 ≠ p.val → t.sub j = s.sub j)
              ∧ ∀ j, j ≠ l.val → (s.sub j).after ≠ .rejoin → t.sub j = s.sub j
            let five := fun t : State => s.wanted l.val = true → t.linkState l.val = if s.engineServes p.val then psTxOn else psWaitEngine
            let lastOne := ∀ j, j / 4 = p.val → j ≠ l.val → s.linkState j ≠ psFaultTx
            (lastOne → s.closing p.val = true → s.dieHeld (p.val / 128) = false → Completes (.shutterClose l) s fun t => Sparse.has t.byp.draining p.val = false
                ∧ (∀ j, j / 4 = p.val → (t.sub j).tx = .dark) ∧ ∀ j, j / 4 ≠ p.val → t.sub j = s.sub j)
              ∧ (s.closing p.val = false → (s.sub l.val).after = .stay → Completes (.shutterClose l) s fun t => rest t ∧ t.linkState l.val = s.restState l.val)
              ∧ (s.closing p.val = false → (s.sub l.val).after = .restart → s.flag PG_STATUS.ready a = true → s.dieHeld (p.val / 128) = false →
                  Completes (.shutterClose l) s fun t => rest t ∧ five t)
              ∧ (s.closing p.val = false → (s.sub l.val).after = .restart → s.flag PG_STATUS.ready a = false → Completes (.shutterClose l) s fun t => rest t
                  ∧ t.linkState l.val = psDark)
              ∧ ((s.sub l.val).after = .rejoin → ¬lastOne → Completes (.shutterClose l) s fun t => rest t ∧ t.linkState l.val = s.restState l.val
                  ∧ (t.sub l.val).after = .rejoin)
              ∧ ((s.sub l.val).after = .rejoin → lastOne → s.closing p.val = false → s.dieHeld (p.val / 128) = false →
                  Completes (.shutterClose l) s fun t => rest t ∧ five t)

/-- On a die in service every strap that names an engine of the die associates its module, with lsm_present 1; an engine that was claimed
already raises an engine fault, and a strap that names none raises one on each engine left without a module. A transfer not acknowledged
is sent again; its third failure marks the module absent and raises an engine fault, and a new transfer counts from 1. Rediscovery of an
absent module that answers with a strap associates that engine's module. A changed fault register of an associated module is shown in
lsm_fault, and the lit sub-ports of a newly faulted input's four ports go down with local fault. The fault raised for a strap that names
no engine is the model's choice (log entry 55). (R81, R82, R84) -/
def Obligations.LaserModulesComeAndGo : Prop :=
  ∀ (s : State) (e : Fin 16),
    let a := engPage e.val
    let frame := fun t : State => ∀ p ∈ ([.banks, .mem, .power, .boot, .sec, .time, .byp, .reader, .tables, .coll, .cores] : List Piece), p.same s t
    (∀ (d : Fin 4) (straps : List (BitVec 8)), s.engineAlive (4 * d.val) = true → Completes (.moduleAssociate d straps) s fun t => frame t
        ∧ ∀ k, k < 4 → ((t.module (4 * d.val + k)).associated = true ↔ (s.module (4 * d.val + k)).associated = true ∨ ∃ b ∈ straps, b.toNat = k)
          ∧ ((∃ b ∈ straps, b.toNat = k) → (s.module (4 * d.val + k)).associated = false → t.rd OPT_ENG_STATUS.lsm_present (engPage (4 * d.val + k)) = 1)
          ∧ ((∃ b ∈ straps, b.toNat = k) → (s.module (4 * d.val + k)).associated = true → bit (t.rd PG_IRQ_RAW.block_irq (engPage (4 * d.val + k))) 3 = true)
          ∧ ((∃ b ∈ straps, 4 ≤ b.toNat) → (t.module (4 * d.val + k)).associated = false → bit (t.rd PG_IRQ_RAW.block_irq (engPage (4 * d.val + k))) 3 = true))
      ∧ (∀ (d : Fin 4) (straps : List (BitVec 8)), s.engineAlive (4 * d.val) = false → Completes (.moduleAssociate d straps) s (Unchanged s))
      ∧ (∀ again write : Bool,
          let n := if again then (s.module e.val).failed else 0
          ((s.module e.val).associated = true → n < 2 → Completes (.i3cRetry ⟨e, again, write⟩) s fun t => frame t
              ∧ t.module e.val = { s.module e.val with failed := n + 1 }
              ∧ t.out = if write then [.i3cWrite e.val 0x08 (s.module e.val).outEn] else [])
            ∧ ((s.module e.val).associated = true → 2 ≤ n → Completes (.i3cRetry ⟨e, again, write⟩) s fun t => frame t
              ∧ t.module e.val = { s.module e.val with associated := false, failed := 0 }
              ∧ t.rd OPT_ENG_STATUS.lsm_present a = 0 ∧ t.rd OPT_LSM_CFG.lsm_addr a = 0 ∧ bit (t.rd PG_IRQ_RAW.block_irq a) 3 = true)
            ∧ ((s.module e.val).associated = false → Completes (.i3cRetry ⟨e, again, write⟩) s (Unchanged s)))
      ∧ Completes (.moduleRediscovery e none) s (Unchanged s)
      ∧ (∀ b : BitVec 8, 4 ≤ b.toNat → (s.module e.val).associated = false → s.engineAlive e.val = true →
          Completes (.moduleRediscovery e (some b)) s fun t => t.modules = s.modules ∧ bit (t.rd PG_IRQ_RAW.block_irq a) 3 = true)
      ∧ (∀ b : BitVec 8, b.toNat = e.val % 4 → (s.module e.val).associated = false → s.engineAlive e.val = true →
          Completes (.moduleRediscovery e (some b)) s fun t => frame t ∧ (t.module e.val).associated = true
            ∧ t.rd OPT_ENG_STATUS.lsm_present a = 1 ∧ t.rd OPT_LSM_CFG.lsm_addr a = 0x10 + e.val % 4)
      ∧ ∀ f : BitVec 8, (s.module e.val).associated = true → s.rd OPT_ENG_STATUS.lsm_fault a ≠ f.toNat →
          Completes (.moduleIbi e f) s fun t => frame t ∧ t.modules = s.modules ∧ t.rd OPT_ENG_STATUS.lsm_fault a = f.toNat
            ∧ ∀ l, l / 128 = e.val → bit f.toNat (l / 16 % 8) = true → bit (s.rd OPT_ENG_STATUS.lsm_fault a) (l / 16 % 8) = false →
                t.isUp l = false ∧ ((s.sub l).tx ≠ .dark → (t.sub l).tx = .localFault)

/-- A tap below the threshold is recorded and clears the input's bit of laser_ok; where the bit was set, no sub-port of its four ports is UP
and the lit ones send local fault. A tap at or above the threshold on an input without a module fault sets the bit, and a sub-port of
those ports that waited for its engine is at step 5 where it is wanted and served and its die is not in reset. A tap on the other side of
the threshold, or a restore of a faulted input, changes nothing. (R83, R76) -/
def Obligations.LaserInputsGateTheirPorts : Prop :=
  ∀ (s : State) (e : Fin 16) (k : Fin 8) (tap : BitVec 8),
    let a := engPage e.val
    let ok := fun t : State => bit (t.rd OPT_ENG_STATUS.laser_ok a) k.val
    let mine := fun l : Nat => l / 128 = e.val ∧ l / 16 % 8 = k.val
    let frame := fun t : State => t.modules = s.modules ∧ t.calState e.val = s.calState e.val
      ∧ ∀ p ∈ ([.banks, .mem, .power, .boot, .sec, .time, .byp, .reader, .tables, .coll, .cores] : List Piece), p.same s t
    (tap.toNat < s.rd OPT_LSM_CFG.laser_low_dbm a → Completes (.laserInputLow e k tap) s fun t => frame t
        ∧ t.rd OPT_LASER_PWR.tap_dbm a k.val = tap.toNat ∧ ok t = false ∧ (ok s = true → ∀ l, mine l → t.isUp l = false ∧ ((s.sub l).tx ≠ .dark → (t.sub l).tx = .localFault))
        ∧ ∀ j, j < 8 → j ≠ k.val → bit (t.rd OPT_ENG_STATUS.laser_ok a) j = bit (s.rd OPT_ENG_STATUS.laser_ok a) j)
      ∧ (s.rd OPT_LSM_CFG.laser_low_dbm a ≤ tap.toNat → bit (s.rd OPT_ENG_STATUS.lsm_fault a) k.val = false →
          Completes (.laserInputRestore e k tap) s fun t => frame t ∧ t.rd OPT_LASER_PWR.tap_dbm a k.val = tap.toNat ∧ ok t = true
            ∧ (∀ j, j < 8 → j ≠ k.val → bit (t.rd OPT_ENG_STATUS.laser_ok a) j = bit (s.rd OPT_ENG_STATUS.laser_ok a) j)
            ∧ ∀ l, mine l → s.linkState l = psWaitEngine → t.wanted l = true → t.engineServes (l / 4) = true → t.dieHeld (l / 512) = false → t.linkState l = psTxOn)
      ∧ (s.rd OPT_LSM_CFG.laser_low_dbm a ≤ tap.toNat → Completes (.laserInputLow e k tap) s (Unchanged s))
      ∧ (tap.toNat < s.rd OPT_LSM_CFG.laser_low_dbm a ∨ bit (s.rd OPT_ENG_STATUS.lsm_fault a) k.val = true →
          Completes (.laserInputRestore e k tap) s (Unchanged s))

/-- On a die in service with its SERDES reference, ENGINE_BRINGUP locks the lanes of an idle engine and goes to calibration where its lasers
stayed on and its coefficients are kept, else to the laser wait, writing the module's outputs, where its module is associated.
LASER_INPUTS_READY with every enabled input at its threshold starts calibration; CALIBRATION_DONE makes the engine READY, keeps the
coefficients, counts and times the calibration. A step that exceeds its bound puts the engine in FAULT with its ports dark (under package
standby its lasers go off then and it is idle, R390). OPT_RECAL by a session that may write it starts a full calibration from a calibrated
engine, its lit sub-ports sending local fault. At any other step the five do nothing to the engine. (R85, R93) -/
def Obligations.EnginesComeUp : Prop :=
  ∀ (s : State) (e : Fin 16),
    let a := engPage e.val
    let m := s.module e.val
    let parts := fun t : State => ∀ p ∈ ([.banks, .mem, .power, .boot, .sec, .time, .reader, .tables, .coll, .cores] : List Piece), p.same s t
    let keep := fun t : State => parts t ∧ t.byp = s.byp
    (s.engineAlive e.val = true → s.flag CLK_REF_STATUS.serdes_ref_present (clkPage (e.val / 4)) = true → s.calState e.val = calIdle →
        Completes (.engineBringup e) s fun t => keep t ∧ t.rd CLK_PLL_LOCK.lane_tx_lock (clkPage (e.val / 4)) = 1 ∧ t.subs = s.subs
          ∧ (m.coeffs = true → m.outEn = s.rd OPT_ENG_CTRL.laser_enable a → t.calState e.val = calCalibrating ∧ t.module e.val = { m with calStart := s.now })
          ∧ (m.coeffs = false ∨ m.outEn ≠ s.rd OPT_ENG_CTRL.laser_enable a → m.associated = true → t.calState e.val = calLaserWait
              ∧ t.out = [.i3cWrite e.val 0x08 (s.rd OPT_ENG_CTRL.laser_enable a)] ∧ (t.module e.val).outEn = s.rd OPT_ENG_CTRL.laser_enable a)
          ∧ (m.coeffs = false ∨ m.outEn ≠ s.rd OPT_ENG_CTRL.laser_enable a → m.associated = false → t.calState e.val = calIdle ∧ t.modules = s.modules))
      ∧ (∀ taps : List (BitVec 8), taps.length = 8 →
          (s.calState e.val = calLaserWait → (∀ k, k < 8 → bit (s.rd OPT_ENG_CTRL.laser_enable a) k = true → s.rd OPT_LSM_CFG.laser_low_dbm a ≤ (taps.getD k 0).toNat) →
              Completes (.laserInputsReady e taps) s fun t => keep t ∧ t.subs = s.subs ∧ t.calState e.val = calCalibrating
                ∧ (t.module e.val).calStart = s.now ∧ ∀ k, k < 8 → t.rd OPT_LASER_PWR.tap_dbm a k = (taps.getD k 0).toNat)
            ∧ (s.calState e.val = calCalibrating → Completes (.calibrationDone e taps) s fun t => keep t ∧ t.calState e.val = calReady
                ∧ t.module e.val = { m with coeffs := true } ∧ t.rd OPT_CAL_TIME.cal_count a = (s.rd OPT_CAL_TIME.cal_count a + 1) % 2 ^ 32
                ∧ t.rd OPT_CAL_TIME.last_ms a = (s.now - m.calStart) / 1000000 % 2 ^ 32
                ∧ ∀ l, l / 128 = e.val → s.linkState l = psWaitEngine → t.wanted l = true → t.engineServes (l / 4) = true → t.dieHeld (l / 512) = false → t.linkState l = psTxOn))
      ∧ (s.calState e.val = calLaserWait ∨ s.calState e.val = calCalibrating → Completes (.engineStepTimeout e) s fun t => parts t
          ∧ (s.flag PWR_PKG_CTRL.standby_req pwrPkgPage = false → t.modules = s.modules ∧ t.calState e.val = calFault) ∧ ∀ l, l / 128 = e.val → (t.sub l).tx = .dark ∧ t.isUp l = false)
      ∧ (∀ who : Fin 64, s.writes who.val a 0x108 → calCalibrating ≤ s.calState e.val → Completes (.optRecal who e) s fun t => keep t
          ∧ t.calState e.val = calCalibrating ∧ t.module e.val = { m with coeffs := false, calStart := s.now }
          ∧ t.rd OPT_ENG_CTRL.laser_enable a = s.rd OPT_ENG_CTRL.laser_enable a
          ∧ ∀ l, l / 128 = e.val → (s.sub l).tx ≠ .dark → (t.sub l).tx = .localFault ∧ t.linkState l = psFaultTx)
      ∧ (s.engineAlive e.val = false ∨ s.flag CLK_REF_STATUS.serdes_ref_present (clkPage (e.val / 4)) = false ∨ s.calState e.val ≠ calIdle →
          Completes (.engineBringup e) s (Unchanged s))
      ∧ (∀ taps : List (BitVec 8), taps.length = 8 → (s.calState e.val ≠ calLaserWait → Completes (.laserInputsReady e taps) s (Unchanged s))
          ∧ (s.calState e.val ≠ calCalibrating → Completes (.calibrationDone e taps) s (Unchanged s)))
      ∧ (s.calState e.val ≠ calLaserWait → s.calState e.val ≠ calCalibrating → Completes (.engineStepTimeout e) s (Unchanged s))
      ∧ ∀ who : Fin 64, s.writes who.val a 0x108 → s.calState e.val < calCalibrating → Completes (.optRecal who e) s fun t => keep t
          ∧ t.modules = s.modules ∧ t.subs = s.subs ∧ t.calState e.val = s.calState e.val

/-- SYSCLK_LOSS clears sysclk_present on every die, sets sysclk_loss with FAULT_N low, and stops forwarding; its return sets sysclk_present
and sysclk_lost and leaves forwarding stopped. SERDES_REF_LOSS of a die clears its reference and lane lock, sets serdes_ref_lost, and no
sub-port of the die transmits; its return, with PWR_OK high, sets the reference again, and the lane lock where the die is neither in reset
nor in standby. TIME_REF_LOSS sets time_ref_lost and time_ref_fallback and applies the measured difference; its return takes it away
without a step of either counter. A loss or return of what is lost or present already changes nothing. That a returned engine starts its
ports without a new calibration and that a return during a reset or standby is present at once is the model's choice (log entry 56), and
so is that a lost SYSCLK stops no more than R40 names (log entry 42). (R40, R45, R377, R393) -/
def Obligations.ReferenceClocksComeAndGo : Prop :=
  ∀ (s : State) (d : Fin 4) (diff : Int),
    let ref := fun (f : Fld) (t : State) (k : Nat) => t.rd f (clkPage k)
    (s.flag CLK_REF_STATUS.sysclk_present (clkPage 0) = true → Completes .sysclkLoss s fun t =>
        (∀ k, k < 4 → ref CLK_REF_STATUS.sysclk_present t k = 0) ∧ t.rd PWR_FAULT.sysclk_loss pwrPkgPage = 1 ∧ t.power.faultN = false
          ∧ t.power.stopped = true ∧ ChangesOnly [.power, .mgmt] (onPages (pwrPkgPage :: diePagesOf clkPage)) s t)
      ∧ (s.flag CLK_REF_STATUS.sysclk_present (clkPage 0) = false → Completes .sysclkReturn s fun t =>
          (∀ k, k < 4 → ref CLK_REF_STATUS.sysclk_present t k = 1 ∧ ref CLK_REF_STATUS.sysclk_lost t k = 1) ∧ t.power.stopped = s.power.stopped
            ∧ ChangesOnly [.power] (onPages (diePagesOf clkPage)) s t)
      ∧ (s.flag CLK_REF_STATUS.serdes_ref_present (clkPage d.val) = true → Completes (.serdesRefLoss d) s fun t =>
          ref CLK_REF_STATUS.serdes_ref_present t d.val = 0 ∧ ref CLK_REF_STATUS.serdes_ref_lost t d.val = 1
            ∧ ref CLK_PLL_LOCK.lane_tx_lock t d.val = 0 ∧ (∀ l, l / 512 = d.val → (t.sub l).tx = .dark ∧ t.isUp l = false)
            ∧ (∀ l, l / 512 ≠ d.val → t.sub l = s.sub l) ∧ t.mem = s.mem ∧ t.tables = s.tables ∧ t.time = s.time ∧ t.boot = s.boot)
      ∧ (s.flag CLK_REF_STATUS.serdes_ref_present (clkPage d.val) = false → s.power.pwrOk = true → Completes (.serdesRefReturn d) s fun t =>
          ref CLK_REF_STATUS.serdes_ref_present t d.val = 1 ∧ t.mem = s.mem ∧ t.tables = s.tables ∧ t.time = s.time ∧ t.boot = s.boot
            ∧ (s.dieHeld d.val = false → s.rd PWR_DIE_STATUS.state (pwrDiePage d.val) ≠ 2 → ref CLK_PLL_LOCK.lane_tx_lock t d.val = 1)
            ∧ (s.dieHeld d.val = true ∨ s.rd PWR_DIE_STATUS.state (pwrDiePage d.val) = 2 →
                ChangesOnly [] (fun k => k = CLK_REF_STATUS.serdes_ref_present.key (clkPage d.val) 0) s t))
      ∧ (s.flag CLK_REF_STATUS.sysclk_present (clkPage 0) = false → Completes .sysclkLoss s (Unchanged s))
      ∧ (s.flag CLK_REF_STATUS.sysclk_present (clkPage 0) = true → Completes .sysclkReturn s (Unchanged s))
      ∧ (s.flag CLK_REF_STATUS.serdes_ref_present (clkPage d.val) = false → Completes (.serdesRefLoss d) s (Unchanged s))
      ∧ (s.flag CLK_REF_STATUS.serdes_ref_present (clkPage d.val) = true ∨ s.power.pwrOk = false → Completes (.serdesRefReturn d) s (Unchanged s))
      ∧ (s.time.refApplied = true → Completes (.timeRefLoss diff) s (Unchanged s))
      ∧ (s.time.refApplied = false → Completes (.timeRefLoss diff) s fun t => t.time = { s.time with refDiff := diff, refApplied := true }
          ∧ (∀ k, k < 4 → ref CLK_REF_STATUS.time_ref_present t k = 0 ∧ ref CLK_REF_STATUS.time_ref_lost t k = 1
            ∧ ref CLK_REF_STATUS.time_ref_fallback t k = 1) ∧ ChangesOnly [.time] (onPages (diePagesOf clkPage)) s t)
      ∧ Completes .timeRefReturn s (fun t => t.time = { s.time with refApplied := false }
          ∧ (∀ k, k < 4 → ref CLK_REF_STATUS.time_ref_present t k = 1 ∧ ref CLK_REF_STATUS.time_ref_fallback t k = 0)
          ∧ ChangesOnly [.time] (onPages (diePagesOf clkPage)) s t)

/-- A session that may write TIM_SET_CTRL: SET leaves the counter at TIM_SET_SEC seconds and TIM_SET_NS nanoseconds with its fraction, ADD
adds or subtracts TIM_SET_NS, both modulo the counter's wrap. The other counter keeps its value. A step of T0 ends a PPS_OUT pulse, and a
second on whose edge it lands has had its edge (R379; log entry 74). Domains, memory, tables and configuration stay. (R367, R369, R214) -/
def Obligations.CountersAreSetAndAdded : Prop :=
  ∀ (s : State) (who : Fin 64) (n : Fin 2), s.writes who.val (timPage 0) TIM_SET_CTRL.op.off →
    let ns := s.rd TIM_SET_NS.nanoseconds (timPage 0) * 2 ^ 32 + s.rd TIM_SET_NS.fraction (timPage 0) * 2 ^ 16
    let neg := s.flag TIM_SET_NS.negative (timPage 0)
    let frame := fun t : State => t.counter (1 - n.val) = s.counter (1 - n.val) ∧ t.time.dom0 = s.time.dom0 ∧ t.time.dom1 = s.time.dom1
      ∧ (n = 0 → t.time.ppsOut = false ∧ ∀ k, t.ppsSecond = some k → k * 1000000000 ≤ t.ppsTime → t.time.ppsLast = some k) ∧ (n = 1 → t.time.ppsOut = s.time.ppsOut)
      ∧ ∀ p ∈ ([.banks, .mem, .power, .boot, .sec, .subs, .modules, .byp, .rel, .reader, .tables, .coll, .cores] : List Piece), p.same s t
    Completes (.timSet who n) s (fun t => frame t
        ∧ t.counter n.val = (s.rd TIM_SET_SEC.seconds (timPage 0) * 1000000000 * 2 ^ 32 + ns) % timeWrap)
      ∧ Completes (.timAdd who n) s (fun t => frame t
        ∧ (t.counter n.val : Int) = ((s.counter n.val : Int) + (if neg then -(ns : Int) else ns)) % (timeWrap : Int))

/-- A session that may write the register: an offset for a domain in GPTP mode is noted with its time; in ACQUIRE an offset of step_ns or more
steps the counter (T0 only while domain 0 drives it) by minus the offset and clears the count towards lock, and any other (or one in
LOCKED) leaves the counter, gives frequency and integral by the servo equations and counts towards lock, reached at the eighth below
lock_ns in a row. Where domain 0 does not drive T0, or the domain is LOST, it is monitored only. In FREE mode it is refused with its
error, and in PPS mode it changes nothing. Where the other domain's mode is no reserved one, a mode write keeps the mode, the reserved one
as FREE (the model's choice, log entry 52), and puts the domain in ACQUIRE, or FREE in mode FREE. That a write which keeps the mode is no
mode write is the model's choice (log entry 42). (R374, R375, R376, R380) -/
def Obligations.OffsetsFeedTheServo : Prop :=
  ∀ (s : State) (who : Fin 64) (n : Fin 2) (o : BitVec 64),
    let a := timPage 0
    let z := sgn 64 o.toNat
    let d := s.dom n.val
    let monitored := s.domState n.val = 2 ∨ n = 0 ∧ (s.t0Source = 1 ∨ s.t0Source = 2)
    let stepNs := s.rd TIM_SERVO_CFG.step_ns a n.val * 65536
    let slew := s.rd TIM_SWITCH_CFG.max_slew_ppb a * 4294967296 / 1000000000
    let terms := servoTerms d.integ z (s.rd TIM_SERVO_CFG.ki_shift a n.val % 64) (s.rd TIM_SERVO_CFG.kp_shift a n.val % 64) slew
    let run := min (if z.natAbs < s.rd TIM_SERVO_CFG.lock_ns a n.val * 65536 then d.lockRun + 1 else 0) 8
    let others := fun t : State => t.counter (1 - n.val) = s.counter (1 - n.val) ∧ t.dom (1 - n.val) = s.dom (1 - n.val)
      ∧ t.domState (1 - n.val) = s.domState (1 - n.val) ∧ t.mem = s.mem ∧ t.tables = s.tables ∧ t.boot = s.boot ∧ t.subs = s.subs
    let gptp := fun P : State → Prop => s.writes who.val a (TIM_OFFSET.offset.off + 8 * n.val) → s.domMode n.val = 1 →
      Completes (.timOffsetWrite who n o) s fun t => others t ∧ (t.dom n.val).lastAt = some s.now ∧ P t
    (monitored → gptp fun t => t.counter n.val = s.counter n.val ∧ t.domState n.val = s.domState n.val ∧ (t.dom n.val).freq = d.freq
        ∧ (t.dom n.val).integ = d.integ)
      ∧ (¬monitored → s.domState n.val = 0 → (n = 1 ∨ s.t0Source = 0) → stepNs ≤ z.natAbs → gptp fun t =>
          (t.counter n.val : Int) = ((s.counter n.val : Int) - z * 65536) % (timeWrap : Int) ∧ (t.dom n.val).lockRun = 0 ∧ t.domState n.val = 0)
      ∧ (¬monitored → (s.domState n.val ≠ 0 ∨ n = 0 ∧ s.t0Source ≠ 0 ∨ z.natAbs < stepNs) → gptp fun t => t.counter n.val = s.counter n.val
          ∧ (t.dom n.val).integ = terms.1 ∧ (t.dom n.val).freq = terms.2 ∧ (t.dom n.val).lockRun = run
          ∧ t.domState n.val = if s.domState n.val = 0 ∧ run = 8 then 1 else s.domState n.val)
      ∧ (s.writes who.val a (TIM_OFFSET.offset.off + 8 * n.val) → s.domMode n.val = 0 → Completes (.timOffsetWrite who n o) s fun t =>
          t.time = s.time ∧ t.rd PG_ERR_COUNT.count a = min (s.rd PG_ERR_COUNT.count a + 1) (2 ^ 48 - 1)
            ∧ (s.flag PG_ERR_FIRST.valid a = false → t.rd PG_ERR_FIRST.code a = 0x0007))
      ∧ (s.writes who.val a (TIM_OFFSET.offset.off + 8 * n.val) → s.domMode n.val = 2 → Completes (.timOffsetWrite who n o) s (Unchanged s))
      ∧ ∀ mode : BitVec 2, let m := if mode.toNat = 3 then 0 else mode.toNat
          s.writes who.val a TIM_CFG.gptp_enable.off → s.domMode (1 - n.val) < 3 →
            (s.domMode n.val ≠ m → Completes (.domainModeWrite who n mode) s fun t => others t ∧ t.domMode n.val = m
              ∧ t.domMode (1 - n.val) = s.domMode (1 - n.val) ∧ t.domState n.val = (if m = 0 then 3 else 0) ∧ (t.dom n.val).lockRun = 0
              ∧ (t.dom n.val).lastAt = none ∧ t.counter n.val = s.counter n.val)
            ∧ (s.domMode n.val = m → Completes (.domainModeWrite who n mode) s fun t => t.time = s.time ∧ t.domMode n.val = m
              ∧ t.domState n.val = s.domState n.val)

/-- After the check a LOCKED domain, or a LOST one with eight offsets in succession, is LOCKED where it is live and LOST where it is not; any
other keeps its state. T0 driven by domain 0, or returning to it, falls to FOLLOW_T1 when domain 0 is LOST, domain 1 is live and
auto_switch is set, and to HOLDOVER otherwise. FOLLOW_T1 returns when domain 0 has been live for hold_ms, else goes to HOLDOVER when
domain 1 is LOST; HOLDOVER returns as soon as domain 0 is live, else follows T1 where domain 1 is live and auto_switch is set; RETURNING
ends with domain 0 driving T0 when its offsets have been below lock_ns eight times. A change counts a switch. In FOLLOW_T1 the feed gives
domain 0 the integral and the frequency of the servo equations for T0 - T1, and neither counter steps; in any other source it changes
nothing. Nothing but the time base, its pages, interrupts and events changes. (R375, R376) -/
def Obligations.LivenessMovesTheSourceOfT0 : Prop :=
  ∀ s : State,
    let a := timPage 0
    let fresh := fun n : Nat => (s.setDomState n 1).live n = true
    let after := fun n : Nat => if s.domState n = 1 ∨ s.domState n = 2 ∧ (s.dom n).succRun = 8 then (if fresh n then 1 else 2) else s.domState n
    let fall := if after 1 = 1 ∧ s.flag TIM_SWITCH_CFG.auto_switch a = true then 1 else 2
    let held := (s.dom 0).liveSince.getD s.now + s.rd TIM_SWITCH_CFG.hold_ms a * 1000000 ≤ s.now
    let source := match s.t0Source with
      | 0 => if after 0 = 2 then fall else 0
      | 1 => if after 0 = 1 ∧ held then 3 else if after 1 = 2 then 2 else 1
      | 2 => if after 0 = 1 then 3 else if after 1 = 1 ∧ s.flag TIM_SWITCH_CFG.auto_switch a = true then 1 else 2
      | _ => if after 0 = 2 then fall else if (s.dom 0).lockRun = 8 then 0 else 3
    Completes .livenessCheck s (fun t => ChangesOnly [.time, .mgmt] (onPages [a]) s t ∧ t.time.t0 = s.time.t0 ∧ t.time.t1 = s.time.t1
        ∧ (∀ n, n < 2 → t.domState n = after n) ∧ t.t0Source = source
        ∧ (source = s.t0Source → t.rd TIM_STATUS.switches a = s.rd TIM_STATUS.switches a)
        ∧ (source ≠ s.t0Source → t.rd TIM_STATUS.switches a = (s.rd TIM_STATUS.switches a + 1) % 2 ^ TIM_STATUS.switches.w
            ∧ (source = 3 → (t.dom 0).lockRun = 0)))
      ∧ (s.t0Source = 1 → Completes .t1FollowFeed s fun t =>
          let z := ((s.time.t0 : Int) - s.time.t1) / 65536
          let f := servoTerms s.time.dom0.integ z (s.rd TIM_SERVO_CFG.ki_shift a % 64) (s.rd TIM_SERVO_CFG.kp_shift a % 64)
            (s.rd TIM_SWITCH_CFG.max_slew_ppb a * 4294967296 / 1000000000)
          let run := if z.natAbs < s.rd TIM_SERVO_CFG.lock_ns a * 65536 then s.time.dom0.lockRun + 1 else 0
          t.time = { s.time with dom0 := { s.time.dom0 with integ := f.1, freq := f.2, lockRun := min run 8 } }
            ∧ ChangesOnly [.time] (fun _ => False) s t)
      ∧ (s.t0Source ≠ 1 → Completes .t1FollowFeed s (Unchanged s))

/-- A PPS_IN edge stamps whole seconds and nanoseconds of both counters and shows PPS_IN present on every die; a miss shows it absent and
raises the interrupt. PPS_OUT rises where out_enable is set and T0 crosses, within 5 ns, a whole second plus offset_ns that has had no
edge, and falls once width_ns have passed (log entry 74). A pop by a session that may write TIM_TXQ_SEL removes the head entry of the
selected port's stamp queue and nothing else. A supported 802.1AS message on an UP, two-way port with gPTP enabled joins the queue of
class 6 of that port, where the forward pool has room for it and, on a banister port, its ring queue has, for which it waits else; without
room in the pool it is discarded. Else none of them changes anything. (R378, R379, R373, R372) -/
def Obligations.PpsEdgesAndStampQueues : Prop :=
  ∀ (s : State),
    let a := timPage 0
    let present := fun (t : State) => ∀ k, k < 4 → t.flag CLK_REF_STATUS.pps_in_present (clkPage k) = true
    Completes .ppsInEdge s (fun t => present t ∧ (∀ n, n < 2 → t.rd TIM_PPS_IN.seconds a n = secOf (s.counter n) % 2 ^ TIM_PPS_IN.seconds.w
          ∧ t.rd TIM_PPS_IN.nanoseconds a n = nsOf (s.counter n) % 2 ^ TIM_PPS_IN.nanoseconds.w)
        ∧ (∀ n, n < 2 → s.domMode n ≠ 2 → t.dom n = s.dom n ∧ t.counter n = s.counter n)
        ∧ (∀ n, n < 2 → s.domMode n = 2 → (t.dom n).lastAt = some s.now) ∧ t.mem = s.mem ∧ t.tables = s.tables ∧ t.boot = s.boot)
      ∧ (s.flag CLK_REF_STATUS.pps_in_present (clkPage 0) = true → Completes .ppsMiss s fun t =>
          (∀ k, k < 4 → t.flag CLK_REF_STATUS.pps_in_present (clkPage k) = false) ∧ bit (t.rd PG_IRQ_RAW.block_irq a) 4 = true
            ∧ ChangesOnly [.mgmt] (onPages (a :: diePagesOf clkPage)) s t)
      ∧ (∀ k, s.flag TIM_PPS_CFG.out_enable a = true → s.ppsSecond = some k → s.time.ppsLast ≠ some k → Completes .ppsOutRise s fun t =>
          t.time = { s.time with ppsOut := true, ppsRise := s.now, ppsLast := some k } ∧ ChangesOnly [.time] (fun _ => False) s t)
      ∧ (s.time.ppsRise + s.rd TIM_PPS_CFG.width_ns a ≤ s.now → Completes .ppsOutFall s fun t => t.time = { s.time with ppsOut := false }
          ∧ ChangesOnly [.time] (fun _ => False) s t)
      ∧ (s.now < s.time.ppsRise + s.rd TIM_PPS_CFG.width_ns a → Completes .ppsOutFall s (Unchanged s))
      ∧ (∀ (who : Fin 64) (d : Fin 4), s.writes who.val (timPage d.val) TIM_TXQ_SEL.pop.off → Completes (.txqPop who d) s fun t =>
          let p := 128 * d.val + s.rd TIM_TXQ_SEL.port (timPage d.val)
          Sparse.get [] t.time.txq p = (Sparse.get [] s.time.txq p).tail ∧ (∀ k, k ≠ p → Sparse.get [] t.time.txq k = Sparse.get [] s.time.txq k)
            ∧ t.time.t0 = s.time.t0 ∧ t.time.t1 = s.time.t1 ∧ t.mem = s.mem)
      ∧ (s.flag CLK_REF_STATUS.pps_in_present (clkPage 0) = false → Completes .ppsMiss s (Unchanged s))
      ∧ (s.flag TIM_PPS_CFG.out_enable a = false ∨ s.ppsSecond = none ∨ s.time.ppsLast = s.ppsSecond → Completes .ppsOutRise s (Unchanged s))
      ∧ ∀ (l : Fin 2048) (m : List Byte),
          let may := s.flag TIM_CFG.gptp_enable a = true ∧ s.isUp l.val = true ∧ (s.sub l.val).twoWay = true ∧ s.boot.cores ≠ 0 ∧ s.ptpOk m = true
          let u := ipFrame ptpGroup (s.fabricAddr (s.ownFea 0)) 6 255 17 (udpHdr (if beAt m 0 1 % 16 < 8 then 319 else 320) m.length ++ m)
          let fits := treadsOf (wireLen u) ≤ s.poolFree (l.val / 512) .forward
          let keep := fun t : State => t.time = s.time ∧ t.mem = s.mem ∧ t.tables = s.tables
          (may → fits → s.ringOut l.val = false → Completes (.gptpSyncSend l m) s fun t => Queued s t (s.ownQueue l.val) u ∧ keep t)
            ∧ (may → fits → s.ringOut l.val = true → s.ringRoom l.val u false → Completes (.gptpSyncSend l m) s fun t => RingQueued s t l.val u false ∧ keep t)
            ∧ (may → fits → s.ringOut l.val = true → ¬s.ringRoom l.val u false → Completes (.gptpSyncSend l m) s fun t => RingWaits s t l.val u false ∧ keep t)
            ∧ (may → ¬fits → Completes (.gptpSyncSend l m) s fun t => t.sw = s.sw ∧ keep t)
            ∧ (¬may → Completes (.gptpSyncSend l m) s (Unchanged s))

/-- With PWR_OK high, boot not begun and no warm reset in progress: where a channel of die 0 fails to train the stage is 0xF1, boot_mem is set
and FAULT_N low; else where neither firmware image is accepted against the floor of the region in use the stage is 0xF0; in both cases no
control core runs. Else the stage is 5, all four cores run and fw_image names the accepted image of the higher sequence, A when equal.
Memory is cleared and the images in flash stay. That one command runs the sequence up to stage 5 is the model's choice (log entry 27). At
any other time it changes nothing. That device memory reads as zero after it is the model's choice (log entry 2). (R404, R405, R396, R419,
R421) -/
def Obligations.ColdBootReachesItsStage : Prop :=
  ∀ (s : State) (puf : Bool) (trained : List Bool), trained.length = 24 →
    let due := s.power.pwrOk = true ∧ s.rd BOOT_STATUS.stage bootPage = 0 ∧ s.boot.warm = false
    let floor := (if puf then (s.sec.copy?.map fun c => c.floor).getD 0 else 0) % 256
    let memOk := ∀ i, i < 6 → trained.getD i true = true
    let ok := fun f : FwImage => f.accepted floor = true
    (¬due → Completes (.coldBoot puf trained) s (Unchanged s)) ∧ (due → Completes (.coldBoot puf trained) s fun t =>
      let stage := t.rd BOOT_STATUS.stage bootPage
      (¬memOk → stage = 0xF1 ∧ t.boot.cores = 0 ∧ t.rd PWR_FAULT.boot_mem pwrPkgPage = 1 ∧ t.power.faultN = false)
        ∧ (memOk → ¬ok s.boot.fwA → ¬ok s.boot.fwB → stage = 0xF0 ∧ t.boot.cores = 0)
        ∧ (memOk → (ok s.boot.fwA ∨ ok s.boot.fwB) → stage = 5 ∧ t.boot.cores = 15 ∧ (t.rd BOOT_STATUS.fw_image bootPage = 1 ↔
            ok s.boot.fwB ∧ (¬ok s.boot.fwA ∨ s.boot.fwA.seq < s.boot.fwB.seq)))
        ∧ t.mem = [] ∧ t.boot.fwA = s.boot.fwA ∧ t.boot.fwB = s.boot.fwB ∧ t.boot.cfgA = s.boot.cfgA ∧ t.boot.cfgB = s.boot.cfgB)

/-- With PWR_OK high, boot begun and no warm reset in progress, either command begins one, with cause 1 or 2: no core runs, every die is in
reset with last_reset 1 and its LPDDR6 in self-refresh; tables, switch, collectives and sub-ports are as at reset; device memory, owner
keys, active protected tables, M0 and M1, flight slots and the images in flash stay. The release ends the reset on every die and goes to
stage 0xF1, 0xF0 or 5 as a cold boot does, the floor being the one in force. A fall of the pin before step 9 of the sequence after a warm
reset, and a release without one, change nothing. That one command runs the release up to stage 5, and where a pin's fall starts no second
reset, is the model's choice (log entry 27). (R397, R406, R414, R423) -/
def Obligations.WarmResetsBeginAndEnd : Prop :=
  ∀ (s : State) (who : Fin 64) (trained : List Bool) (copyOk : Bool),
    let begun := s.power.pwrOk = true ∧ s.boot.warm = false ∧ s.rd BOOT_STATUS.stage bootPage ≠ 0
    let entered := fun (cause : Nat) (t : State) => t.boot.warm = true ∧ t.boot.warmHeld = true ∧ t.boot.cores = 0
      ∧ t.rd BOOT_STATUS.reset_cause bootPage = cause
      ∧ (∀ d, d < 4 → t.rd CTL_DIE_STATE.state (ctlDiePage d) = 2 ∧ t.rd CTL_DIE_STATE.last_reset (ctlDiePage d) = 1)
      ∧ (∀ n, n < 12 → t.rd MEM_STATUS.self_refresh (memPage n) = 1)
      ∧ t.tables = Tables.fresh ∧ t.sw = Switch.fresh ∧ t.coll = Coll.fresh ∧ t.subs = []
      ∧ t.mem = s.mem ∧ t.sec.keys = s.sec.keys ∧ t.sec.active0 = s.sec.active0 ∧ t.sec.active1 = s.sec.active1
      ∧ (∀ i, Sparse.get 0 t.sec.meas i = if i < 2 then Sparse.get 0 s.sec.meas i else 0)
      ∧ (∀ c, (t.core c).slots = (s.core c).slots)
      ∧ t.boot.fwA = s.boot.fwA ∧ t.boot.fwB = s.boot.fwB ∧ t.boot.cfgA = s.boot.cfgA ∧ t.boot.cfgB = s.boot.cfgB
    (begun → s.warmRunning = false → Completes .warmRstPin s (entered 1))
      ∧ (¬begun ∨ s.warmRunning = true → Completes .warmRstPin s (Unchanged s))
      ∧ (s.boot.warm = false → trained.length = 24 → Completes (.warmResetRelease trained copyOk) s (Unchanged s))
      ∧ (begun → s.writes who.val (ctlDiePage 0) 0x100 → Completes (.warmResetRegister who) s (entered 2))
      ∧ (s.boot.warm = true → trained.length = 24 → Completes (.warmResetRelease trained copyOk) s fun t =>
          let memOk := ∀ i, i < 6 → trained.getD i true = true
          let found := s.boot.fwA.accepted (s.rd SEC_STATE.sec_floor secPage) = true ∨ s.boot.fwB.accepted (s.rd SEC_STATE.sec_floor secPage) = true
          let stage := t.rd BOOT_STATUS.stage bootPage
          t.boot.warm = false ∧ (∀ d, d < 4 → t.rd CTL_DIE_STATE.state (ctlDiePage d) = 0) ∧ t.mem = s.mem
            ∧ (¬memOk → stage = 0xF1 ∧ t.rd PWR_FAULT.boot_mem pwrPkgPage = 1 ∧ t.power.faultN = false)
            ∧ (memOk → ¬found → stage = 0xF0) ∧ (memOk → found → stage = 5 ∧ t.boot.cores = 15))

/-- By a session that may write CTL_DIE_RESET: on die 0 the write is refused with 0x000B and on a die away from service with 0x000C (counted,
latched where the latch is free) and nothing else happens. Else the die is in reset, last_reset 2, die_resets one higher, its LPDDR6 in
self-refresh, none of its sub-ports UP, its endpoint copy empty, its cores as at reset but for their flight slots; other dies' reset
states, LPM and route banks and device memory stay. The release ends the reset, makes every page of the die ready and copies the endpoint
table from die 0. A reset of a die in reset, and a release of one that is not, change nothing. (R398, R407, R46, R414, R440) -/
def Obligations.DieResetsBeginAndEnd : Prop :=
  ∀ (s : State) (who : Fin 64) (d : Fin 4) (trained : List Bool),
    let a := ctlDiePage d.val
    let may := s.writes who.val a 0x100
    let refused := fun (code : Nat) (t : State) => ChangesOnly [.mgmt] (onPages [a]) s t
      ∧ t.rd PG_ERR_COUNT.count a = min (s.rd PG_ERR_COUNT.count a + 1) (2 ^ 48 - 1)
      ∧ (s.flag PG_ERR_FIRST.valid a = false → t.rd PG_ERR_FIRST.code a = code ∧ t.rd PG_ERR_FIRST.session a = who.val)
    (may → d = 0 → Completes (.dieReset who d) s (refused 0x000B))
      ∧ (may → d ≠ 0 → s.rd PWR_DIE_STATUS.state (pwrDiePage d.val) ≠ 0 → Completes (.dieReset who d) s (refused 0x000C))
      ∧ (may → d ≠ 0 → s.rd PWR_DIE_STATUS.state (pwrDiePage d.val) = 0 → s.rd CTL_DIE_STATE.state a = 0 →
          Completes (.dieReset who d) s fun t => t.rd CTL_DIE_STATE.state a = 2 ∧ t.rd CTL_DIE_STATE.last_reset a = 2
            ∧ t.rd CTL_DIE_STATE.die_resets a = (s.rd CTL_DIE_STATE.die_resets a + 1) % 2 ^ 32
            ∧ (∀ i, i < 3 → t.rd MEM_STATUS.self_refresh (memPage (3 * d.val + i)) = 1)
            ∧ (∀ l, l / 512 = d.val → t.isUp l = false) ∧ (∀ k, k < 2 ^ 19 → t.ep? d.val k = none)
            ∧ (∀ c, c / 8 = d.val → t.core c = { Core.fresh with slots := (s.core c).slots, uses := (s.core c).uses })
            ∧ (∀ e, e < 4 → e ≠ d.val → t.rd CTL_DIE_STATE.state (ctlDiePage e) = s.rd CTL_DIE_STATE.state (ctlDiePage e))
            ∧ t.tables.lpm = s.tables.lpm ∧ t.tables.up = s.tables.up ∧ t.tables.gr = s.tables.gr ∧ t.mem = s.mem)
      ∧ (may → d ≠ 0 → s.rd PWR_DIE_STATUS.state (pwrDiePage d.val) = 0 → s.rd CTL_DIE_STATE.state a ≠ 0 →
          Completes (.dieReset who d) s (Unchanged s))
      ∧ (s.rd CTL_DIE_STATE.state a ≠ 2 ∨ s.boot.warm = true → trained.length = 6 → Completes (.dieResetRelease d trained) s (Unchanged s))
      ∧ (d ≠ 0 → s.rd CTL_DIE_STATE.state a = 2 → s.boot.warm = false → trained.length = 6 → Completes (.dieResetRelease d trained) s fun t =>
          t.rd CTL_DIE_STATE.state a = 0 ∧ (∀ p ∈ diePages d.val, t.rd PG_STATUS.ready p = 1)
            ∧ (∀ k, k < 2 ^ 19 → t.ep? d.val k = s.ep? 0 k) ∧ t.tables.lpm = s.tables.lpm ∧ t.mem = s.mem)

/-- A session that may write PG_CTRL of a mapped page resets it: ready is 0, the guard is released, every RW and W1C field, latch and counter
of the page reads its reset value, and no byte of device memory changes. PORT_RESET does so to the port's page, and none of its sub-ports
stays UP. The restore of a page that is not ready, with a control core running, sets ready and gives every configured field below the
counters its value of the configuration copy, or its reset value where the copy lists none; of a ready page, or without a core, it changes
nothing. (R399, R59, R397, R402, R403) -/
def Obligations.PageResetsAndTheirRestore : Prop :=
  ∀ (s : State) (who : Fin 64) (page : Nat) (p : Fin 512),
    let reset := fun (a : Nat) (t : State) => t.rd PG_STATUS.ready a = 0 ∧ t.rd PG_GUARD.owner a = 0xFF
      ∧ (∀ v k : Nat, keyIn a (a + 0x1000) k = true → softKey k = true → Sparse.get v t.regs k = v) ∧ t.mem = s.mem
    (isPage page = true → s.writes who.val page PG_CTRL.soft_reset.off → Completes (.pageSoftReset who page) s fun t => reset page t
        ∧ (page = pwrPkgPage → t.shadow = [] ∧ t.heldWrites = []))
      ∧ (s.writes who.val (portPage p.val) PG_CTRL.soft_reset.off → Completes (.portReset who p) s fun t => reset (portPage p.val) t
        ∧ ∀ l, l / 4 = p.val → t.isUp l = false)
      ∧ (isPage page = true → s.flag PG_STATUS.ready page = false → s.boot.cores ≠ 0 → Sparse.sorted s.boot.copy.fields = true →
          Completes (.pageConfigRestore page) s fun t => t.rd PG_STATUS.ready page = 1 ∧ t.mem = s.mem
            ∧ ∀ v k : Nat, keyIn page (page + 0x1000) k = true → configuredKey k = true → offOf k < 0xF00 →
                Sparse.get v t.regs k = Sparse.get v s.boot.copy.fields k)
      ∧ (isPage page = true → s.flag PG_STATUS.ready page = true ∨ s.boot.cores = 0 → Completes (.pageConfigRestore page) s (Unchanged s))

/-- A lane group that has not failed before is marked failed in rx_failed of its die and tx_failed of the peer; the rate at both ends is 112
Tb/s less 16 for each failure after the first. The page counts the error and raises its correctable or uncorrectable interrupt, and a
record is written unless the die's LPDDR6 is out of use. A group that has failed already changes nothing. Nothing changes but the mesh
pages of the two dies, the package CTL page, records and event rings. (R37, R436, R439, R440) -/
def Obligations.MeshLaneGroupsFail : Prop :=
  ∀ (s : State) (d : Fin 4) (i : Fin 3) (g : Fin 8) (flits : List Nat), flits.length = 4 →
    let a := mshPage d.val
    let e := meshPeer d.val i.val
    let b := mshPage e
    let j := meshLink e d.val
    let old := s.rd MSH_LINK.rx_failed a i.val
    let m := Nat.lor old (2 ^ g.val)
    let rate := 112 - 16 * (popCount 8 m - 1)
    (bit old g.val = true → Completes (.meshLaneGroupFail d i g flits) s (Unchanged s)) ∧ (bit old g.val = false → Completes (.meshLaneGroupFail d i g flits) s fun t =>
      t.rd MSH_LINK.rx_failed a i.val = m ∧ t.rd MSH_LINK.tx_failed b j = m ∧ t.rd MSH_LINK.rx_tbps a i.val = rate ∧ t.rd MSH_LINK.tx_tbps b j = rate
        ∧ t.rd PG_ERR_COUNT.count a = min (s.rd PG_ERR_COUNT.count a + 1) (2 ^ 48 - 1)
        ∧ bit (t.rd PG_IRQ_RAW.block_irq a) (if old = 0 then 0 else 1) = true
        ∧ t.errIndex d.val = (if bit s.boot.lpUnused d.val then s.errIndex d.val else (s.errIndex d.val + 1) % 2 ^ 62)
        ∧ ChangesOnly [.mgmt, .rel] (onPages [a, b, ctlPkgPage]) s t)

/-- A die reset that a session with the right asks of die 0 records DIE0_RESET (0x000B) in PG_ERR_FIRST of die 0's CTL page, and one asked of
a die whose standby state is not 0 records DIE_STANDBY (0x000C) in that die's page, the latch being free; the page's error count rises.
Nothing else changes: no reset state, no other register but the page's interrupt bits and what reports them, no memory and no table. It is
refused at every state of the latch. (R398) -/
def Obligations.DieResetRefusalsRecordTheirCause : Prop :=
  ∀ (s : State) (who : Fin 64) (d : Fin 4), s.writes who.val (ctlDiePage d.val) 0x100 →
    (d = 0 ∨ s.rd PWR_DIE_STATUS.state (pwrDiePage d.val) ≠ 0) → Completes (.dieReset who d) s fun t =>
      ChangesOnly [.mgmt] (fun k => shared k ∨ isIrq (ctlDiePage d.val) k ∨ isErr (ctlDiePage d.val) k) s t
        ∧ t.rd CTL_DIE_STATE.state (ctlDiePage d.val) = s.rd CTL_DIE_STATE.state (ctlDiePage d.val)
        ∧ t.rd PG_ERR_COUNT.count (ctlDiePage d.val) = min (s.rd PG_ERR_COUNT.count (ctlDiePage d.val) + 1) (2 ^ 48 - 1)
        ∧ (s.flag PG_ERR_FIRST.valid (ctlDiePage d.val) = false → t.flag PG_ERR_FIRST.valid (ctlDiePage d.val) = true
          ∧ t.rd PG_ERR_FIRST.code (ctlDiePage d.val) = (if d = 0 then 0x000B else 0x000C)
          ∧ t.rd PG_ERR_FIRST.session (ctlDiePage d.val) = who.val)

/-- A frame that is heard (by an up port whose MACsec checks it passes, or by M0 as relayed over the fabric) on a ready queue pair. A write
under the region's rkey to rings the session owns or to its staging window puts the bytes at its addresses, leaves every other byte and is
acknowledged; one to another's is discarded, counted in the package MGT page and acknowledged; one to registers is acknowledged. Outside
every region, under another rkey, to telemetry or against R52's alignment it is answered with a Remote Access Error and changes no memory.
A read of memory returns its bytes, a corrected one too; of one register its value, zeros and a count where the session may not read;
uncorrectable it is answered with a Remote Operational Error. A frame not heard, or on another queue pair, is only counted, but an
unprotected one under REQUIRED puts a ready queue pair that runs unprotected frames in error. The answer to a write to telemetry, the
discard of what is written to another session's memory and the error state after a Remote Operational Error are the model's choices (log
entry 45). (R51, R52, R53, R363, R49, R48, R130, R426) -/
def Obligations.RdmaAccessesReachMemoryAndRegisters : Prop :=
  ∀ (s : State) (m : Fin 4) (q : Fin 64) (rkey : BitVec 32) (addr : BitVec 64) (data : List Byte) (len : BitVec 32) (via : Via),
    let n := (s.qp m.val q.val).session
    let a := addr.toNat
    let k := rkey.toNat
    let own := fun (x : Region) (z : Nat) => (x = .rings ∧ s.ownsRings n a z = true) ∨ (x = .staging ∧ ownStaging n a z = true)
    let bad := fun z : Nat => ∀ x, regionOf a z = some x → s.rkeyOk n x k = true → x = .pages ∧ pageAccessOk a z = false
    let counted := fun t : State => s.rd PG_ERR_COUNT.count mgtPkgPage < t.rd PG_ERR_COUNT.count mgtPkgPage ∨ s.rd PG_ERR_COUNT.count mgtPkgPage = 2 ^ 48 - 1
    (s.hears m.val via → (s.qp m.val q.val).mode = .ready →
      (∀ x, regionOf a data.length = some x → s.rkeyOk n x k = true →
        (own x data.length → Memory.wf s.mem = true → Completes (.rdmaWrite m q rkey addr data via) s fun t => t.out = [.ack m.val q.val]
            ∧ (∀ i, i < data.length → Memory.read t.mem (a + i) = data.getD i 0)
            ∧ (∀ b, (b < a ∨ a + data.length ≤ b) → Memory.read t.mem b = Memory.read s.mem b) ∧ Memory.wf t.mem = true
            ∧ ChangesOnly [.mem, .mgmt] isCtr s t)
        ∧ (x = .rings ∨ x = .staging → ¬own x data.length → Completes (.rdmaWrite m q rkey addr data via) s fun t =>
            t.out.getLast? = some (.ack m.val q.val) ∧ counted t ∧ ChangesOnly [.mgmt] (onPages [mgtPkgPage]) s t)
        ∧ (x = .pages → pageAccessOk a data.length = true → Completes (.rdmaWrite m q rkey addr data via) s fun t =>
            t.out.getLast? = some (.ack m.val q.val)))
      ∧ ((bad data.length ∨ regionOf a data.length = some .telemetry) → Completes (.rdmaWrite m q rkey addr data via) s fun t =>
          t.out.head? = some (.nakAccess m.val q.val) ∧ t.mem = s.mem ∧ t.tables = s.tables)
      ∧ (∀ x, regionOf a len.toNat = some x → s.rkeyOk n x k = true → x ≠ .pages → Completes (.rdmaRead m q rkey addr len via .ok) s fun t =>
          t.out = [.readResponse m.val q.val (Memory.readN s.mem a len.toNat)] ∧ ChangesOnly [.mgmt] isCtr s t)
      ∧ (∀ x o n, regionOf a len.toNat = some x → s.rkeyOk (s.qp m.val q.val).session x k = true → x ≠ .pages →
          Completes (.rdmaRead m q rkey addr len via (.corrected o n)) s fun t =>
          t.out.getLast? = some (.readResponse m.val q.val (Memory.readN s.mem a len.toNat)) ∧ t.mem = s.mem ∧ t.tables = s.tables)
      ∧ (∀ x o, regionOf a len.toNat = some x → s.rkeyOk n x k = true → x ≠ .pages → Completes (.rdmaRead m q rkey addr len via (.bad o)) s fun t =>
          Output.nakOperational m.val q.val ∈ t.out ∧ t.mem = s.mem)
      ∧ (bad len.toNat → Completes (.rdmaRead m q rkey addr len via .ok) s fun t => t.out.head? = some (.nakAccess m.val q.val) ∧ t.mem = s.mem)
      ∧ (len.toNat = 8 → regionOf a 8 = some .pages → s.rkeyOk n .pages k = true → pageAccessOk a 8 = true →
          let page := a / 4096 * 4096
          let off := a % 4096
          let may := isPage page = true ∧ s.mayRead n page off = true
          Completes (.rdmaRead m q rkey addr len via .ok) s fun t => t.mem = s.mem
            ∧ (may → t.out = [.readResponse m.val q.val (natLe 8 (((s.cleared.heard m.val via (some q.val)).touch n).readReg page off))]
                ∧ ChangesOnly [.mgmt] (fun k => isCtr k ∨ (blkOfPage page = some .tim ∧ pageOf k = page)) s t)
            ∧ (¬may → t.out.getLast? = some (.readResponse m.val q.val (natLe 8 0)) ∧ counted t)))
      ∧ NotTaken (.rdmaWrite m q rkey addr data via) s m.val q.val via ((s.qp m.val q.val).mode = .ready)
      ∧ ∀ f, NotTaken (.rdmaRead m q rkey addr len via f) s m.val q.val via ((s.qp m.val q.val).mode = .ready)

/-- A frame that is heard: a host's SEND is answered with NAK Invalid Request and its queue pair is no longer ready; a solicitation for the
port's own address is answered and no other is; an acknowledgement settles the oldest n requests and clears the retries, a sequence NAK
repeats them, an error NAK ends the queue pair, an RNR NAK starts its timer. The two timers repeat every unsettled request, oldest first,
up to 7 times, and then end the queue pair. Memory, tables and the switch stay; queue pairs are listed in rising order. A heard frame
notes whether its queue pair runs unprotected frames. A frame not heard is only counted (an unprotected one under REQUIRED ends a ready
queue pair that runs unprotected frames), one that answers nothing changes no more, and a timer not due nothing. (R49, R47, R48, R50,
R130, R426) -/
def Obligations.HostAnswersAndErrorsOfQueuePairs : Prop :=
  ∀ (s : State) (m : Fin 4) (q : Fin 64) (via : Via), Sparse.sorted s.mgmt.qps = true →
    let x := s.qp m.val q.val
    let z := { x with plain := via.isPlain }
    let y := fun t : State => t.qp m.val q.val
    let heard := s.hears m.val via
    let again := x.unacked.map fun r => if r.isSend then Output.send m.val q.val r.data else Output.rdmaWrite m.val q.val r.rkey r.addr r.data
    let kept := fun t : State => t.mem = s.mem ∧ t.tables = s.tables ∧ t.sw = s.sw ∧ t.coll = s.coll
    let dead := fun t : State => (y t).mode ≠ .ready ∧ kept t
    let repeated := fun t : State => t.out = again ∧ (y t).unacked = x.unacked ∧ (y t).mode = .ready ∧ ChangesOnly [.mgmt] isCtr s t
    (heard → x.mode = .ready → Completes (.hostSend m q via) s fun t => t.out.head? = some (.nakInvalid m.val q.val) ∧ dead t)
      ∧ (via ≠ .relayed → heard → ∀ target, target < 2 ^ 128 → Completes (.neighborDiscovery m target via) s fun t =>
          t.out = (if target = s.boot.copy.identity.mgtAddrs.getD m.val 0 then [.neighborAdvert m.val target] else []) ∧ ChangesOnly [.mgmt] isCtr s t)
      ∧ (x.mode = .ready → x.unacked ≠ [] →
          (x.retries < 7 → Completes (.localAckTimeout m q) s fun t => repeated t ∧ (y t).retries = x.retries + 1)
            ∧ (7 ≤ x.retries → Completes (.localAckTimeout m q) s dead))
      ∧ (x.mode = .ready → x.rnrWait = true →
          (x.rnrRetries < 7 → Completes (.rnrRetryTimer m q) s fun t => repeated t ∧ (y t).rnrRetries = x.rnrRetries + 1 ∧ (y t).rnrWait = false)
            ∧ (7 ≤ x.rnrRetries → Completes (.rnrRetryTimer m q) s dead))
      ∧ (heard → x.mode = .ready →
          (∀ n, Completes (.rocev2AckReceive m q (.ack n) via) s fun t =>
              y t = { z with unacked := x.unacked.drop n, retries := 0, rnrRetries := 0, rnrWait := false } ∧ ChangesOnly [.mgmt] isCtr s t)
            ∧ (x.unacked ≠ [] → x.retries < 7 → Completes (.rocev2AckReceive m q .nakSequence via) s fun t =>
                repeated t ∧ (y t).retries = x.retries + 1)
            ∧ (x.unacked ≠ [] → 7 ≤ x.retries → Completes (.rocev2AckReceive m q .nakSequence via) s dead)
            ∧ (x.unacked ≠ [] → Completes (.rocev2AckReceive m q .nakError via) s dead)
            ∧ (x.unacked ≠ [] → Completes (.rocev2AckReceive m q .rnr via) s fun t => y t = { z with rnrWait := true } ∧ ChangesOnly [.mgmt] isCtr s t)
            ∧ (x.unacked = [] → ∀ k, k = .nakSequence ∨ k = .nakError ∨ k = .rnr → Completes (.rocev2AckReceive m q k via) s fun t =>
              y t = z ∧ ChangesOnly [.mgmt] isCtr s t))
      ∧ NotTaken (.hostSend m q via) s m.val q.val via (x.mode = .ready)
      ∧ (∀ k, NotTaken (.rocev2AckReceive m q k via) s m.val q.val via (x.mode = .ready))
      ∧ (¬heard ∨ via = .relayed → ∀ target, target < 2 ^ 128 → Completes (.neighborDiscovery m target via) s fun t => Passed s t)
      ∧ (x.mode ≠ .ready ∨ x.unacked = [] → Completes (.localAckTimeout m q) s (Unchanged s))
      ∧ (x.mode ≠ .ready ∨ x.rnrWait = false → Completes (.rnrRetryTimer m q) s (Unchanged s))

/-- A frame that is heard, on a port with fewer than 16 failures in the last second: a REQ with the magic, the identity key present and a
credential in use, asking for a new session, takes the lowest free session and queue pair, gives the session its 64 command and 4 event
rings and answers REP; one that joins its credential's session with room takes a queue pair for it; one that fails a check is answered
REJ, counted, and admits nothing. An RTU whose credential still stands and whose signature verifies makes the queue pair ready and the
session active; another is answered REJ. An ended session holds no queue pair and no guard, and each of its rings is STOPPED with
SESSION_ENDED; later firmware takes its rings' owner back to 0xFF. Device memory and tables stay. Past 16 failures a REQ is only counted;
where there is nothing to do, nothing changes. (R427, R50, R69, R60, R59, R48, R130) -/
def Obligations.SessionsAreAdmittedAndEnd : Prop :=
  ∀ (s : State) (m : Fin 4) (q : Fin 64) (n : Fin 64) (hostQpn : Nat) (priv sig : List Byte) (via : Via), hostQpn < 2 ^ 24 →
    let heard := s.hears m.val via
    let slot := leAt priv 4 1
    let credOk := if s.owned then 1 ≤ slot ∧ slot ≤ 15 ∧ Sparse.get 0 s.sec.keys slot ≠ 0 else slot = 0xFF
    let fine := leAt priv 0 4 = 0x57584144 ∧ s.flag SEC_STATE.identity_ok secPage = true ∧ credOk
    let owners := fun (t : State) (v : Nat) => (∀ i, i < 64 → t.rd CTL_RING_CFG.owner (ringBlock (64 * n.val + i)) = v)
      ∧ ∀ i, i < 4 → t.rd CTL_EVR_CFG.owner (evrBlock (4 * n.val + i)) = v
    let failed := fun t : State => t.rd SEC_ADMIT.failures secPage = (s.rd SEC_ADMIT.failures secPage + 1) % 2 ^ 32
    let x := s.qp m.val q.val
    let y := s.session x.session
    (heard → s.recentFails m.val < 16 → fine → leAt priv 5 1 = 0xFF → s.freeSession = some n.val → s.freeQp m.val = some q.val →
        Completes (.cmReq m hostQpn priv via) s fun t => (t.qp m.val q.val).mode = .connecting ∧ (t.qp m.val q.val).session = n.val
          ∧ (t.qp m.val q.val).hostQpn = hostQpn ∧ (t.session n.val).active = false ∧ (t.session n.val).reserved = true
          ∧ (t.session n.val).slot = (if s.owned then slot else 0) ∧ owners t n.val ∧ (∃ d, t.out = [.cmRep m.val hostQpn (0x40 + q.val) d])
          ∧ t.mem = s.mem ∧ t.tables = s.tables)
      ∧ (heard → s.recentFails m.val < 16 → fine → leAt priv 5 1 = n.val → (s.session n.val).active = true → (s.qpsOf n.val).length < 16 →
          sameCred (s.session n.val).ephemeral (s.credOf n.val) (!s.owned) (if s.owned then slot else beAt priv 24 64) = true →
          s.freeQp m.val = some q.val → Completes (.cmReq m hostQpn priv via) s fun t => (t.qp m.val q.val).mode = .connecting
            ∧ (t.qp m.val q.val).session = n.val ∧ t.session n.val = s.session n.val ∧ (∃ d, t.out = [.cmRep m.val hostQpn (0x40 + q.val) d])
            ∧ ChangesOnly [.mgmt] isCtr s t)
      ∧ (heard → s.recentFails m.val < 16 → (¬fine ∨ s.freeQp m.val = none ∨ (leAt priv 5 1 = 0xFF ∧ s.freeSession = none)
            ∨ (leAt priv 5 1 ≠ 0xFF ∧ (64 ≤ leAt priv 5 1 ∨ (s.session (leAt priv 5 1)).active = false ∨ 16 ≤ (s.qpsOf (leAt priv 5 1)).length
              ∨ sameCred (s.session (leAt priv 5 1)).ephemeral (s.credOf (leAt priv 5 1)) (!s.owned) (if s.owned then slot else beAt priv 24 64) = false))) →
          Completes (.cmReq m hostQpn priv via) s fun t => t.out.head? = some (.cmRej m.val hostQpn) ∧ failed t
            ∧ t.mgmt.sessions = s.mgmt.sessions ∧ t.mem = s.mem ∧ t.tables = s.tables)
      ∧ (heard → 16 ≤ s.recentFails m.val → Completes (.cmReq m hostQpn priv via) s fun t => t.out = [] ∧ failed t ∧ t.mgmt.qps = s.mgmt.qps ∧ t.mgmt.sessions = s.mgmt.sessions)
      ∧ (heard → x.mode = .connecting → Completes (.cmRtu m q sig via) s fun t =>
          let key := if y.ephemeral then y.key else Sparse.get 0 s.sec.keys y.slot
          let good := y.ephemeral ≠ s.owned ∧ (y.ephemeral = true ∨ key ≠ 0) ∧ sm2Verify key (rtuDigest x q.val) (beAt sig 0 64) = true
          t.mem = s.mem ∧ t.tables = s.tables
            ∧ (good → (t.qp m.val q.val).mode = .ready ∧ (t.session x.session).active = true ∧ (t.session x.session).reserved = false
              ∧ t.rd SEC_ADMIT.admissions secPage = (s.rd SEC_ADMIT.admissions secPage + 1) % 2 ^ 32)
            ∧ (¬good → t.out.head? = some (.cmRej m.val x.hostQpn) ∧ failed t ∧ t.session x.session = (if y.reserved then Session.none else y)))
      ∧ ((s.session n.val).active = true → Completes (.sessionIdleTimeout n) s fun t => (t.session n.val).active = false
          ∧ (∀ e ∈ t.mgmt.qps, e.2.session ≠ n.val) ∧ (∀ a, isPage a = true → t.rd PG_GUARD.owner a ≠ n.val)
          ∧ (∀ i, i < 64 → s.rd CTL_RING_CFG.owner (ringBlock (64 * n.val + i)) = n.val →
              t.rd CTL_RING_STATE.state (ringBlock (64 * n.val + i)) = 2 ∧ t.rd CTL_RING_STATE.stop_reason (ringBlock (64 * n.val + i)) = 2)
          ∧ t.mem = s.mem ∧ t.tables = s.tables ∧ t.sw = s.sw)
      ∧ ((s.session n.val).active = false → (s.session n.val).reserved = false → s.boot.cores ≠ 0 → Completes (.ringOwnerRelease n) s fun t =>
          owners t 0xFF ∧ ChangesOnly [] (fun k => (∃ i, i < 64 ∧ k = CTL_RING_CFG.owner.key (ringBlock (64 * n.val + i)) 0)
            ∨ ∃ i, i < 4 ∧ k = CTL_EVR_CFG.owner.key (evrBlock (4 * n.val + i)) 0) s t)
      ∧ NotTaken (.cmRtu m q sig via) s m.val q.val via (x.mode = .connecting)
      ∧ (¬heard → Completes (.cmReq m hostQpn priv via) s fun t => Passed s t)
      ∧ ((s.session n.val).active = false → Completes (.sessionIdleTimeout n) s (Unchanged s))
      ∧ ((s.session n.val).active = true ∨ (s.session n.val).reserved = true ∨ s.boot.cores = 0 → Completes (.ringOwnerRelease n) s (Unchanged s))

/-- With PWR_OK high, a port in training comes up, and an up or training port goes down into training with its key dead; link_change is raised
where the link changed. Under policy REQUIRED on an up port with a core running, a key installation is counted, sets rx_an and tx_an to
its association number and mka_live, and applies the port's cipher. Ten seconds without one raise mka_fail. Each changes only its port's
page, the cipher record, the packet number expected next and what reports the interrupt; where its condition does not hold, nothing. The
packet number expected next is the model's, after IEEE 802.1AE (log entry 64). (R47, R48, R74) -/
def Obligations.ManagementLinksAndKeys : Prop :=
  ∀ (s : State) (m an : Fin 4) (up : Bool),
    let a := mgtPage m.val
    let b := fun (f : Fld) (t : State) => t.flag f a
    (s.power.pwrOk = true → (b MGT_PORT_STATUS.training s = true ∨ (up = false ∧ b MGT_PORT_STATUS.link_up s = true)) →
        Completes (.mgtLinkChange m up) s fun t => b MGT_PORT_STATUS.link_up t = up ∧ b MGT_PORT_STATUS.training t = !up
          ∧ (up = false → b MGT_MACSEC_STATUS.mka_live t = false)
          ∧ (b MGT_PORT_STATUS.link_up s ≠ up → bit (t.rd PG_IRQ_RAW.block_irq a) 0 = true) ∧ ChangesOnly [.mgmt] (onPages [a]) s t)
      ∧ (b MGT_MACSEC_CFG.policy s = true → b MGT_PORT_STATUS.link_up s = true → s.boot.cores ≠ 0 → Completes (.mkaKeyInstall m an) s fun t =>
          t.rd MGT_MACSEC_STATUS.rx_an a = an.val ∧ t.rd MGT_MACSEC_STATUS.tx_an a = an.val ∧ b MGT_MACSEC_STATUS.mka_live t = true
            ∧ t.rd MGT_MACSEC_STATUS.sak_installs a = (s.rd MGT_MACSEC_STATUS.sak_installs a + 1) % 2 ^ 32
            ∧ Sparse.get 0 t.mgmt.cipher m.val = s.rd MGT_MACSEC_CFG.cipher a ∧ t.nextPn m.val = 1 ∧ ChangesOnly [.mgmt] (fun k => pageOf k = a ∧ offOf k = 0x108) s t)
      ∧ (b MGT_MACSEC_CFG.policy s = true → b MGT_PORT_STATUS.link_up s = true → b MGT_MACSEC_STATUS.mka_live s = false →
          Completes (.mkaTimeout m) s fun t => bit (t.rd PG_IRQ_RAW.block_irq a) 1 = true ∧ ChangesOnly [.mgmt] (fun k => shared k ∨ isIrq a k) s t)
      ∧ (s.power.pwrOk = false ∨ (b MGT_PORT_STATUS.training s = false ∧ (up = true ∨ b MGT_PORT_STATUS.link_up s = false)) →
          Completes (.mgtLinkChange m up) s (Unchanged s))
      ∧ (b MGT_MACSEC_CFG.policy s = false ∨ b MGT_PORT_STATUS.link_up s = false → Completes (.mkaKeyInstall m an) s (Unchanged s)
          ∧ Completes (.mkaTimeout m) s (Unchanged s))
      ∧ (s.boot.cores = 0 → Completes (.mkaKeyInstall m an) s (Unchanged s))
      ∧ (b MGT_MACSEC_STATUS.mka_live s = true → Completes (.mkaTimeout m) s (Unchanged s))

/-- A session that is not admitted writes nothing. An admitted one with the right writes a register, beyond the header and below the counters,
of the CLK, F2F, MSH, MEM, SWP, SCH, TRG, CMB, MGT, BOOT or die CTR pages: each RW or RWS field takes its bits of the word, an encoding
its table reserves as 0 (the model's choice, log entry 52), each W1C bit written 1 clears, every other field of the register stays, and so
do all other registers, pieces of state and memory. Without the right, or where no page is mapped, nothing is written and the access is
counted in the package MGT page. The other pages' registers have effects of their own, stated with their commands. (R12, R53, R429) -/
def Obligations.RegisterWritesObeyTheirAccessCodes : Prop :=
  ∀ (s : State) (who : Fin 64) (page off : Nat) (v : BitVec 64), page % 4096 = 0 → off % 8 = 0 → off < 4096 → page + off < 0x10000000 →
    let admitted := (s.session who.val).active = true
    let plain := [Blk.clk, .f2f, .msh, .mem, .swp, .schDie, .trg, .cmb, .mgtPort, .mgtPkg, .boot, .ctrDie]
    let errs := fun t : State => t.rd PG_ERR_COUNT.count mgtPkgPage
    (¬admitted → Completes (.registerWrite who (page + off) v) s (Unchanged s))
      ∧ (admitted → ∀ b ∈ plain, blkOfPage page = some b → s.mayWrite who.val page off = true → 0x100 ≤ off → off < 0xF00 →
        Completes (.registerWrite who (page + off) v) s fun t =>
          (∀ p ∈ placesAt page off,
            let x := p.fld.legal page (bits v.toNat (p.fld.loAt p.inst) p.fld.w)
            let old := s.rd p.fld p.base p.inst
            t.rd p.fld p.base p.inst = (if p.fld.acc = .rw ∨ p.fld.acc = .rws then x else if p.fld.acc = .w1c then old - Nat.land old x else old))
          ∧ ChangesOnly [] (fun k => k / 64 = page + off) s t)
      ∧ (admitted → (isPage page = false ∨ s.mayWrite who.val page off = false) → Completes (.registerWrite who (page + off) v) s fun t =>
          errs t = min (errs s + 1) (2 ^ 48 - 1) ∧ ChangesOnly [.mgmt] (onPages [mgtPkgPage]) s t)

/-- A permitted write of PG_GUARD.owner takes a free page for the session itself, or releases the session's page with 0xFF, and changes
nothing else; any other value leaves the owner and sets guard_denied. On the package PWR page, by a session that may write PG_COMMIT and
that the guard admits: a commit whose sequence is shadow_seq and above active_seq makes commit_busy 1, or, where an RWP field changed,
waits under the next ticket for another credential's commit, which makes commit_busy 1; any other sequence is refused with COMMIT_SEQ and
leaves the banks. The guard refuses the rest with guard_denied. The swap makes every shadow field active, takes the sequence, changes the
bank and raises commit_done. An abort empties the shadow bank. A ticket's timeout ends its item and, for a page, clears dual_pending and
raises dual_timeout. A commit that arrives during a swap is judged after it (log entry 17). On a page without banks a commit or abort does
nothing but meet the guard; a swap or timeout that is not due does nothing. (R57, R58, R59, R430, R55) -/
def Obligations.GuardsAreTakenAndCommitsSwapTheBanks : Prop :=
  ∀ (s : State) (who : Fin 64) (q ticket : BitVec 32) (page : Nat) (v : BitVec 8),
    let a := pwrPkgPage
    let u := s.cleared.swap a
    let busy := fun t : State => t.flag PG_STATUS.commit_busy a
    let seqOk := u.rd PG_SHADOW_SEQ.shadow_seq a = q.toNat ∧ u.rd PG_SEQ.active_seq a < q.toNat
    let same := fun t : State => t.shadow = u.shadow ∧ busy t = busy u ∧ t.rd PG_SEQ.active_seq a = u.rd PG_SEQ.active_seq a ∧ t.mem = s.mem
    let errs := fun t : State => t.rd PG_ERR_COUNT.count a = min (u.rd PG_ERR_COUNT.count a + 1) (2 ^ 48 - 1)
    let banked := [PWR_THROTTLE_CFG.hyst_pct, PWR_THROTTLE_CFG.fault_ms, PWR_THROTTLE_CFG.period_us, PWR_THERM_CFG.crit_c, PWR_THERM_CFG.therm_c,
      PWR_THERM_CFG.warn_c]
    let o := s.rd PG_GUARD.owner page
    let fine := (o = 0xFF ∧ v.toNat = who.val) ∨ (o = who.val ∧ v.toNat = 0xFF)
    (isPage page = true → s.writes who.val page PG_GUARD.owner.off → Completes (.pgGuardWrite who page v) s fun t =>
        (fine → t.rd PG_GUARD.owner page = v.toNat ∧ ChangesOnly [] (fun k => k = PG_GUARD.owner.key page 0) s t)
          ∧ (¬fine → t.rd PG_GUARD.owner page = o ∧ t.rd PG_IRQ_RAW.guard_denied page = 1
            ∧ ChangesOnly [.mgmt] (fun k => shared k ∨ isIrq page k) s t))
      ∧ (s.writes who.val a PG_COMMIT.commit_seq.off →
      (u.dualPage? a = none → u.guarded a who.val = false →
        (seqOk → u.rwpChanged = false → Completes (.pgCommitWrite who a q) s fun t => busy t = true ∧ t.commitSeq = q.toNat ∧ t.shadow = u.shadow)
        ∧ (seqOk → u.rwpChanged = true → u.mgmt.dual.length < 16 → Completes (.pgCommitWrite who a q) s fun t => same t
            ∧ t.flag PG_STATUS.dual_pending a = true ∧ t.mgmt.lastTicket = u.mgmt.lastTicket + 1 ∧ t.mgmt.dual.length = u.mgmt.dual.length + 1)
        ∧ (seqOk → u.rwpChanged = true → 16 ≤ u.mgmt.dual.length → Completes (.pgCommitWrite who a q) s fun t => same t ∧ t.mgmt = u.mgmt)
        ∧ (¬seqOk → Completes (.pgCommitWrite who a q) s fun t => same t ∧ errs t
            ∧ (u.flag PG_ERR_FIRST.valid a = false → t.rd PG_ERR_FIRST.code a = 0x0001))
        ∧ Completes (.pgCommitAbort who a) s fun t => t.shadow = [] ∧ t.rd PG_SEQ.active_seq a = u.rd PG_SEQ.active_seq a ∧ t.mem = s.mem)
      ∧ (u.dualPage? a = none → u.guarded a who.val = true → Completes (.pgCommitWrite who a q) s fun t => same t ∧ errs t
          ∧ t.rd PG_IRQ_RAW.guard_denied a = 1)
      ∧ (∀ x, u.dualPage? a = some x →
          (x.seq = q.toNat → seqOk → u.otherCred x who.val = true → Completes (.pgCommitWrite who a q) s fun t => busy t = true
            ∧ t.commitSeq = q.toNat ∧ t.flag PG_STATUS.dual_pending a = false ∧ ∀ y ∈ t.mgmt.dual, y.ticket ≠ x.ticket)
          ∧ (x.seq = q.toNat → seqOk → u.otherCred x who.val = false → u.guarded a who.val = false → Completes (.pgCommitWrite who a q) s fun t =>
            same t ∧ errs t ∧ t.mgmt.dual = u.mgmt.dual)
          ∧ ((x.seq ≠ q.toNat ∨ ¬seqOk) → u.guarded a who.val = false → Completes (.pgCommitWrite who a q) s fun t =>
            same t ∧ errs t ∧ t.mgmt.dual = u.mgmt.dual)
          ∧ (u.guarded a who.val = false → x.session ≠ who.val → Completes (.pgCommitAbort who a) s fun t => same t ∧ errs t ∧ t.mgmt.dual = u.mgmt.dual)
          ∧ (u.guarded a who.val = false → x.session = who.val → s.flag PG_STATUS.commit_busy a = false → Completes (.pgCommitAbort who a) s fun t =>
            t.shadow = [] ∧ t.flag PG_STATUS.dual_pending a = false ∧ ∀ y ∈ t.mgmt.dual, y.ticket ≠ x.ticket)))
      ∧ (busy s = true → Sparse.sorted s.shadow = true → Completes (.bankSwap a) s fun t => busy t = false
          ∧ (∀ f ∈ banked, t.rd f a = s.shadowRd f a % 2 ^ f.w) ∧ t.rd PG_SEQ.active_seq a = s.commitSeq % 2 ^ 32
          ∧ t.rd PG_SEQ.active_bank a = 1 - s.rd PG_SEQ.active_bank a ∧ t.rd PG_IRQ_RAW.commit_done a = 1
          ∧ (s.heldWrites = [] → t.shadow = []) ∧ t.mem = s.mem)
      ∧ (∀ x ∈ s.mgmt.dual, x.ticket = ticket.toNat → Completes (.dualTimeout ticket) s fun t =>
          t.mgmt.dual = s.mgmt.dual.filter (fun y => y.ticket != ticket.toNat) ∧ t.mem = s.mem ∧ t.shadow = s.shadow
            ∧ ((∀ y ∈ s.mgmt.dual, y.ticket = ticket.toNat → y.page = a) → t.flag PG_STATUS.dual_pending a = false ∧ t.rd PG_IRQ_RAW.dual_timeout a = 1))
      ∧ (busy s = false → Completes (.bankSwap a) s (Unchanged s))
      ∧ ((∀ x ∈ s.mgmt.dual, x.ticket ≠ ticket.toNat) → Completes (.dualTimeout ticket) s (Unchanged s))
      ∧ (isPage page = true → page ≠ a → s.writes who.val page PG_COMMIT.commit_seq.off →
          let g := fun t : State => t.rd PG_IRQ_RAW.guard_denied page = 1 ∧ t.rd PG_ERR_COUNT.count page = min (s.rd PG_ERR_COUNT.count page + 1) (2 ^ 48 - 1)
            ∧ t.shadow = s.shadow ∧ t.mem = s.mem
          (s.guarded page who.val = true → Completes (.pgCommitWrite who page q) s g ∧ Completes (.pgCommitAbort who page) s g)
            ∧ (s.guarded page who.val = false → Completes (.pgCommitWrite who page q) s (Unchanged s) ∧ Completes (.pgCommitAbort who page) s (Unchanged s)))

/-- A doorbell on an enabled ring that is not STOPPED records the producer index, or stops the ring with OVERRUN where it lies more than the
ring's size past the head; on any other ring it does nothing. Enabling a disabled command ring clears head, producer, consumed index and
completion index and leaves STOPPED; disabling it keeps all of them and the commands in flight. CQ_HEAD_WRITE sets the consumed index
alone. Enabling a disabled event ring whose qp field names a queue pair of the owner clears its indices, its drop count and its sequence;
disabling keeps them; where it names another's, enabling and disabling are refused and counted. Ring sizes lie within their tables' range,
which every write keeps (log entry 52). A new consumed index that makes room reports what was dropped and clears the count. Only that
ring's block changes beside what reports it. What counts RING_ACTIVE and how CTL_RING_STATE reads while enabled is the model's choice (log
entry 15). (R60, R70, R67, R61, R69) -/
def Obligations.RingRegistersAct : Prop :=
  ∀ (s : State) (who : Fin 64) (r : Fin 4096) (e : Fin 256) (v : BitVec 32), (s.session who.val).active = true →
    let a := ringBlock r.val
    let b := evrBlock e.val
    let head := fun t : State => t.rd CTL_RING_STATE.head a
    let on := fun t : State => t.flag CTL_RING_CFG.enable a
    let block := fun k : Nat => keyIn a (a + 0x70) k = true
    let evr := fun k : Nat => keyIn b (b + 0x70) k = true
    (s.rd CTL_RING_CFG.owner a = who.val →
      (on s = true → s.rd CTL_RING_STATE.state a ≠ 2 →
          (sub32 v.toNat (head s) ≤ s.ringSize r.val → Completes (.ringDoorbell who r v) s fun t =>
              t.ring r.val = { s.ring r.val with producer := v.toNat } ∧ ChangesOnly [.mgmt] (fun _ => False) s t)
          ∧ (s.ringSize r.val < sub32 v.toNat (head s) → Completes (.ringDoorbell who r v) s fun t => t.ring r.val = s.ring r.val
              ∧ t.rd CTL_RING_STATE.state a = 2 ∧ t.rd CTL_RING_STATE.stop_reason a = 1 ∧ head t = head s
              ∧ ChangesOnly [.mgmt] (fun k => shared k ∨ block k) s t))
        ∧ ((on s = false ∨ s.rd CTL_RING_STATE.state a = 2) → Completes (.ringDoorbell who r v) s (ChangesOnly [] (fun _ => False) s))
        ∧ (on s = false → s.rd CTL_RING_CFG.log2_entries a ≤ 10 → Completes (.ringEnable who r) s fun t => on t = true ∧ head t = 0 ∧ t.rd CTL_RING_CQ_HEAD.consumed a = 0
            ∧ t.rd CTL_RING_STATE.state a = 0 ∧ t.rd CTL_RING_STATE.stop_reason a = 0
            ∧ t.ring r.val = { s.ring r.val with producer := 0, cplIndex := 0 } ∧ t.rd CTL_RING_CFG.log2_entries a = s.rd CTL_RING_CFG.log2_entries a
            ∧ ChangesOnly [.mgmt] block s t)
        ∧ (on s = true → s.rd CTL_RING_CFG.log2_entries a ≤ 10 → Completes (.ringDisable who r) s fun t => on t = false ∧ head t = head s ∧ t.ring r.val = s.ring r.val
            ∧ t.rd CTL_RING_STATE.state a = s.rd CTL_RING_STATE.state a ∧ ChangesOnly [] block s t)
        ∧ Completes (.cqHeadWrite who r v) s fun t => t.rd CTL_RING_CQ_HEAD.consumed a = v.toNat
            ∧ ChangesOnly [] (fun k => k = CTL_RING_CQ_HEAD.consumed.key a 0) s t)
      ∧ (s.rd CTL_EVR_CFG.owner b = who.val →
        (s.flag CTL_EVR_CFG.enable b = false → s.qpHeld who.val (s.rd CTL_EVR_CFG.qp b) = true → Completes (.evrEnable who e) s fun t => t.flag CTL_EVR_CFG.enable b = true
            ∧ t.rd CTL_EVR_STATE.producer b = 0 ∧ t.rd CTL_EVR_HEAD.consumed b = 0 ∧ t.rd CTL_EVR_STATE.dropped b = 0
            ∧ t.mgmt = { s.mgmt with evrSeq := Sparse.del s.mgmt.evrSeq e.val } ∧ ChangesOnly [.mgmt] evr s t)
        ∧ (s.qpHeld who.val (s.rd CTL_EVR_CFG.qp b) = false → ∀ c : Instr, c = .evrEnable who e ∨ c = .evrDisable who e → Completes c s fun t =>
            t.rd PG_ERR_COUNT.count mgtPkgPage = min (s.rd PG_ERR_COUNT.count mgtPkgPage + 1) (2 ^ 48 - 1) ∧ ChangesOnly [.mgmt] (onPages [mgtPkgPage]) s t)
        ∧ (s.flag CTL_EVR_CFG.enable b = true → s.qpHeld who.val (s.rd CTL_EVR_CFG.qp b) = true → s.rd CTL_EVR_CFG.log2_entries b ≤ 10 → Completes (.evrDisable who e) s fun t => t.flag CTL_EVR_CFG.enable b = false
            ∧ t.rd CTL_EVR_STATE.producer b = s.rd CTL_EVR_STATE.producer b ∧ t.mgmt = s.mgmt ∧ ChangesOnly [] evr s t)
        ∧ Completes (.evrHeadWrite who e v) s fun t => t.rd CTL_EVR_HEAD.consumed b = v.toNat ∧ ChangesOnly [.mgmt] shared s t
            ∧ (s.rd CTL_EVR_STATE.dropped b = 0 → ChangesOnly [] (fun k => k = CTL_EVR_HEAD.consumed.key b 0) s t)
            ∧ (s.flag CTL_EVR_CFG.enable b = true → s.rd CTL_EVR_STATE.dropped b ≠ 0 → s.evrQpOk e.val = true →
                sub32 (s.rd CTL_EVR_STATE.producer b) v.toNat < s.evrSize e.val → t.rd CTL_EVR_STATE.dropped b = 0
                  ∧ t.rd CTL_EVR_STATE.producer b = (s.rd CTL_EVR_STATE.producer b + 1) % 2 ^ 32 ∧ t.out.length = 1))

/-- Once the commands at the front that cannot be performed have completed (u is that state): where u may fetch, and a fenced descriptor finds
nothing in flight, the descriptor read from ring memory at index head modulo the ring size, with the owner and its rights then, joins the
end of those in flight and head rises by one, modulo 2^32; one read uncorrectable joins marked so. Where u may not fetch, head and the
commands in flight stay. Ring memory is not written. Completing commands with HW_ERROR or UNSUPPORTED at once is read from R61 and R64
(log entry 19). (R60, R61, R62, R64, R363) -/
def Obligations.DescriptorsAreFetchedInOrder : Prop :=
  ∀ (s : State) (r : Fin 4096) (find : ReadFind),
    let a := ringBlock r.val
    let u := s.cleared.settled r.val
    let e := u.descriptor r.val
    let flying := fun t : State => (t.ring r.val).inflight
    let goes := u.mayFetch r.val = true ∧ (e.fence = true → flying u = [])
    Completes (.descriptorFetch r find) s fun t => t.mem = s.mem ∧ t.tables = s.tables
      ∧ (¬goes → flying t = flying u ∧ t.rd CTL_RING_STATE.head a = u.rd CTL_RING_STATE.head a)
      ∧ (goes → t.rd CTL_RING_STATE.head a = (u.rd CTL_RING_STATE.head a + 1) % 2 ^ 32
        ∧ (readLost find = false → knownOpcodes.contains e.opcode = true → flying t = flying u ++ [e])
        ∧ (readLost find = false → knownOpcodes.contains e.opcode = false → flying u = [] → flying t = [])
        ∧ (readLost find = true → flying u ≠ [] → ∃ x : Descriptor, x.bad = true ∧ x.index = e.index ∧ flying t = flying u ++ [x])
        ∧ (readLost find = true → flying u = [] → flying t = []))

/-- The expiry of a core that does not run changes nothing. That of a running core's watchdog clears its running bit, writes an error record
of die 0 unless its LPDDR6 is out of use, counts the error in the package CTL page, and on each named ring whose oldest command had
started removes that command and starts no other (a ring whose queue pair is not ready marks the rest as discarded, R61); other rings,
tables, frames and memory stay. While some core runs, a restart sets the core's bit and nothing else; while none does, nothing changes.
The record's unit fields and the page of the watchdog's error are the model's choice (log entry 38), and so is that a restart needs
another running core (log entry 48). (R73, R436, R440) -/
def Obligations.ControlCoresStopAndReturn : Prop :=
  ∀ (s : State) (k : Fin 4) (rings : List (Fin 4096)),
    (bit s.boot.cores k.val = false → Completes (.coreWatchdogExpiry k rings) s (Unchanged s)) ∧ (bit s.boot.cores k.val = true → Completes (.coreWatchdogExpiry k rings) s fun t =>
        t.boot = { s.boot with cores := setBit s.boot.cores k.val false }
          ∧ (∀ r ∈ rings, (s.ring r.val).inflight ≠ [] → (t.ring r.val).waiting = false)
          ∧ (∀ r ∈ rings, rings.Nodup → (s.ring r.val).waiting = true → Left s t r.val)
          ∧ (∀ r, (∀ x ∈ rings, x.val ≠ r) → t.ring r = s.ring r)
          ∧ t.errIndex 0 = (if bit s.boot.lpUnused 0 then s.errIndex 0 else (s.errIndex 0 + 1) % 2 ^ 62)
          ∧ s.rd PG_ERR_COUNT.count ctlPkgPage ≤ t.rd PG_ERR_COUNT.count ctlPkgPage ∧ t.rd PG_ERR_COUNT.count ctlPkgPage ≠ 0
          ∧ t.mem = s.mem ∧ t.tables = s.tables ∧ t.coll = s.coll ∧ t.cores = s.cores ∧ t.sw.frames = s.sw.frames)
      ∧ Completes (.coreRestart k) s fun t =>
          t.boot = (if s.boot.cores = 0 then s.boot else { s.boot with cores := setBit s.boot.cores k.val true }) ∧ ChangesOnly [.boot] (fun _ => False) s t

/-- A search answers OK with the value of the key in the copy and bank named, else NOT_FOUND; a walk answers OK with at most n records, placed
at the staging offset, and its next cursor; neither changes the tables. An insertion changes the entry of its key in every copy, or places
a new one with the insertion stamp, and counts it; a new prefix goes to the slot of R152, and the prefixes stay ordered by length, longest
first, each with its value (which slots are left free is the model's choice, log entry 59); with no room it answers TABLE_FULL, and with a
key or value outside R156 INVALID. A deletion removes the entry from every copy, else NOT_FOUND. Route tables change in their shadow bank
alone, and while a drain of the table is in progress the write waits (R159). A busy table answers BUSY, a table above 3 INVALID, a span
outside the staging window PERMISSION. A flush removes the dynamic entries whose port the mask names from every copy and answers their
number. Every other entry stays. An uncorrectable entry of the home die is first counted and removed. Which error latch a table error uses
beside R160 is read from R439. That a table number above 3 is INVALID is the model's choice (log entry 48). (R142, R143, R150, R156, R157,
R158, R160, R64) -/
def Obligations.TableOpcodesReadAndChangeTheTables : Prop :=
  ∀ (s : State) (r : Fin 4096) (ecc : Bool) (e : Descriptor),
    let t := bits (e.q 1) 0 8
    let d := bits (e.q 1) 8 2
    let k := e.key
    let fea := e.q 2
    let h := homeDie fea
    let v6 := e.q 6
    let bank := fun x : Nat => if bits (e.q 1) 12 1 = 0 then s.routeBank x else 1 - s.routeBank x
    let span := stagingOk (e.q 3) (48 * bits (e.q 4) 0 16)
    let ready := fun op : Nat => s.atFront r.val op false e ∧ t < 4 ∧ s.tableBusy e.owner t = false
    let turned := fun (c : Instr) (op : Nat) => s.atFront r.val op false e → (op = 0x021 → span = true) →
      (4 ≤ t → Answers c s r.val stInvalid 0 0 (Unchanged s))
        ∧ (t < 4 → s.tableBusy e.owner t = true → Answers c s r.val stBusy 0 0 (Unchanged s))
    let route := fun v : Nat => if bit v 63 then some (v, 0) else none
    let hit : Option (Nat × Nat) := if t = 0 then (s.epFind d fea).bind fun i => (s.ep? d i).map EpEntry.value
      else if t = 1 then (s.lpmSlot (lpmAddr k) (e.q 4)).map fun i => ((Sparse.get LpmEntry.blank s.tables.lpm i).value, 0)
      else if t = 2 then route (s.upSlot (bank 2) (bits fea 0 3) (bits fea 8 7)) else route (s.grEntry (bank 3) fea)
    let u := s.cleared.iff (ecc && t == 0) fun x => x.epError h fea
    let others := fun (a b : State) (i : Nat) => ∀ c j, c < 4 → j < 2 ^ 19 → j ≠ i → b.ep? c j = a.ep? c j
    let stamps := fun x : Nat => ∃ c, c < 4 ∧ x = FWD_EP_STAMP.insert_counter.key (fwdPage c) 0
    let counts := fun x : Nat => stamps x ∨ ∃ c, c < 4 ∧ x = FWD_LPM_STATUS.entries.key (fwdPage c) 0
    let stamped := fun b : State => ∀ c, c < 4 → b.insertCount c = (u.insertCount c + 1) % 2 ^ 32
    let lpm := fun (b : State) (m : Sparse LpmEntry) => b.tables = { s.tables with lpm := m }
      ∧ (∀ c, c < 4 → b.rd FWD_LPM_STATUS.entries (fwdPage c) = m.length % 2 ^ 15) ∧ ChangesOnly [.tables] counts s b
    let canon := fun m : Sparse LpmEntry => Sparse.sorted m = true ∧ (∀ x ∈ m, x.1 < 16384) ∧ m.Pairwise fun x y => y.2.len ≤ x.2.len
    let valueOf := fun (m : Sparse LpmEntry) (a n : Nat) => (m.find? fun x => x.2.addr == a && x.2.len == n).map fun x => x.2.value
    let lpmOk := bit v6 63 = true ∧ bits v6 48 2 ≠ 3 ∧ ∀ pl, s.boot.plan = some pl → ¬(bits v6 48 2 = 2 ∧ bits v6 0 6 = pl.hall)
    let up := fun (b : State) (v : Nat) => ∀ i, Sparse.get 0 b.tables.up i =
      if i = (1 - s.routeBank 2) * 1024 + bits fea 0 3 * 128 + bits fea 8 7 then v else Sparse.get 0 s.tables.up i
    let gr := fun (b : State) (v : Nat) => ∀ i, Sparse.get 0 b.tables.gr i = if i = (1 - s.routeBank 3) * 64 + fea then v else Sparse.get 0 s.tables.gr i
    let routes := fun (b : State) (v : Nat) => (t = 2 → up b v ∧ b.tables = { s.tables with up := b.tables.up })
      ∧ (t = 3 → gr b v ∧ b.tables = { s.tables with gr := b.tables.gr }) ∧ ChangesOnly [.tables] (fun _ => False) s b
    (turned (.tableSearch r) 0x020 ∧ turned (.tableNext r) 0x021 ∧ turned (.tableInsert r ecc) 0x022 ∧ turned (.tableDelete r) 0x023
        ∧ turned (.flushByPort r) 0x024)
      ∧ (ready 0x020 → keyOk t k = true → (∀ v, hit = some v → Answers (.tableSearch r) s r.val stOk v.1 v.2 (Unchanged s))
        ∧ (hit = none → Answers (.tableSearch r) s r.val stNotFound 0 0 (Unchanged s)))
      ∧ (ready 0x020 → keyOk t k = false → Answers (.tableSearch r) s r.val stInvalid 0 0 (Unchanged s))
      ∧ (s.atFront r.val 0x021 false e → span = false → Answers (.tableNext r) s r.val stPermission 0 0 (Unchanged s))
      ∧ (ready 0x021 → span = true → s.tableNext t d (bits (e.q 1) 12 1) (e.q 2) (bits (e.q 4) 0 16) = none →
          Answers (.tableNext r) s r.val stInvalid 0 0 (Unchanged s))
      ∧ (ready 0x021 → span = true → Memory.wf s.mem = true → ∀ recs next done, s.tableNext t d (bits (e.q 1) 12 1) (e.q 2) (bits (e.q 4) 0 16) = some (recs, next, done) →
            Answers (.tableNext r) s r.val stOk (if done = true then 2 ^ 64 - 1 else next) recs.length fun b => recs.length ≤ bits (e.q 4) 0 16
              ∧ Wrote s b (stagingBase e.owner + e.q 3) recs.flatten ∧ Memory.wf b.mem = true ∧ ChangesOnly [.mem] (fun _ => False) s b)
      ∧ (ready 0x022 → s.shadowWaits t = false → keyOk t k = false → Answers (.tableInsert r ecc) s r.val stInvalid 0 0 (Unchanged s))
      ∧ (ready 0x022 → keyOk t k = true → t = 0 →
          (ecc = true → ∀ i, s.epFind h fea = some i → (∀ c, c < 4 → u.ep? c i = none)
            ∧ u.rd PG_ERR_COUNT.count (fwdPage h) = min (s.rd PG_ERR_COUNT.count (fwdPage h) + 1) (2 ^ 48 - 1))
          ∧ (bit v6 63 = false → Answers (.tableInsert r ecc) s r.val stInvalid 0 0 (Unchanged u))
          ∧ (bit v6 63 = true → ∀ i x, u.epFind h fea = some i → u.ep? h i = some x → Answers (.tableInsert r ecc) s r.val stOk 0 0 fun b =>
              (∀ c, c < 4 → b.ep? c i = some { x with static := bit (e.q 1) 16, hit := false, stale := false, portValid := bit v6 59,
                                                      leaf := bits v6 32 10, lport := bits v6 16 11 })
                ∧ others u b i ∧ b.tables = { u.tables with ep := b.tables.ep } ∧ ChangesOnly [.tables] (fun _ => False) u b)
          ∧ (bit v6 63 = true → u.epFind h fea = none → ∀ i, u.epPlace h fea = some i → Answers (.tableInsert r ecc) s r.val stOk 0 0 fun b =>
              (∀ c, c < 4 → b.ep? c i = some ⟨true, fea, bit (e.q 1) 16, false, false, bit v6 59, bits v6 32 10, bits v6 16 11, u.insertCount h, 0⟩)
                ∧ others u b i ∧ stamped b ∧ b.inFoyer fea = false ∧ b.tables = { u.tables with ep := b.tables.ep, foyer := b.tables.foyer }
                ∧ ChangesOnly [.tables] stamps u b)
          ∧ (bit v6 63 = true → u.epFind h fea = none → u.epPlace h fea = none →
              Answers (.tableInsert r ecc) s r.val stTableFull 0 0 (Unchanged u)))
      ∧ (ready 0x022 → keyOk t k = true → t = 1 →
          (¬lpmOk → Answers (.tableInsert r ecc) s r.val stInvalid 0 0 (Unchanged s))
          ∧ (lpmOk → ∀ i, s.lpmSlot (lpmAddr k) (e.q 4) = some i → Answers (.tableInsert r ecc) s r.val stOk 0 0 fun b =>
              lpm b (Sparse.upd LpmEntry.blank s.tables.lpm i fun x => { x with value := v6 }) ∧ b.insertCount 0 = s.insertCount 0)
          ∧ (lpmOk → s.lpmSlot (lpmAddr k) (e.q 4) = none → s.tables.lpm.length < 16384 → Answers (.tableInsert r ecc) s r.val stOk 0 0 fun b =>
              lpm b (s.lpmInsert (lpmAddr k) (e.q 4) v6).tables.lpm ∧ stamped b
                ∧ (canon s.tables.lpm → canon b.tables.lpm ∧ b.tables.lpm.length = s.tables.lpm.length + 1
                  ∧ ∀ a n, valueOf b.tables.lpm a n = if a = lpmAddr k ∧ n = e.q 4 then some v6 else valueOf s.tables.lpm a n))
          ∧ (lpmOk → s.lpmSlot (lpmAddr k) (e.q 4) = none → 16384 ≤ s.tables.lpm.length →
              Answers (.tableInsert r ecc) s r.val stTableFull 0 0 (Unchanged s)))
      ∧ (ready 0x022 → s.shadowWaits t = true → Completes (.tableInsert r ecc) s (Unchanged s))
      ∧ (ready 0x023 → s.shadowWaits t = true → Completes (.tableDelete r) s (Unchanged s))
      ∧ (ready 0x022 → keyOk t k = true → 2 ≤ t → s.shadowWaits t = false → Answers (.tableInsert r ecc) s r.val stOk 0 0 fun b => routes b (if bit v6 63 then v6 else 0))
      ∧ (ready 0x023 → s.shadowWaits t = false → keyOk t k = false → Answers (.tableDelete r) s r.val stInvalid 0 0 (Unchanged s))
      ∧ (ready 0x023 → keyOk t k = true →
          (t = 0 → ∀ i, s.epFind h fea = some i → Answers (.tableDelete r) s r.val stOk 0 0 fun b => (∀ c, c < 4 → b.ep? c i = none) ∧ others s b i
            ∧ b.tables = { s.tables with ep := b.tables.ep } ∧ ChangesOnly [.tables] (fun _ => False) s b)
          ∧ (t = 0 → s.epFind h fea = none → Answers (.tableDelete r) s r.val stNotFound 0 0 (Unchanged s))
          ∧ (t = 1 → ∀ i, s.lpmSlot (lpmAddr k) (e.q 4) = some i → Answers (.tableDelete r) s r.val stOk 0 0 fun b => lpm b (Sparse.del s.tables.lpm i))
          ∧ (t = 1 → s.lpmSlot (lpmAddr k) (e.q 4) = none → Answers (.tableDelete r) s r.val stNotFound 0 0 (Unchanged s))
          ∧ (2 ≤ t → s.shadowWaits t = false → (s.tableSearch t 0 1 k).isSome = true → Answers (.tableDelete r) s r.val stOk 0 0 fun b => routes b 0)
          ∧ (2 ≤ t → s.shadowWaits t = false → s.tableSearch t 0 1 k = none → Answers (.tableDelete r) s r.val stNotFound 0 0 (Unchanged s)))
      ∧ (ready 0x024 → t = 0 →
          let gone := s.flushSlots d (e.q 3 % 2 ^ 64 * 2 ^ 64 + e.q 2 % 2 ^ 64)
          Answers (.flushByPort r) s r.val stOk gone.length 0 fun b => (∀ c j, c < 4 → j < 2 ^ 19 → b.ep? c j = if j ∈ gone then none else s.ep? c j)
            ∧ b.tables = { s.tables with ep := b.tables.ep } ∧ ChangesOnly [.tables] (fun _ => False) s b)
      ∧ (ready 0x024 → t ≠ 0 → Answers (.flushByPort r) s r.val stInvalid 0 0 (Unchanged s))

/-- A drain of table 2 or 3 that is not busy waits behind one of its table; else a sequence not above the active one answers COMMIT_SEQ, a
shadow bank that fails R155 answers INVALID, shown in every die's FWD_ROUTE_REFUSAL, both with the interrupt route_refused of every die,
and a conforming one starts: every die shows it active, and the command waits. Another table answers INVALID, a busy one BUSY. When the
affected queues are empty with nothing crossing the mesh to them, or at expiry, every die's active bank is the former shadow bank with the
drain's sequence; and, no other drain of the table waiting, its content is unchanged and copied to the other bank, and the command leaves
its ring. At an expiry with frames left the affected queues are emptied and GAL_DRAIN_STATUS shows it. That a table other than 2 and 3 is
INVALID is the model's choice (log entry 48). (R154, R155, R199, R200, R64) -/
def Obligations.RouteDrainsSwapTheBanks : Prop :=
  ∀ (s : State) (r : Fin 4096) (e : Descriptor) (x : Drain) (t : Nat), (t = 2 ∨ t = 3) →
    let q := bits (e.q 2) 0 32
    let front := s.atFront r.val 0x030 true e
    let tab := bits (e.q 1) 0 8
    let ready := front ∧ tab = t ∧ s.tableBusy e.owner t = false
    let free := ∀ y ∈ s.sw.drains, y.table ≠ t
    let fwd := fun k : Nat => pageOf k ∈ diePagesOf fwdPage
    let gal := fun k : Nat => pageOf k ∈ diePagesOf galPage ∧ offOf k = 0x128
    let b := 1 - s.routeBank t
    let seqOf := fun (u : State) (d : Nat) => if t = 2 then u.rd FWD_UR_SEQ.active_seq (fwdPage d) else u.rd FWD_GR_SEQ.active_seq (fwdPage d)
    let bankOf := fun (u : State) (d : Nat) => if t = 2 then u.rd FWD_UR_SEQ.active_bank (fwdPage d) else u.rd FWD_GR_SEQ.active_bank (fwdPage d)
    let alone := s.sw.drains.filter (fun y => y.table == t) = [x]
    let content := fun (u : State) (c : Nat) => (t = 2 → ∀ g k, g < 8 → k < 128 → u.upSlot c g k = s.upSlot b g k)
      ∧ (t = 3 → ∀ h, h < 64 → u.grEntry c h = s.grEntry b h)
    let swapped := fun u : State => (∀ d, d < 4 → bankOf u d = b ∧ seqOf u d = x.seq % 2 ^ 32)
      ∧ (alone → content u b ∧ content u (1 - b) ∧ x ∉ u.sw.drains
          ∧ (x.ring < 0x1000 → Left s u x.ring))
      ∧ u.mem = s.mem ∧ u.tables.ep = s.tables.ep ∧ u.tables.lpm = s.tables.lpm
    (front → tab ≠ 2 → tab ≠ 3 → Answers (.routeDrain r) s r.val stInvalid 0 0 (Unchanged s))
      ∧ (front → tab = t → s.tableBusy e.owner t = true → Answers (.routeDrain r) s r.val stBusy 0 0 (Unchanged s))
      ∧ (ready → ¬free → Waits (.routeDrain r) s r.val fun u => u.sw.drains = s.sw.drains ++ [⟨t, q, r.val, false, [], [], false, 0⟩]
          ∧ ChangesOnly [.sw] (fun _ => False) s u)
      ∧ (ready → free → q ≤ s.routeSeq t → Answers (.routeDrain r) s r.val stCommitSeq 0 0 fun u =>
          (∀ d, d < 4 → bit (u.rd PG_IRQ_RAW.block_irq (fwdPage d)) 2 = true) ∧ ChangesOnly [.mgmt] (fun k => shared k ∨ fwd k) s u)
      ∧ (ready → free → s.routeSeq t < q → ∀ why, s.routeCheck t = some why → Answers (.routeDrain r) s r.val stInvalid 0 0 fun u =>
          (∀ d, d < 4 → u.rd FWD_ROUTE_REFUSAL.table (fwdPage d) = t ∧ u.rd FWD_ROUTE_REFUSAL.index (fwdPage d) = why.index % 256
            ∧ u.rd FWD_ROUTE_REFUSAL.slot (fwdPage d) = why.slot % 256 ∧ u.rd FWD_ROUTE_REFUSAL.reason (fwdPage d) = why.reason % 256
            ∧ bit (u.rd PG_IRQ_RAW.block_irq (fwdPage d)) 2 = true) ∧ ChangesOnly [.mgmt] (fun k => shared k ∨ fwd k) s u)
      ∧ (ready → free → s.routeSeq t < q → s.routeCheck t = none → Waits (.routeDrain r) s r.val fun u =>
          (∃ ps rs, u.sw = { s.sw with drains := s.sw.drains ++ [⟨t, q, r.val, true, ps, rs, false, s.now⟩] })
            ∧ (∀ d, d < 4 → u.rd GAL_DRAIN_STATUS.active (galPage d) = 1 ∧ u.rd GAL_DRAIN_STATUS.table (galPage d) = t
              ∧ u.rd GAL_DRAIN_STATUS.discarded (galPage d) = 0 ∧ u.rd GAL_DRAIN_STATUS.expired (galPage d) = 0)
            ∧ ChangesOnly [.sw] gal s u)
      ∧ (s.drainOf t = some x → s.drained x = true → Completes (.routeDrainQueuesEmpty t) s swapped ∧ Completes (.routeDrainExpiry t) s swapped)
      ∧ (s.drainOf t = some x → s.drained x = false → Completes (.routeDrainExpiry t) s fun u => swapped u
          ∧ ((∀ w ∈ s.sw.waits, w.kind ≠ .held ∧ w.kind ≠ .ring) → ∀ k, x.hits k = true → u.queue k = [])
          ∧ (alone → ∀ d, d < 4 → u.rd GAL_DRAIN_STATUS.expired (galPage d) = 1)
          ∧ ∀ d, d < 4 → bit (u.rd PG_IRQ_RAW.block_irq (galPage d)) 0 = true)

/-- A second submission of BYPASS_ENABLE under another credential than the first, each as its fetch held it, ends its item; two ports of one
engine that the plan pairs, not draining and in no circuit with another port, queue a switching to CROSS, or wait for the engine to cool
at 85 °C; another pair answers INVALID, a draining or joined port or a full queue BUSY. BYPASS_RESET of two joined ports with some cell
not BAR queues a switching to BAR, else NOT_FOUND, or BUSY. PERIODIC_READBACK and a write of BYP_CTRL.readback show every partner and
cell, change no cell, path or count, and take out of service every port with a cell that is not BAR and that does not drain; with those
dark and DISABLED already nothing outside the engine's page and the event rings changes; with the engine unpowered, in die reset or die
standby, or readback_hours 0, they read nothing. The end of a hot wait completes its command and takes the wait away; below 85 °C the
engine's waits are queued instead. A command that waits has changed no cell. (R30, R65, R102, R104, R107, R108, R109) -/
def Obligations.BypassCommandsQueueSwitchings : Prop :=
  ∀ (s : State) (who : Fin 64) (r : Fin 4096) (e : Descriptor) (x : DualItem) (eng : Fin 16),
    let p := bits (e.q 1) 0 9
    let q := bits (e.q 1) 16 9
    let g := p / 32
    let a := p % 32
    let b := q % 32
    let second := s.atFront r.val 0x040 true e ∧ s.dualOpcode? 0x040 e.d = some x
      ∧ sameCred x.ephemeral x.cred e.cred.1 e.cred.2 = false ∧ x.digest = 0
    let pair := g = q / 32 ∧ p ≠ q ∧ s.plannedPair g a b = true
    let ready := Sparse.has s.byp.draining p = false ∧ Sparse.has s.byp.draining q = false
      ∧ (s.partnerCode g a < 32 → s.partnerCode g a = b) ∧ (s.partnerCode g b < 32 → s.partnerCode g b = a)
    let cool := s.rd OPT_ENG_STATUS.temp (engPage g) < 850
    let waiting := (s.switchQueue g).length - b2n (s.switching g)
    let spent := fun u : State => u.mgmt.dual = s.mgmt.dual.filter fun y => y.ticket != x.ticket
    let byp := fun k : Nat => pageOf k = bypPage g ∧ offOf k = 0x130
    let queued := fun (cross : Bool) (u : State) => u.switchQueue g = s.switchQueue g ++ [⟨cross, a, b, r.val⟩] ∧ u.switching g = s.switching g
      ∧ u.rd BYP_STATUS.queued (bypPage g) = (waiting + if (s.switchQueue g).length < b2n (s.switching g) then 0 else 1) % 256
      ∧ { u.byp with queue := s.byp.queue } = s.byp
    let front := fun op : Nat => s.atFront r.val op true e
    let joined := g = q / 32 ∧ p ≠ q ∧ s.path g a = some b ∧ s.path g b = some a ∧ ∃ x ∈ [(a, 0), (a, 1), (b, 0), (b, 1)], s.cell g x.1 x.2 ≠ 0
    let shown := fun (k : Nat) (u : State) => (∀ j, j < 32 → u.rd BYP_CIRCUIT_MAP.partner (bypPage k) j = s.partnerCode k j % 256)
      ∧ (∀ i, i < 64 → u.rd BYP_CELL_STATE.cell (bypPage k) i = s.cell k (i / 2) (i % 2) % 4) ∧ u.rd BYP_STATUS.readback_valid (bypPage k) = 1
      ∧ { u.byp with drift := s.byp.drift } = s.byp
    let outside := fun k l : Nat => l / 128 = k ∧ s.cellsBar (l / 4) = false ∧ Sparse.has s.byp.draining (l / 4) = false
    let framed := fun (k : Nat) (u : State) => (∀ l, outside k l → u.isUp l = false)
      ∧ ((∀ l, outside k l → (s.sub l).tx = .dark ∧ s.linkState l = psDisabled) → ChangesOnly [.byp, .mgmt] (onPages [bypPage k]) s u)
      ∧ ∀ y, y ∉ [Piece.byp, .mgmt, .subs, .sw, .rel] → y.same s u
    (second → pair → ready → cool → waiting < 16 → Waits (.bypassEnable r) s r.val fun u => queued true u ∧ spent u ∧ u.mem = s.mem)
      ∧ (second → pair → ready → cool → 16 ≤ waiting → Answers (.bypassEnable r) s r.val stBusy 0 0 fun u => u.byp = s.byp ∧ spent u ∧ u.mem = s.mem)
      ∧ (second → pair → ready → ¬cool → Waits (.bypassEnable r) s r.val fun u =>
          u.byp = { s.byp with hot := s.byp.hot ++ [⟨g, a, b, r.val⟩] } ∧ spent u ∧ u.mem = s.mem)
      ∧ (second → pair → ¬ready → Answers (.bypassEnable r) s r.val stBusy 0 0 fun u => u.byp = s.byp ∧ spent u)
      ∧ (second → ¬pair → Answers (.bypassEnable r) s r.val stInvalid 0 0 fun u => u.byp = s.byp ∧ spent u)
      ∧ (front 0x041 → joined → waiting < 16 → Waits (.bypassReset r) s r.val fun u => queued false u ∧ ChangesOnly [.byp] byp s u)
      ∧ (front 0x041 → joined → 16 ≤ waiting → Answers (.bypassReset r) s r.val stBusy 0 0 (Unchanged s))
      ∧ (front 0x041 → ¬joined → Answers (.bypassReset r) s r.val stNotFound 0 0 (Unchanged s))
      ∧ (s.rd BYP_CTRL.readback_hours (bypPage eng.val) ≠ 0 → s.bypAlive eng.val = true → Completes (.periodicReadback eng) s fun u =>
          shown eng.val u ∧ framed eng.val u)
      ∧ (s.rd BYP_CTRL.readback_hours (bypPage eng.val) = 0 ∨ s.bypAlive eng.val = false → Completes (.periodicReadback eng) s (Unchanged s))
      ∧ (s.writes who.val (bypPage eng.val) 0x150 → Completes (.bypReadbackWrite who eng) s fun u =>
          (s.bypAlive eng.val = true → shown eng.val u ∧ framed eng.val u)
            ∧ (s.bypAlive eng.val = false → u.byp = s.byp ∧ ChangesOnly [.byp, .mgmt] (onPages [bypPage eng.val]) s u))
      ∧ (850 ≤ s.rd OPT_ENG_STATUS.temp (engPage eng.val) → ∀ w, (s.byp.hot.find? fun y => y.engine == eng.val) = some w →
          Completes (.bypassTemperatureWaitExpiry eng) s fun u => u.byp = { s.byp with hot := s.byp.hot.erase w }
            ∧ Left s u w.ring ∧ ChangesOnly [.byp, .mgmt] (fun k => shared k ∨ pageOf k = ringPage w.ring) s u)
      ∧ (850 ≤ s.rd OPT_ENG_STATUS.temp (engPage eng.val) → (∀ y ∈ s.byp.hot, y.engine ≠ eng.val) →
          Completes (.bypassTemperatureWaitExpiry eng) s (Unchanged s))
      ∧ (s.rd OPT_ENG_STATUS.temp (engPage eng.val) < 850 → Completes (.bypassTemperatureWaitExpiry eng) s fun u =>
          u.byp.hot = s.byp.hot.filter (fun y => y.engine != eng.val) ∧ u.byp.cells = s.byp.cells ∧ u.byp.paths = s.byp.paths
            ∧ (s.switchQueue eng.val).length ≤ (u.switchQueue eng.val).length ∧ u.mem = s.mem)

/-- BYPASS_READ at the front of a ring, read without error, permitted, with a control core running: a fresh readback of the engine in D1[3:0]
shows every partner and cell in the engine's page, with T0 as its time, and, with every port that has a cell not BAR and does not drain
dark and DISABLED already, no other register but counters and the event rings' own changes (else those ports leave service); the 32 bytes
at staging offset D2 hold, for each engine-local port, 0xFE where a cell of it is UNCERTAIN, else its partner in its circuit, else 0xFF.
No other byte of memory, no cell, no path and no count changes, and the command completes OK. An offset that runs past the staging window
completes PERMISSION and nothing is written (R63). (R106) -/
def Obligations.BypassReadGivesThePartners : Prop :=
  ∀ (s : State) (r : Fin 4096) (e : Descriptor), s.atFront r.val 0x042 true e → Memory.wf s.mem = true →
    let k := bits (e.q 1) 0 4
    let at_ := stagingBase e.owner + e.q 2
    let outside := fun l : Nat => l / 128 = k ∧ s.cellsBar (l / 4) = false ∧ Sparse.has s.byp.draining (l / 4) = false
    let uncertain := fun j : Nat => s.cell k j 0 = 2 ∨ s.cell k j 1 = 2
    let joined := fun i j : Nat => (∀ x ∈ [(i, 0), (i, 1), (j, 0), (j, 1)], s.cell k x.1 x.2 = 1) ∧ s.path k i = some j ∧ s.path k j = some i
    (stagingOk (e.q 2) 32 = true → Answers (.bypassRead r) s r.val stOk 0 0 fun u =>
        (∀ j, j < 32 →
          let b := (Memory.read u.mem (at_ + j)).toNat
          (uncertain j → b = 0xFE) ∧ (¬uncertain j → ∀ i, i < 32 → joined j i → b = i) ∧ (¬uncertain j → (∀ i, ¬joined j i) → b = 0xFF)
            ∧ u.rd BYP_CIRCUIT_MAP.partner (bypPage k) j = s.partnerCode k j % 256)
        ∧ (∀ b, (b < at_ ∨ at_ + 32 ≤ b) → Memory.read u.mem b = Memory.read s.mem b) ∧ Memory.wf u.mem = true
        ∧ (∀ i, i < 64 → u.rd BYP_CELL_STATE.cell (bypPage k) i = s.cell k (i / 2) (i % 2) % 4) ∧ u.rd BYP_STATUS.readback_valid (bypPage k) = 1
        ∧ u.rd BYP_LAST_READBACK.seconds (bypPage k) = secOf s.time.t0 % 2 ^ 34 ∧ u.rd BYP_LAST_READBACK.nanoseconds (bypPage k) = nsOf s.time.t0
        ∧ { u.byp with drift := s.byp.drift } = s.byp ∧ (∀ l, outside l → u.isUp l = false)
        ∧ ((∀ l, outside l → (s.sub l).tx = .dark ∧ s.linkState l = psDisabled) → ChangesOnly [.mem, .byp, .mgmt] (onPages [bypPage k]) s u)
        ∧ ∀ y, y ∉ [Piece.mem, .byp, .mgmt, .subs, .sw, .rel] → y.same s u)
      ∧ (stagingOk (e.q 2) 32 = false → Answers (.bypassRead r) s r.val stPermission 0 0 (Unchanged s))

/-- With VIN48 at 42.0 V or above, the engine powered and neither port of it draining, the oldest waiting switching starts and no other is in
progress; else none starts. When it is done its four cells hold CROSS or BAR, or UNCERTAIN where they read so, each has switched once
more, the two ports are joined, or parted once all four are BAR, its command leaves its ring, and the next may start; every other cell and
count stays, ports with a cell not BAR that do not drain leave service, and the circuit record is to be saved where a control core runs.
At the end of a drain into bypass no frame is left in the port's queues and none of its sub-ports is UP; the port keeps its former record,
and the drain ends once none sends local fault, with every sub-port of a port the plan makes BYPASS dark and DISABLED. Device memory
stays. (R96, R101, R103, R104, R107, R109) -/
def Obligations.SwitchingsSetFourCells : Prop :=
  ∀ (s : State) (eng : Fin 16) (bad : BitVec 4) (p : Fin 512) (x : Switching) (rest : List Switching),
    let g := eng.val
    let cells := switchCells x
    let joins := x.cross = true ∨ bad ≠ 0
    let outside := fun l : Nat => l / 128 = g ∧ Sparse.has s.byp.draining (l / 4) = false
      ∧ (s.cellsBar (l / 4) = false ∨ l / 4 % 32 = x.a ∨ l / 4 % 32 = x.b)
    (s.switching g = false → s.switchQueue g ≠ [] → s.switchDrains g = false → 420 ≤ s.rd PWR_PKG_STATUS.vin pwrPkgPage → s.bypAlive g = true →
        Completes (.switchingStart eng) s fun t => t.switching g = true ∧ t.switchQueue g = s.switchQueue g
          ∧ t.rd BYP_STATUS.queued (bypPage g) = ((s.switchQueue g).length - 1) % 256 ∧ { t.byp with queue := s.byp.queue } = s.byp
          ∧ ChangesOnly [.byp] (fun k => pageOf k = bypPage g ∧ offOf k = 0x130) s t)
      ∧ (s.switching g = true → s.switchQueue g = x :: rest → x.a < 32 → x.b < 32 → x.a ≠ x.b → Completes (.switchingDone eng bad) s fun t =>
          (∀ k, k < 4 → Sparse.get 0 t.byp.cells (64 * g + cells.getD k 0) = if bit bad.toNat k then 2 else b2n x.cross)
            ∧ (∀ c ∈ cells, t.cellCount (64 * g + c) = s.cellCount (64 * g + c) + 1)
            ∧ (∀ i, (∀ c ∈ cells, i ≠ 64 * g + c) → Sparse.get 0 t.byp.cells i = Sparse.get 0 s.byp.cells i ∧ t.cellCount i = s.cellCount i)
            ∧ t.path g x.a = (if joins then some x.b else none) ∧ t.path g x.b = (if joins then some x.a else none)
            ∧ t.switchQueue g = rest ∧ t.switching g = false ∧ Left s t x.ring
            ∧ bit (t.rd PG_IRQ_RAW.block_irq (bypPage g)) (if bad = 0 then 0 else 1) = true
            ∧ (s.boot.cores ≠ 0 → t.boot.saveDue = true)
            ∧ ((∀ l, outside l → (s.sub l).tx = .dark ∧ s.linkState l = psDisabled) →
                ChangesOnly [.byp, .boot, .subs, .mgmt] (onPages [bypPage g, ringPage x.ring, portPage (32 * g + x.a), portPage (32 * g + x.b)]) s t)
            ∧ (joins → ∀ l, outside l → (l / 4 % 32 = x.a ∧ (x.cross = true ∨ bit bad.toNat 0 = true ∨ bit bad.toNat 1 = true)
                ∨ l / 4 % 32 = x.b ∧ (x.cross = true ∨ bit bad.toNat 2 = true ∨ bit bad.toNat 3 = true)) → t.isUp l = false)
            ∧ ∀ y, y ∉ [Piece.byp, .boot, .subs, .mgmt, .sw, .rel] → y.same s t)
      ∧ (s.switching g = true ∨ s.switchQueue g = [] ∨ s.switchDrains g = true ∨ s.rd PWR_PKG_STATUS.vin pwrPkgPage < 420 ∨ s.bypAlive g = false →
          Completes (.switchingStart eng) s (Unchanged s))
      ∧ (s.switching g = false ∨ s.switchQueue g = [] → Completes (.switchingDone eng bad) s (Unchanged s))
      ∧ (∀ old : PortRec, Sparse.get ⟨old, true⟩ s.byp.draining p.val = ⟨old, false⟩ → Completes (.bypassDrainExpiry p) s fun t =>
          (∀ k, k / 66 / 8 / 4 = p.val → t.queue k = []) ∧ (∀ l, l / 4 = p.val → t.isUp l = false)
            ∧ (let dark := ∀ l, l / 4 = p.val → t.linkState l ≠ psFaultTx
               (dark → Sparse.has t.byp.draining p.val = false
                  ∧ ((s.planRec p.val).role = roleBypass → ∀ l, l / 4 = p.val → (t.sub l).tx = .dark ∧ t.linkState l = psDisabled))
               ∧ (¬dark → Sparse.get ⟨old, false⟩ t.byp.draining p.val = ⟨old, true⟩))
            ∧ { t.byp with draining := s.byp.draining } = s.byp ∧ (s.flag PWR_PKG_CTRL.standby_req pwrPkgPage = false → t.modules = s.modules)
            ∧ ∀ y, y ∉ [Piece.byp, .subs, .rel, .mgmt, .sw, .modules] → y.same s t)
      ∧ ((∀ y ∈ s.byp.draining, y.1 = p.val → y.2.closing = true) → Completes (.bypassDrainExpiry p) s (Unchanged s))

/-- A NOP leaves its ring; unless its descriptor is quiet, its 32-byte completion with status OK, its index and phase goes to the ring's
completion queue, and after every notify_every completions a SEND follows; without a queue pair ready for the owner it is discarded and
counted in the ring's page, and the ring stops with QP_NOT_READY; so is that of a command fetched before such a stop (the counter is the
model's choice, log entry 54). A command outside its session's rights answers PERMISSION and changes nothing. One with a span outside its
staging window answers PERMISSION. One whose staged data reads uncorrectable answers HW_ERROR and changes only error registers and
records; read with a corrected error it is performed as without, after the record of the error. BANK_COMMIT is judged by the rights and
the credential that its fetch held. BANK_COMMIT answers as a write of PG_COMMIT does: it waits for the swap, or answers OK without banks,
INVALID without a page, PERMISSION, COMMIT_SEQ, DUAL_PENDING with its ticket, or BUSY. The order of the checks of BANK_COMMIT is the
model's choice (log entry 17). (R61, R62, R63, R64, R66, R363, R57, R58) -/
def Obligations.RingCommandsCompleteOnce : Prop :=
  ∀ (s : State) (r : Fin 4096) (e : Descriptor) (ecc good : Bool) (find : ReadFind) (o sym : Nat),
    let a := ringBlock r.val
    let x := s.ring r.val
    let i := x.cplIndex
    let m := s.rd CTL_RING_CQ_CFG.qp a / 64
    let q := s.rd CTL_RING_CQ_CFG.qp a % 64
    let k := s.rd CTL_RING_CQ_CFG.notify_every a
    let usable := s.qpUsable (s.rd CTL_RING_CQ_CFG.qp a) (s.rd CTL_RING_CFG.owner a) = true
    let quiet := bit (e.q 0) 50 = true
    let words := completionWords (e.q 0) 0x000 stOk 0 0 e.index r.val (phaseOf i (s.cqSize r.val))
    let slot := (s.rd CTL_RING_CQ_ADDR.address a + i % s.cqSize r.val * 32) % 2 ^ 64
    let may := s.mayWriteAs e.roles e.owner (e.q 1) PG_COMMIT.commit_seq.off = true
    let page := isPage (e.q 1) = true
    let y := s.cleared.commit (e.q 1) e.owner r.val (bits (e.q 2) 0 32) e.cred
    let due := if k ≠ 0 ∧ (i + 1) % k = 0 then 2 else 1
    let discarded := fun t : State => t.out = [] ∧ (t.ring r.val).cplIndex = (i + 1) % 2 ^ 32
      ∧ t.rd PG_ERR_COUNT.count (ringPage r.val) = min (s.rd PG_ERR_COUNT.count (ringPage r.val) + due) (2 ^ 48 - 1)
    let spans := fun op : Nat => if op = 0x050 then [(e.q 2, 64), (e.q 3, bits (e.q 4) 0 32)] else if op = 0x052 then [(e.q 2, 4 * bits (e.q 3) 0 10)]
      else if op = 0x060 then [(e.q 1, bits (e.q 2) 0 32)] else if op = 0x072 then [(e.q 2, bits (e.q 3) 0 16)]
      else [(e.q 1, 8 * bits (e.q 2) 0 16), (e.q 3, 256 * (bits (e.q 2) 0 16 + 1))]
    let within := fun op : Nat => ∀ x ∈ spans op, stagingOk x.1 x.2 = true
    let staged := fun b : ReadFind => [(Instr.groupWrite r b, 0x050), (.flightLoad r b, 0x052), (.planLoad r b, 0x060), (.keyEnrol r b, 0x072),
      (.counterSnapshot r b, 0x080)]
    let first := fun op : Nat => ((spans op).headD (0, 0)).1
    let spanned := fun op : Nat => ((spans op).headD (0, 0)).2
    let recorded := fun (op : Nat) (z : State) => z.lpRead (stagingBase e.owner + first op) (spanned op) (.corrected o sym)
    let acts := [(Instr.groupWrite r, opGroupWrite r.val, 0x050), (.flightLoad r, opFlightLoad r.val, 0x052), (.planLoad r, opPlanLoad r.val, 0x060),
      (.keyEnrol r, opKeyEnrol r.val, 0x072), (.counterSnapshot r, opCounterSnapshot r.val, 0x080)]
    let denied := fun (c : Instr) (op : Nat) (fw : Bool) => x.inflight.head? = some e → e.bad = false → e.opcode = op → x.waiting = false →
      e.allowed = false → (fw = true → s.boot.cores ≠ 0) → Answers c s r.val stPermission 0 0 (Unchanged s)
    (s.atFront r.val 0x000 true e → x.inflight = [e] → Completes (.nop r) s fun t => (t.ring r.val).inflight = []
        ∧ (quiet → t.out = [] ∧ (t.ring r.val).cplIndex = i)
        ∧ (¬quiet → e.mute = true → discarded t)
        ∧ (¬quiet → e.mute = false → usable → (t.ring r.val).cplIndex = (i + 1) % 2 ^ 32
          ∧ t.out = Output.rdmaWrite m q (s.rd CTL_RING_CQ_CFG.rkey a) slot (quadBytes words)
              :: (if k ≠ 0 ∧ (i + 1) % k = 0 then [Output.send m q (natLe 8 (r.val * 2 ^ 32 + i))] else []))
        ∧ (¬quiet → e.mute = false → ¬usable → s.rd CTL_RING_STATE.state a = 2 → discarded t)
        ∧ (¬quiet → e.mute = false → ¬usable → s.rd CTL_RING_STATE.state a ≠ 2 → t.rd CTL_RING_STATE.state a = 2 ∧ t.rd CTL_RING_STATE.stop_reason a = 4
          ∧ (t.ring r.val).cplIndex = (i + 1) % 2 ^ 32
          ∧ t.rd PG_ERR_COUNT.count (ringPage r.val) = min (s.rd PG_ERR_COUNT.count (ringPage r.val) + due) (2 ^ 48 - 1))
        ∧ ChangesOnly [.mgmt] (onPages [ringPage r.val]) s t)
      ∧ (s.atFront r.val 0x000 true e → Answers (.nop r) s r.val stOk 0 0 (Unchanged s))
      ∧ (denied (.nop r) 0x000 true ∧ denied (.tableSearch r) 0x020 false ∧ denied (.tableNext r) 0x021 false
        ∧ denied (.tableInsert r ecc) 0x022 false ∧ denied (.tableDelete r) 0x023 false ∧ denied (.flushByPort r) 0x024 false
        ∧ denied (.routeDrain r) 0x030 true ∧ denied (.portAccept r) 0x031 true ∧ denied (.bypassEnable r) 0x040 true
        ∧ denied (.bypassReset r) 0x041 true ∧ denied (.bypassRead r) 0x042 true ∧ denied (.groupWrite r find) 0x050 true
        ∧ denied (.groupDisable r) 0x051 true ∧ denied (.flightLoad r find) 0x052 true ∧ denied (.triggerArm r) 0x053 true
        ∧ denied (.quotaSet r) 0x054 true ∧ denied (.planLoad r find) 0x060 true ∧ denied (.configSave r good) 0x061 true
        ∧ denied (.powerCapSet r) 0x070 true ∧ denied (.powerCapAboveDefault r) 0x071 true ∧ denied (.keyEnrol r find) 0x072 true
        ∧ denied (.protectTableCommit r) 0x073 true ∧ denied (.counterSnapshot r find) 0x080 true)
      ∧ (∀ p ∈ staged find, s.atFront r.val p.2 true e → ¬within p.2 → Answers p.1 s r.val stPermission 0 0 (Unchanged s))
      ∧ (∀ p ∈ staged (.bad o), s.atFront r.val p.2 true e → within p.2 → e.owner < 256 →
          Answers p.1 s r.val stHwError 0 0 fun u => (∀ z, z ∉ [Piece.mgmt, .rel] → z.same s u)
            ∧ u.errIndex 0 = (if bit s.boot.lpUnused 0 then s.errIndex 0 else (s.errIndex 0 + 1) % 2 ^ 62))
      ∧ (∀ p ∈ acts, s.atFront r.val p.2.2 true e → within p.2.2 →
          exec (p.1 (.corrected o sym)) s = .next (s.run fun z => p.2.1 .ok (recorded p.2.2 z)))
      ∧ (s.atFront r.val 0x010 true e →
          (¬page → Answers (.bankCommit r) s r.val stInvalid 0 0 (Unchanged s))
          ∧ (page → ¬may → Answers (.bankCommit r) s r.val stPermission 0 0 (Unchanged s))
          ∧ (page → may → e.q 1 ≠ pwrPkgPage → Answers (.bankCommit r) s r.val stOk 0 0 (Unchanged s))
          ∧ (page → may → y.1 = .accepted → Waits (.bankCommit r) s r.val fun u => u.flag PG_STATUS.commit_busy (e.q 1) = true
              ∧ u.commitSeq = bits (e.q 2) 0 32 ∧ u.mem = s.mem)
          ∧ (page → may → y.1 = .denied → Answers (.bankCommit r) s r.val stPermission 0 0 fun u => u = y.2)
          ∧ (page → may → y.1 = .refused → Answers (.bankCommit r) s r.val stCommitSeq 0 0 fun u => u = y.2)
          ∧ (∀ t, page → may → y.1 = .pending t → Answers (.bankCommit r) s r.val stDualPending t 0 fun u => u = y.2)
          ∧ (page → may → y.1 = .full → Answers (.bankCommit r) s r.val stBusy 0 0 fun u => u = y.2))

/-- The first submission of BYPASS_ENABLE, POWER_CAP_ABOVE_DEFAULT, KEY_ENROL or PROTECT_TABLE_COMMIT answers DUAL_PENDING with the next
ticket and changes nothing but the pending items; with 16 pending it answers BUSY; a repeat under the same credential answers its ticket
again and is counted. The second sets a cap of 3,001 to 3,400 W; enrols or erases a key slot, saves the security region with it, extends
M2, ends the sessions of an erased credential, and then the owner state and the MACsec policies follow slot 0; or makes the shadow of a
protected table active with a higher sequence. Another cap, an invalid record or table answers INVALID, a sequence not higher COMMIT_SEQ,
no identity key HW_ERROR, a record whose digest differs INVALID. When operands are checked, what a repeat counts and what M2 is extended
with are the model's choices (log entries 18 and 37). (R58, R64, R65, R420, R423, R425, R426, R428, R430) -/
def Obligations.DualControlledOpcodes : Prop :=
  ∀ (s : State) (r : Fin 4096) (e : Descriptor) (x : DualItem),
    let n := e.owner
    let len := bits (e.q 3) 0 16
    let rec_ := s.staged n (e.q 2) len
    let w := bits (e.q 1) 0 16
    let k := bits (e.q 1) 0 8
    let q := bits (e.q 2) 0 32
    let digest := fun op : Nat => if op = 0x072 then sm3 rec_ else 0
    let sane := fun op : Nat => (op = 0x071 → 3001 ≤ w ∧ w ≤ 3400) ∧ (op = 0x072 → stagingOk (e.q 2) len = true)
    let ready := fun op : Nat => s.atFront r.val op true e ∧ sane op
    let same := sameCred x.ephemeral x.cred e.cred.1 e.cred.2
    let known := fun op : Nat => s.dualOpcode? op e.d = some x
    let second := fun op : Nat => ready op ∧ known op ∧ same = false ∧ x.digest = digest op
    let spent := fun u : State => u.mgmt.dual = s.mgmt.dual.filter fun y => y.ticket != x.ticket
    let id := s.flag SEC_STATE.identity_ok secPage = true
    let enrols := fun (st : Nat) (P : State → Prop) => ∃ v, P v ∧
      exec (.keyEnrol r .ok) s = .next (s.run fun _ => (v.complete r.val st 0 0).ownerChange.settled r.val)
    let kept := fun u : State => u.sec = s.sec ∧ spent u ∧ u.mem = s.mem
    let cur := fun t : Nat => if t = 0 then s.rd SEC_PT_SEQ.table0_seq secPage else s.rd SEC_PT_SEQ.table1_seq secPage
    let saved := fun u : State => id → ∃ c, u.sec.copy? = some c ∧ c.keys = u.sec.keys ∧ c.table0 = u.sec.active0 ∧ c.table1 = u.sec.active1
    (∀ p ∈ [(Instr.bypassEnable r, 0x040), (.powerCapAboveDefault r, 0x071), (.protectTableCommit r, 0x073)], ready p.2 →
        (s.dualOpcode? p.2 e.d = none → s.mgmt.dual.length < 16 → Answers p.1 s r.val stDualPending (s.mgmt.lastTicket + 1) 0 fun u =>
            u.mgmt.dual = s.mgmt.dual ++ [⟨s.mgmt.lastTicket + 1, 0, 0, p.2, e.d.drop 1, 0, n, e.cred.1, e.cred.2, r.val⟩]
              ∧ u.mgmt.lastTicket = s.mgmt.lastTicket + 1
              ∧ ChangesOnly [.mgmt] (fun z => pageOf z = secPage ∧ offOf z = 0x1B8) s u)
          ∧ (s.dualOpcode? p.2 e.d = none → 16 ≤ s.mgmt.dual.length → Answers p.1 s r.val stBusy 0 0 (Unchanged s))
          ∧ (known p.2 → same = true → Answers p.1 s r.val stDualPending x.ticket 0 fun u =>
              u.rd PG_ERR_COUNT.count (ringPage r.val) = min (s.rd PG_ERR_COUNT.count (ringPage r.val) + 1) (2 ^ 48 - 1)
                ∧ ChangesOnly [] (fun z => z = PG_ERR_COUNT.count.key (ringPage r.val) 0) s u))
      ∧ (s.atFront r.val 0x071 true e → ¬sane 0x071 → Answers (.powerCapAboveDefault r) s r.val stInvalid 0 0 (Unchanged s))
      ∧ (second 0x071 → Answers (.powerCapAboveDefault r) s r.val stOk 0 0 fun u => u.rd PWR_CAP.cap_w pwrPkgPage = w ∧ kept u)
      ∧ (s.atFront r.val 0x072 true e → ¬sane 0x072 → Answers (.keyEnrol r .ok) s r.val stPermission 0 0 (Unchanged s))
      ∧ (ready 0x072 → s.dualOpcode? 0x072 e.d = none → s.mgmt.dual.length < 16 →
          Answers (.keyEnrol r .ok) s r.val stDualPending (s.mgmt.lastTicket + 1) 0 fun u => u.mgmt.dual = s.mgmt.dual
            ++ [⟨s.mgmt.lastTicket + 1, 0, 0, 0x072, e.d.drop 1, sm3 rec_, n, e.cred.1, e.cred.2, r.val⟩] ∧ u.sec = s.sec)
      ∧ (ready 0x072 → s.dualOpcode? 0x072 e.d = none → 16 ≤ s.mgmt.dual.length → Answers (.keyEnrol r .ok) s r.val stBusy 0 0 (Unchanged s))
      ∧ (ready 0x072 → known 0x072 → same = true → Answers (.keyEnrol r .ok) s r.val stDualPending x.ticket 0 fun u => u.sec = s.sec)
      ∧ (ready 0x072 → known 0x072 → same = false → x.digest ≠ sm3 rec_ → Answers (.keyEnrol r .ok) s r.val stInvalid 0 0 (Unchanged s))
      ∧ (second 0x072 → (len ≠ 128 ∨ keyRecord k rec_ = none) → enrols stInvalid kept)
      ∧ (second 0x072 → len = 128 → ∀ v, keyRecord k rec_ = some v →
          let lone := k = 0 ∧ v ≠ 0 ∧ s.owned = false ∧ s.twoAdmins = false
          (lone → enrols stInvalid kept) ∧ (¬lone → ¬id → enrols stHwError kept)
            ∧ (¬lone → id → enrols stOk fun u => Sparse.get 0 u.sec.keys k = v ∧ (∀ j, j ≠ k → Sparse.get 0 u.sec.keys j = Sparse.get 0 s.sec.keys j)
              ∧ u.sec.active0 = s.sec.active0 ∧ u.sec.active1 = s.sec.active1 ∧ saved u ∧ spent u ∧ u.mem = s.mem
              ∧ (∀ j, j ≠ 2 → Sparse.get 0 u.sec.meas j = Sparse.get 0 s.sec.meas j)
              ∧ (∀ j, j < 16 → (bit (u.rd SEC_STATE.enrolled secPage) j = true ↔ Sparse.get 0 u.sec.keys j ≠ 0))
              ∧ (v = 0 → k ≠ 0 → ∀ i, i < 64 → (s.session i).active = true → (s.session i).ephemeral = false → (s.session i).slot = k →
                  (u.session i).active = false)))
      ∧ (second 0x072 → Completes (.keyEnrol r .ok) s fun t => t.flag SEC_STATE.owner_state secPage = t.owned
          ∧ (s.flag SEC_STATE.owner_state secPage ≠ t.owned → ∀ m, m < 4 → t.rd MGT_MACSEC_CFG.policy (mgtPage m) = b2n t.owned))
      ∧ (second 0x073 →
          (2 ≤ k → Answers (.protectTableCommit r) s r.val stInvalid 0 0 kept)
          ∧ (k < 2 → q ≤ cur k → Answers (.protectTableCommit r) s r.val stCommitSeq 0 0 kept)
          ∧ (k < 2 → cur k < q → Answers (.protectTableCommit r) s r.val stOk 0 0 fun u =>
              u.sec.active0 = (if k = 0 then s.sec.shadow0 else s.sec.active0) ∧ u.sec.active1 = (if k = 0 then s.sec.active1 else s.sec.shadow1)
                ∧ (if k = 0 then u.rd SEC_PT_SEQ.table0_seq secPage = q else u.rd SEC_PT_SEQ.table1_seq secPage = q)
                ∧ u.sec.keys = s.sec.keys ∧ saved u ∧ spent u ∧ u.mem = s.mem))

/-- A group write outside the staging window answers PERMISSION, without a plan BUSY, against R265 INVALID, with a landing of the group or a
die reloading BUSY, without room for its lists or residual areas QUOTA; else the entry becomes the staged one, with the session as owner,
its areas fresh. A disable sets member_count to 0, for the group's job alone. A load into a slot no landing is bound to takes the staged
instructions of an image that R313 accepts, for the job, and extends M5. An arm replaces the trigger, for its job's group, and threshold 0
fires it at once. A quota replaces the job's. The replication map of a die takes the selected set, or gives it. Every other group, slot,
trigger, quota and set stays; so does device memory. (R263, R265, R266, R267, R271, R285, R286, R291, R312, R313, R344, R424) -/
def Obligations.GroupsFlightsTriggersAndQuotas : Prop :=
  ∀ (s : State) (who : Fin 64) (r : Fin 4096) (e : Descriptor) (die : Fin 4) (set : Fin 16384),
    let n := e.owner
    let job := e.job
    let g := bits (e.q 1) 0 16
    let front := fun op : Nat => s.atFront r.val op true e
    let glen := bits (e.q 4) 0 32
    let x := s.stagedGroup n (e.q 2) (e.q 3) glen r.val
    let gw := fun st : Nat => Answers (.groupWrite r .ok) s r.val st 0 0
    let lists := s.coll.groups.foldl (fun a y => if y.1 = g then a else a + listBytes y.2.members.length) 0
    let listsFit := lists + listBytes x.members.length ≤ 1073741824
    let areasFit := ∀ i, i < 4 → (s.placeAreas g x i).isSome = true
    let staged := stagingOk (e.q 2) 64 = true ∧ stagingOk (e.q 3) glen = true
    let grpIrq := fun k : Nat => ∃ i, i < 4 ∧ isIrq (grpPage i) k
    let c := bits (e.q 1) 0 5
    let i := bits (e.q 1) 8 6
    let flen := bits (e.q 3) 0 10
    let image := s.staged n (e.q 2) (4 * flen)
    let words := (List.range flen).map fun k => leAt image (4 * k) 4
    let fl := fun st : Nat => Answers (.flightLoad r .ok) s r.val st 0 0
    let slot := fun (u : State) (j : Nat) => (u.core c).slots.find? fun y => y.1 == j
    let foreign := (bits (e.q 2) 60 4 = 1 ∨ bits (e.q 2) 60 4 = 2) ∧ (s.group (bits (e.q 2) 32 16)).job ≠ job
    let armed : Trigger := ⟨1, bit (e.q 1) 16, e.q 2, e.q 3, e.q 4, 0⟩
    let page := grpPage die.val
    let repl := fun (u : State) (d k : Nat) => Sparse.get 0 u.coll.repl (d * 16384 + k)
    (front 0x050 →
        (¬staged → gw stPermission (Unchanged s)) ∧ (staged → s.boot.plan = none → gw stBusy (Unchanged s))
        ∧ (∀ pl, staged → s.boot.plan = some pl →
          (x.valid pl job glen = false → gw stInvalid (Unchanged s))
          ∧ (x.valid pl job glen = true → (s.groupBusy g = true ∨ s.dieReloading = true) → gw stBusy (Unchanged s))
          ∧ (x.valid pl job glen = true → s.groupBusy g = false → s.dieReloading = false →
            (¬listsFit → gw stQuota (Unchanged s))
            ∧ (listsFit → ¬areasFit → gw stQuota fun u => (∀ k, k < 4 → s.placeAreas g x k = none → bit (u.rd PG_IRQ_RAW.block_irq (galPage k)) 5 = true)
                ∧ ChangesOnly [.mgmt] (fun z => shared z ∨ ∃ k, k < 4 ∧ isIrq (galPage k) z) s u)
            ∧ (listsFit → areasFit → gw stOk fun u => { u.group g with areas := x.areas } = x
                ∧ (∀ k, k < 4 → (u.group g).areas.getD k 0 = (s.placeAreas g x k).getD 0) ∧ (∀ j, j ≠ g → u.group j = s.group j)
                ∧ u.coll = { s.coll with groups := u.coll.groups, areas := s.coll.areas.filter fun y => y.1 / 2 ^ 32 != g }
                ∧ (∀ k, k < 4 → bit (u.rd PG_IRQ_RAW.block_irq (grpPage k)) 0 = true)
                ∧ ChangesOnly [.coll, .mgmt] (fun z => shared z ∨ grpIrq z) s u))))
      ∧ (front 0x051 →
          ((s.group g).memberCount = 0 → Answers (.groupDisable r) s r.val stOk 0 0 (Unchanged s))
          ∧ ((s.group g).memberCount ≠ 0 → (s.group g).job ≠ job → Answers (.groupDisable r) s r.val stPermission 0 0 (Unchanged s))
          ∧ ((s.group g).memberCount ≠ 0 → (s.group g).job = job → Answers (.groupDisable r) s r.val stOk 0 0 fun u =>
              (u.group g).memberCount = 0 ∧ (u.group g).job = job ∧ { u.group g with q := (s.group g).q } = s.group g
                ∧ (∀ j, j ≠ g → u.group j = s.group j) ∧ u.coll = { s.coll with groups := u.coll.groups }
                ∧ (∀ k, k < 4 → bit (u.rd PG_IRQ_RAW.block_irq (grpPage k)) 1 = true)
                ∧ ChangesOnly [.coll, .mgmt] (fun z => shared z ∨ grpIrq z) s u))
      ∧ (front 0x052 →
          (stagingOk (e.q 2) (4 * flen) = false → fl stPermission (Unchanged s))
          ∧ (stagingOk (e.q 2) (4 * flen) = true → s.slotBound c i = true → fl stBusy (Unchanged s))
          ∧ (stagingOk (e.q 2) (4 * flen) = true → s.slotBound c i = false → (flen = 0 ∨ 512 < flen ∨ imageOk words = false) → fl stInvalid (Unchanged s))
          ∧ (stagingOk (e.q 2) (4 * flen) = true → s.slotBound c i = false → 0 < flen → flen ≤ 512 → imageOk words = true → fl stOk fun u =>
              slot u i = some (i, ⟨words, job, crc32c image⟩) ∧ (∀ j, j ≠ i → slot u j = slot s j)
                ∧ { u.core c with slots := (s.core c).slots } = s.core c ∧ (∀ y, y ≠ c → u.core y = s.core y)
                ∧ (∀ m, m ≠ 5 → Sparse.get 0 u.sec.meas m = Sparse.get 0 s.sec.meas m)
                ∧ { u.sec with meas := s.sec.meas } = { s.sec with m5Count := s.sec.m5Count + 1 }
                ∧ bit (u.rd PG_IRQ_RAW.block_irq (cmbPage c)) 1 = true
                ∧ ChangesOnly [.cores, .sec, .mgmt] (fun z => shared z ∨ isIrq (cmbPage c) z) s u))
      ∧ (front 0x053 →
          (foreign → Answers (.triggerArm r) s r.val stPermission 0 0 (Unchanged s))
          ∧ (¬foreign → bits (e.q 2) 0 32 ≠ 0 → Answers (.triggerArm r) s r.val stOk 0 0 fun u => u.trigger g = armed
              ∧ (∀ j, j ≠ g → u.trigger j = s.trigger j) ∧ u.coll = { s.coll with triggers := u.coll.triggers } ∧ ChangesOnly [.coll] (fun _ => False) s u)
          ∧ (¬foreign → bits (e.q 2) 0 32 = 0 → Answers (.triggerArm r) s r.val stOk 0 0 fun u => (u.trigger g).state = 2
              ∧ (bits (e.q 3) 60 4 ≠ 1 → u.trigger g = { armed with state := 2 } ∧ (∀ j, j ≠ g → u.trigger j = s.trigger j)
                ∧ u.rd TRG_LAST_FIRED.fires (trgPage (g / 16384)) = (s.rd TRG_LAST_FIRED.fires (trgPage (g / 16384)) + 1) % 2 ^ 32)
              ∧ (bits (e.q 3) 60 4 = 2 → (u.group (bits (e.q 3) 32 16)).memberCount = 0)
              ∧ ChangesOnly [.coll, .mgmt] (onPages (diePagesOf trgPage ++ diePagesOf grpPage)) s u))
      ∧ (front 0x054 → Answers (.quotaSet r) s r.val stOk 0 0 fun u => u.quota job = (bits (e.q 2) 0 32, bits (e.q 3) 0 32)
          ∧ (∀ j, j ≠ job → u.quota j = s.quota j) ∧ u.coll = { s.coll with quotas := u.coll.quotas } ∧ ChangesOnly [.coll] (fun _ => False) s u)
      ∧ (s.writes who.val page 0x148 →
          Completes (.grpReplLoad who die set) s (fun t => t.rd GRP_REPL_SEL.set page = set.val
              ∧ (∀ k, k < 8 → t.rd GRP_REPL_MAP.ports page k = bits (repl s die.val set.val) (64 * k) 64)
              ∧ ChangesOnly [] (fun z => pageOf z = page ∧ (offOf z = 0x148 ∨ (0x150 ≤ offOf z ∧ offOf z < 0x190))) s t)
          ∧ Completes (.grpReplStore who die set) s fun t => t.rd GRP_REPL_SEL.set page = set.val
              ∧ (∀ k, k < 8 → bits (repl t die.val set.val) (64 * k) 64 = s.rd GRP_REPL_MAP.ports page k)
              ∧ (∀ d k, k < 16384 → (d ≠ die.val ∨ k ≠ set.val) → repl t d k = repl s d k) ∧ t.coll = { s.coll with repl := t.coll.repl }
              ∧ ChangesOnly [.coll] (fun z => pageOf z = page ∧ offOf z = 0x148) s t)

/-- A plan outside the staging window answers PERMISSION, with a die away BUSY, failing a check that check's status, and changes nothing; else
it is the active plan, in the copy too, and answers OK, or waits while a route drain of it runs. A save captures the copy with the
sequence one higher, writes it to its image (the one it has begun, otherwise the inactive one) and answers OK, or HW_ERROR where it does
not read back, the other image as before; at the last sequence it answers INVALID; while another save is in progress it waits; a due save
does the same without a command. A cap of 1,500 to 3,000 W is set, another answers INVALID. PORT_ACCEPT makes the HELD sub-ports of a port
ACCEPTED by command, else NOT_FOUND. A snapshot waits for the reader, and places one record per page listed, and a last one, at its
staging offset, with the skew and the pages read; a page that is not mapped reads as zeros and is counted under R53. (R64, R403, R405,
R409, R412, R423, R458, R459, R384) -/
def Obligations.PlansSavesCapsAndSnapshots : Prop :=
  ∀ (s : State) (r : Fin 4096) (e : Descriptor) (good : Bool),
    let n := e.owner
    let front := fun op : Nat => s.atFront r.val op true e
    let len := bits (e.q 2) 0 32
    let pl? := s.planCheck (s.staged n (e.q 1) (min len planBytes)) len (bits (e.q 3) 0 32)
    let load := fun st : Nat => Answers (.planLoad r .ok) s r.val st 0 0
    let planned := fun (pl : Plan) (u : State) => u.boot.plan = some pl ∧ u.boot.copy.plan = some pl ∧ u.rd BOOT_STATUS.plan_none bootPage = 0
      ∧ (∀ m, m ≠ 4 → Sparse.get 0 u.sec.meas m = Sparse.get 0 s.sec.meas m) ∧ u.mem = s.mem ∧ u.coll = s.coll ∧ u.cores = s.cores
    let away := ∃ d, d < 4 ∧ s.dieAway d = true
    let image := fun (b : Bool) (t : State) => if b then t.boot.cfgB else t.boot.cfgA
    let side := s.boot.saveSide
    let begun := s.boot.writing.any fun w => w.2 == ownSave
    let saved := fun (due : Bool) (t : State) => t.boot.copy.seq = s.boot.copy.seq + 1 ∧ t.boot.copy.plan = s.boot.plan ∧ t.boot.copy.fields = s.heldFields
      ∧ t.boot.copy.counts = s.byp.counts ∧ t.boot.copy.identity = s.boot.copy.identity ∧ image side t = ⟨good, t.boot.copy⟩
      ∧ image (!side) t = image (!side) s ∧ t.boot.saveDue = due ∧ t.boot.writing = none
      ∧ t.rd BOOT_SAVE.saves bootPage = (if good then (s.rd BOOT_SAVE.saves bootPage + 1) % 2 ^ 16 else s.rd BOOT_SAVE.saves bootPage)
      ∧ bit (t.rd PG_IRQ_RAW.block_irq bootPage) (if good then 0 else 1) = true ∧ ChangesOnly [.boot, .mgmt] (onPages [bootPage]) s t
    let w := bits (e.q 1) 0 16
    let p := bits (e.q 1) 0 9
    let cnt := bits (e.q 2) 0 16
    let list := s.staged n (e.q 1) (8 * cnt)
    let page := fun i : Nat => leAt list (8 * i) 4 / 4096 * 4096
    let snap := fun st : Nat => Answers (.counterSnapshot r .ok) s r.val st
    let inWindow := stagingOk (e.q 1) (8 * cnt) = true ∧ stagingOk (e.q 3) (256 * (cnt + 1)) = true
    let readable := ∀ i, i < cnt → (blkOfPage (page i)).isSome = true → s.mayReadAs e.roles n (page i) CTR_VALUE.count.off = true
    let unmapped := fun i : Nat => (blkOfPage (page i)).isNone
    let strays := ((List.range cnt).filter unmapped).length
    let skips := fun i : Nat => (blkOfPage (page i)).isSome && s.readerSkips (page i)
    let before := fun i : Nat => ((List.range i).filter fun j => !skips j).length
    let base := stagingBase n + e.q 3
    (front 0x060 →
        (stagingOk (e.q 1) len = false → load stPermission (Unchanged s))
        ∧ (stagingOk (e.q 1) len = true → away → load stBusy (Unchanged s))
        ∧ (∀ st, stagingOk (e.q 1) len = true → ¬away → pl? = .error st → load st (Unchanged s))
        ∧ (∀ pl, stagingOk (e.q 1) len = true → ¬away → pl? = .ok pl → load stOk (planned pl)
            ∨ Waits (.planLoad r .ok) s r.val fun u => planned pl u ∧ ∃ x ∈ u.sw.drains, x.ring = planRing + r.val))
      ∧ (front 0x061 → s.saveFree r.val = false → Completes (.configSave r good) s (Unchanged s))
      ∧ (front 0x061 → s.saveFree r.val = true → s.boot.copy.seq = 0xFFFFFFFF → Answers (.configSave r good) s r.val stInvalid 0 0 (Unchanged s))
      ∧ (front 0x061 → s.saveFree r.val = true → s.boot.copy.seq ≠ 0xFFFFFFFF →
          Answers (.configSave r good) s r.val (if good then stOk else stHwError) 0 0 (saved s.boot.saveDue))
      ∧ ((s.boot.saveDue = true ∨ begun = true) → s.boot.cores ≠ 0 → s.saveFree ownSave = true →
          (s.boot.copy.seq ≠ 0xFFFFFFFF → Completes (.configSaveAuto good) s (saved (s.boot.saveDue && begun)))
          ∧ (s.boot.copy.seq = 0xFFFFFFFF → Completes (.configSaveAuto good) s fun t =>
              t.boot = { s.boot with saveDue := s.boot.saveDue && begun } ∧ ChangesOnly [.boot] (fun _ => False) s t))
      ∧ (front 0x070 → 1500 ≤ w → w ≤ 3000 → Answers (.powerCapSet r) s r.val stOk 0 0 fun u => u.rd PWR_CAP.cap_w pwrPkgPage = w
          ∧ ChangesOnly [] (fun k => k = PWR_CAP.cap_w.key pwrPkgPage 0) s u)
      ∧ (front 0x070 → (w < 1500 ∨ 3000 < w) → Answers (.powerCapSet r) s r.val stInvalid 0 0 (Unchanged s))
      ∧ (front 0x031 → (∀ l, l / 4 = p → (s.sub l).disc ≠ .held) → Answers (.portAccept r) s r.val stNotFound 0 0 (Unchanged s))
      ∧ (front 0x031 → (∃ l, l / 4 = p ∧ (s.sub l).disc = .held) → Answers (.portAccept r) s r.val stOk 0 0 fun u =>
          (∀ l, u.sub l = if l / 4 = p ∧ (s.sub l).disc = .held then { s.sub l with disc := .accepted, holdReason := 0, byCommand := true } else s.sub l)
            ∧ ChangesOnly [.subs] isCtr s u)
      ∧ (front 0x080 → inWindow → s.readerOn = false → Completes (.counterSnapshot r .ok) s (Unchanged s))
      ∧ (s.boot.saveDue = false ∧ begun = false ∨ s.boot.cores = 0 ∨ s.saveFree ownSave = false → Completes (.configSaveAuto good) s (Unchanged s))
      ∧ (front 0x080 → s.readerOn = true →
          (¬inWindow → snap stPermission 0 0 (Unchanged s))
          ∧ (inWindow → 4096 < cnt → snap stInvalid 0 0 (Unchanged s))
          ∧ (inWindow → cnt ≤ 4096 → ¬readable → snap stPermission 0 0 (Unchanged s))
          ∧ (inWindow → cnt = 0 → snap stOk 0 0 (Unchanged s))
          ∧ (inWindow → cnt ≤ 4096 → readable → 0 < cnt → Memory.wf s.mem = true → snap stOk (skewOf (before cnt)) (before cnt) fun u =>
              (∀ b, (b < base ∨ base + 256 * (cnt + 1) ≤ b) → Memory.read u.mem b = Memory.read s.mem b)
                ∧ (∀ i, i < cnt → (skips i = true ∨ unmapped i = true ∨ strays = 0 ∧ ∀ i j, i < j → j < cnt → page i ≠ page j) → Memory.readN u.mem (base + 256 * i) 256 =
                  if skips i then s.skipRecord (page i) (before i) else s.pageRecord (page i) (before i) 0 (blkOfPage (page i)).isSome)
                ∧ Memory.readN u.mem (base + 256 * cnt) 256 = s.endRecord (before cnt) (cnt - before cnt) 0
                ∧ Memory.wf u.mem = true ∧ (strays = 0 → ChangesOnly [.mem, .reader] isCtr s u)
                ∧ (strays ≠ 0 → u.rd PG_ERR_COUNT.count mgtPkgPage = min (s.rd PG_ERR_COUNT.count mgtPkgPage + strays) (2 ^ 48 - 1)
                  ∧ ChangesOnly [.mem, .reader, .mgmt] (onPages [mgtPkgPage]) s u)))

/-- On an UP DOWN or GALLERY port, with a plan: an overrun, or no tread free, discards the frame before it is stored; a frame that fails S2 is
discarded under its reason, an unreadable one under its memory error; SWP_LAST_DISCARD of the pipeline shows the reason, and queues, waits
and every other frame stay. A frame S3 terminates leaves the store: PFC pauses or resumes its hold classes, a valid HELLO shows its
neighbour, LLDP is kept where a control core runs, a time message goes to firmware with its T0 and T1 stamps, RoCEv2 for service 0x02
waits for M0's engine. A CONTRIB to the own spine goes to the collectives. A forwarded frame whose single copy S5 sends to a queue of its
die that admits it is that queue's last entry and held once; a hold-class one S5 holds waits last; one whose route bank entry reads
uncorrectable is discarded under NO_ROUTE. One that does not conform to its policer is discarded under 0x1D, with no effect of S3 where S3
terminates it (PFC is not policed, log entry 58). With no plan, an idle sub-port or forwarding stopped nothing changes; far-end loopback
sends the frame back. That admission order is R163's and the class of a non-IPv6 frame log entry 24. (R111, R112, R130, R141, R161, R162,
R165, R169, R181, R209, R370, R411) -/
def Obligations.ReceivedFramesAreCheckedAndForwarded : Prop :=
  ∀ (s : State) (lp : Fin 2048) (b : List Byte) (hw : RxFind),
    let l := lp.val
    let still := s.isUp l = false ∨ (s.role (l / 4) ≠ roleDown ∧ s.role (l / 4) ≠ roleGallery) ∨ s.power.stopped = true
    let cmd := Completes (.frameReceive lp b hw) s
    (s.boot.plan = none ∨ s.loopsBack l = false ∧ still → cmd (Unchanged s))
    ∧ (s.boot.plan ≠ none → s.loopsBack l = true → cmd fun t => t.out = [.frame l b] ∧ Unchanged s t)
    ∧ ∀ pl, s.receives pl l →
    let d := l / 512
    let w := swpPage (pipeOfPort (l / 4))
    let u := parsed b
    let v := s.cleared.received l b.length
    let cls := v.rxClass l (unwire b)
    let id := s.sw.nextId
    let reason := fun t : State => t.rd SWP_LAST_DISCARD.reason w
    let kept := fun t : State => t.tables = s.tables ∧ t.coll = s.coll ∧ t.cores = s.cores ∧ t.mem = s.mem
    (hw = .overrun → cmd fun t => reason t = 0x01 ∧ bit (t.rd PG_IRQ_RAW.block_irq w) 0 = true ∧ t.sw = s.sw ∧ kept t)
      ∧ (hw ≠ .overrun → ∀ code, v.rxPool l cls (treadsOf b.length) = .error code → cmd fun t => reason t = code % 256 ∧ t.sw = s.sw ∧ kept t)
      ∧ (hw ≠ .overrun → hw ≠ .treadEcc → ∀ pool code, v.rxPool l cls (treadsOf b.length) = .ok pool →
          v.rxCheck pl l b (decide (hw = .codeword)) = .error code → cmd fun t => reason t = code % 256 ∧ Gone s t id ∧ kept t)
      ∧ (hw = .treadEcc → ∀ pool, v.rxPool l cls (treadsOf b.length) = .ok pool → cmd fun t => t.frame? id = none ∧ kept t)
      ∧ (∀ pool hjt, v.rxPool l cls (treadsOf b.length) = .ok pool → v.rxCheck pl l b (decide (hw = .codeword)) = .ok hjt →
          (hw = .residue → cmd fun t => reason t = 0x2A ∧ Gone s t id ∧ kept t)
          ∧ (hw ≠ .overrun → hw ≠ .treadEcc → hw ≠ .residue →
            let x := (v.stored l b hjt pool).2.iff (isHold cls && decide (b.length < 108)) fun s => (s.count w 0x80).irq w 5
            let r := x.stage3 pl l u hjt hw
            let key := policerKey l cls
            let policed := x.policed l cls u
            let passes := policed = true → x.conforms key = true
            let z := (r.2.stage4 pl l u).iff policed fun s => s.charge key b.length
            let ch := fun (dest : Dest) (f : Frame) => z.choose id z.sw.waits f ⟨dest, false, none, false⟩
            let cs := (z.acceptContrib id d (engOfPort (l / 4)) u)
            (∀ page code, r.1 = .drop page code → cmd fun t => reason t = code % 256 ∧ Gone s t id ∧ t.coll = s.coll ∧ t.mem = s.mem)
            ∧ ((∀ page code, r.1 ≠ .drop page code) → ¬passes → cmd fun t => reason t = 0x1D ∧ Gone s t id ∧ t.coll = s.coll ∧ t.mem = s.mem
              ∧ ((∀ ds, r.1 ≠ .forward ds) → t.subs = s.subs ∧ t.mgmt.relayed = s.mgmt.relayed))
            ∧ (r.1 = .done → passes → cmd fun t => Gone s t id ∧ t.coll = s.coll ∧ t.mem = s.mem ∧ t.subs = r.2.subs
              ∧ (etype u = 0x8808 → ∀ c ∈ [2, 6, 7], t.isPaused l c = if pfcEnable u c then decide (pfcTime u c ≠ 0) else s.isPaused l c)
              ∧ (etype u = 0x88CC → s.boot.cores ≠ 0 → (t.sub l).lldp = (u.drop 14).take 1500)
              ∧ (etype u = 0x86DD → s.isTimeMessage l u = true →
                t.time.inbox = s.time.inbox ++ [⟨l, s.time.t0, s.time.t1, slice u 62 (udpLen u - 8)⟩])
              ∧ (etype u = 0x86DD → hjt = true → (Hjt.decode u).type = tHello → s.isTimeMessage l u = false →
                (t.sub l).nbr = helloNeighbour (hjtPayload u) ∧ (t.sub l).heard = true ∧ (t.sub l).nbrMac = ethSrc u))
            ∧ (r.1 = .relay → passes → cmd fun t => Gone s t id ∧ t.mgmt.relayed = s.mgmt.relayed ++ [u] ∧ t.coll = s.coll ∧ t.mem = s.mem)
            ∧ (∀ code, r.1 = .contrib → passes → cs.1 = some code → cmd fun t => reason t = code % 256 ∧ t.frame? id = none)
            ∧ (r.1 = .contrib → passes → cs.1 = none → cmd fun t => t.coll = cs.2.coll)
            ∧ (∀ h again, hw = .routeEcc again → r.1 = .forward [.hall h] → passes → cmd fun t => reason t = 0x2B ∧ Gone s t id ∧ t.coll = s.coll ∧ t.mem = s.mem)
            ∧ (∀ dest f k, r.1 = .forward [dest] → (∀ again h, hw = .routeEcc again → dest ≠ .hall h) → passes → z.frame? id = some f →
                (ch dest f).1 = .queue k → (ch dest f).2.admits f k → cmd fun t =>
                  t.queue k.key = s.queue k.key ++ [⟨id, s.now, k.mc, false, false, k.hall, k.hdr⟩] ∧ t.frame? id = some f
                    ∧ f.bytes = unwire b ∧ f.src = l ∧ f.cls = cls ∧ f.refs = 1
                    ∧ (∀ j, j ≠ k.key → t.queue j = s.queue j) ∧ (∀ i, i ≠ id → t.frame? i = s.frame? i) ∧ t.sw.waits = s.sw.waits
                    ∧ t.coll = s.coll ∧ t.mem = s.mem)
            ∧ (∀ f h k no, r.1 = .forward [.hall h] → (∀ again, hw ≠ .routeEcc again) → passes → z.frame? id = some f →
                (ch (.hall h) f).1 = .wait k no → cmd fun t =>
                  t.sw.waits = s.sw.waits ++ [⟨id, k, f.die, [], h, none, false, no⟩] ∧ t.frame? id = some f ∧ t.sw.queues = s.sw.queues
                    ∧ (∀ i, i ≠ id → t.frame? i = s.frame? i) ∧ t.coll = s.coll ∧ t.mem = s.mem)))

/-- On an UP sub-port, with forwarding not stopped, head frames too long for their gate discarded first: the first frame that the sub-port may
send (only HELLO, LLDP and time messages while it is not ACCEPTED), of the queue that class and slot scheduling pick, leaves the queue and
goes on the wire as S7 rewrites it, with the port's MAC address and the neighbour's, or its own group address for HELLO and LLDP of the
device, and a forwarded IPv6 frame with its Hop Limit one lower; no other queue changes, and its reference is released. Where no class may
start, nothing leaves a queue. A picked frame with an unreadable tread, or whose rewrite fails its residue check, is discarded with all
its copies. The oldest of several copies of a hold-class frame that has not started in time leaves its queue alone, is discarded under
0x19 and raises its interrupt. Memory, tables, landings and cores stay. (R114, R115, R124, R163, R204, R206, R175, R174, R411, R435) -/
def Obligations.FramesLeaveInOrder : Prop :=
  ∀ (s : State) (lp : Fin 2048) (c : Fin 8) (find : TxFind),
    let l := lp.val
    let v := s.cleared.dropOversize l
    let kept := fun t : State => ∀ y, y ∉ [Piece.mgmt, .rel, .sw, .time] → y.same s t
    let p := v.pickClass l
    (s.isUp l = false ∨ s.power.stopped = true → Completes (.frameTransmit lp find) s (Unchanged s))
      ∧ (s.isUp l = true → s.power.stopped = false →
        (p.1 = none → Completes (.frameTransmit lp find) s fun t => (∀ k, t.queue k = v.queue k) ∧ kept t)
        ∧ (∀ cls, p.1 = some cls →
          let q := p.2.pickQueue l cls
          (q.1 = none → Completes (.frameTransmit lp find) s fun t => (∀ k, t.queue k = v.queue k) ∧ kept t) ∧
          ∀ k e f, q.1 = some k → q.2.head k = some (e, f) →
            let o := q.2.rewrite l f e.hdr
            (find ≠ .ok → Completes (.frameTransmit lp find) s fun t => t.frame? e.id = none ∧ kept t)
            ∧ (find = .ok → Completes (.frameTransmit lp find) s fun t => Output.frame l (wire o) ∈ t.out
              ∧ t.queue k = (v.queue k).erase e ∧ (∀ j, j ≠ k → t.queue j = v.queue j) ∧ Released v t e.id
              ∧ (∀ i, i ≠ e.id → t.frame? i = v.frame? i) ∧ t.sw.waits = s.sw.waits
              ∧ (22 ≤ f.bytes.length → e.hdr = none → (f.own = false → etype f.bytes = 0x86DD → beAt o 21 1 = ipHop f.bytes - 1)
                ∧ ethSrc o = s.portMac l % 2 ^ 48
                ∧ (let named := f.own = true ∧ (ethDst f.bytes = macHello ∨ ethDst f.bytes = macLldp)
                   (named → ethDst o = ethDst f.bytes) ∧ (¬named → ethDst o = (s.sub l).nbrMac % 2 ^ 48))) ∧ kept t)))
      ∧ (isHold c.val = false ∨ oldestOf (s.entriesOf l c.val fun _ y => y.mc) = none → Completes (.mcResidencyExpiry lp c) s (Unchanged s))
      ∧ (isHold c.val = true → ∀ k x f, oldestOf (s.entriesOf l c.val fun _ y => y.mc) = some (k, x) → s.frame? x.id = some f →
          Completes (.mcResidencyExpiry lp c) s fun t => t.queue k = (s.queue k).erase x ∧ (∀ j, j ≠ k → t.queue j = s.queue j)
            ∧ Released s t x.id ∧ (∀ i, i ≠ x.id → t.frame? i = s.frame? i)
            ∧ (f.src < 2048 → t.rd SWP_LAST_DISCARD.reason (swpPage (pipeOfPort (f.src / 4))) = 0x19)
            ∧ bit (t.rd PG_IRQ_RAW.block_irq (bufPage (l / 512))) 2 = true ∧ kept t)

/-- While forwarding runs and a credit is free (how many a link has is free, log entry 53), the oldest frame that awaits it takes it and
enters its queue on the other die, which admits it, its wait ends and its source loses a reference; else nothing crosses. The first held
frame that finds treads free enters its queue, from overflow treads where R172 asks it, or on another die reserves treads and awaits the
mesh, and its wait ends. A frame eligible for escape that S5 now sends to an open queue enters it. The oldest job-slot frame that has
waited escape_us becomes eligible, and moves to a ring queue with room, uncharged, or stays. A frame on the banister enters the ring queue
that continues its way, or waits on. The alarm raises its interrupt where an eligible frame waits, at S5 or in a job-slot queue. Nothing
else about the tables, landings, cores and memory changes; the other copies of a frame are not touched. (R163, R172, R173, R174, R188,
R192, R193, R202) -/
def Obligations.WaitingFramesMoveOn : Prop :=
  ∀ (s : State) (src dst die : Fin 4) (pool : Pool) (lp : Fin 2048) (c : Fin 8) (w : Wait) (k : Target) (f : Frame),
    let l := lp.val
    let d := die.val
    let kept := fun t : State => ∀ y, y ∉ [Piece.mgmt, .sw] → y.same s t
    let entered := fun (t : State) (key id : Nat) => t.queue key = s.queue key ++ [⟨id, s.now, k.mc, false, false, k.hall, k.hdr⟩]
      ∧ ∀ j, j ≠ key → t.queue j = s.queue j
    let u := s.cleared.dropWait w
    let sel := u.choose w.id (s.aheadOf w) f ⟨.hall w.hall, w.mc, w.hdr, decide (w.kind = .ring)⟩
    let once := ∀ x ∈ s.sw.waits.erase w, x.id ≠ w.id
    let here := k.key / 66 / 8 / 512 = f.die ∧ sel.2.inService (k.key / 66 / 8) = true
    let held := s.sw.waits.filter (s.waitsOn src.val .intake) |>.filter fun x => x.die == dst.val
    let spills := u.mustSpill (k.key / 66 / 8) f
    let queued := s.sw.queues.filter fun q => q.1 / 66 / 8 / 512 == d && decide (q.1 % 66 < 64)
    let waitsEligible := s.sw.waits.filter (s.waitsOn d .eligible)
    let cand := oldestOf (s.entriesOf l c.val fun key y => decide (key % 66 < 64) && !y.eligible)
    let onRing := s.sw.waits.find? fun x => decide (x.kind = .ring) && match s.frame? x.id with
      | some f => f.src == l && f.cls == c.val
      | none => false
    let crossing := s.sw.waits.find? (s.meshWaits src.val dst.val (meshIndex pool))
    (∀ j g, src ≠ dst → s.power.stopped = false → s.meshReady src.val dst.val pool = true → crossing = some w → w.kind = .mesh j → w.targets = [k] →
        s.frame? j = some g → j ≠ w.id → g.refs = 1 → g.die = k.key / 66 / 8 / 512 → s.inService (k.key / 66 / 8) = true →
        (k.key % 66 = 65 → g.pool = .ring) →
        (isHold g.cls = true → k.key % 66 ≠ 65 → u.behind g k.key = false ∧ u.mustSpill (k.key / 66 / 8) g = false) →
        Completes (.meshCrossing src dst pool) s fun t => entered t k.key j ∧ t.frame? j = some g ∧ Released s t w.id
          ∧ t.sw.waits = s.sw.waits.erase w ∧ (meshKey src.val dst.val (meshIndex pool), s.now + 40) ∈ t.sw.meshBusy ∧ kept t)
      ∧ (src ≠ dst → s.power.stopped = true ∨ s.meshReady src.val dst.val pool = false ∨ crossing = none →
          Completes (.meshCrossing src dst pool) s (Unchanged s))
      ∧ (src = dst → held.head? = some w → once → w.targets = [k] → s.frame? w.id = some f → 1 ≤ f.refs → isHold f.cls = true → w.die = f.die →
          k.key / 66 / 8 / 512 = f.die → s.inService (k.key / 66 / 8) = true → k.key % 66 ≠ 65 →
          (spills = true → f.treads ≤ s.poolFree f.die .overflow) →
          Completes (.heldFrameAdmit src dst) s fun t => entered t k.key w.id ∧ t.sw.waits = s.sw.waits.erase w
            ∧ t.frame? w.id = some (if spills = true then { f with pool := .overflow } else f) ∧ kept t)
      ∧ (src ≠ dst → held.head? = some w → once → w.targets = [k] → s.frame? w.id = some f → 1 ≤ f.refs → s.sw.nextId ≠ w.id → isHold f.cls = true →
          s.inService (k.key / 66 / 8) = true → k.key % 66 ≠ 65 → spills = false →
          let p := if f.pool = .overflow then .overflow else meshPool f
          f.treads ≤ s.poolFree dst.val p →
          Completes (.heldFrameAdmit src dst) s fun t => (∀ j, t.queue j = s.queue j) ∧ t.frame? w.id = some f
            ∧ t.sw.waits = s.sw.waits.erase w ++ [⟨w.id, .mesh s.sw.nextId, dst.val, [k], 0, none, false, false⟩]
            ∧ t.frame? s.sw.nextId = some { f with die := dst.val, pool := p, counted := false, refs := 1 } ∧ kept t)
      ∧ (held = [] → Completes (.heldFrameAdmit src dst) s (Unchanged s))
      ∧ (waitsEligible = [w] → once → s.frame? w.id = some f → 1 ≤ f.refs → (∀ q ∈ queued, ∀ x ∈ q.2, x.eligible = false) →
          sel.1 = .queue k → sel.2.admits f k → Completes (.escapeReevaluate die) s fun t => entered t k.key w.id
            ∧ t.frame? w.id = some f ∧ t.sw.waits = s.sw.waits.erase w ∧ kept t)
      ∧ (waitsEligible = [] → (∀ q ∈ queued, ∀ x ∈ q.2, x.eligible = false) → Completes (.escapeReevaluate die) s (Unchanged s))
      ∧ (cand = none → Completes (.escapeTimer lp c) s (Unchanged s))
      ∧ (∀ key x, cand = some (key, x) → s.frame? x.id = some f → 1 ≤ f.refs →
          let y := { x with eligible := true }
          let marked := (s.queue key).map fun z => if z = x then y else z
          let v := s.cleared.setQueue key marked
          let go := v.enterRing f.die x.hall f x.mc x.hdr
          let port := k.key / 66 / 8
          (∀ kind no, go.1 = .wait kind no → Completes (.escapeTimer lp c) s fun t =>
              t.queue key = marked.map (fun z => if z = y then { y with noEscape := no } else z) ∧ (∀ j, j ≠ key → t.queue j = s.queue j)
                ∧ t.sw.frames = s.sw.frames ∧ t.sw.waits = s.sw.waits ∧ kept t)
          ∧ (go.1 = .queue k → port / 512 = f.die → go.2.inService port = true → k.key % 66 = 65 → key ≠ k.key →
              s.ringId f x.id ≠ x.id ∨ f.pool = .ring → Completes (.escapeTimer lp c) s fun t => t.queue key = marked.erase y
                ∧ t.queue k.key = s.queue k.key ++ [⟨s.ringId f x.id, s.now, k.mc, false, false, k.hall, k.hdr⟩] ∧ t.sw.waits = s.sw.waits ∧ kept t)
          ∧ (go.1 = .queue k → port / 512 ≠ f.die → go.2.inService port = true → k.key % 66 = 65 → s.sw.nextId ≠ x.id →
              Completes (.escapeTimer lp c) s fun t => t.queue key = marked.erase y ∧ (∀ j, j ≠ key → t.queue j = s.queue j)
                ∧ t.sw.waits = s.sw.waits ++ [⟨x.id, .mesh s.sw.nextId, port / 512, [k], 0, none, false, false⟩] ∧ kept t))
      ∧ (onRing = none → Completes (.banisterContinue lp c) s (Unchanged s))
      ∧ (onRing = some w → once → s.frame? w.id = some f → 1 ≤ f.refs →
          (sel.1 = .wait .ring false → Completes (.banisterContinue lp c) s fun t =>
            t.sw = { s.sw with waits := s.sw.waits.map fun y => if y = w then { y with noEscape := false } else y }
              ∧ ChangesOnly [.sw] (fun _ => False) s t)
          ∧ (sel.1 = .queue k → here → k.key % 66 = 65 → f.own = false → s.ringId f w.id ≠ w.id ∨ f.pool = .ring →
              Completes (.banisterContinue lp c) s fun t => entered t k.key (s.ringId f w.id) ∧ t.sw.waits = s.sw.waits.erase w ∧ kept t))
      ∧ (let al := waitsEligible ≠ [] ∨ ∃ q ∈ queued, ∃ x ∈ q.2, x.eligible = true
         (al → Completes (.ringWaitAlarm die) s fun t => bit (t.rd PG_IRQ_RAW.block_irq (galPage d)) 2 = true
            ∧ ChangesOnly [.mgmt] (fun z => shared z ∨ isIrq (galPage d) z) s t)
          ∧ (¬al → Completes (.ringWaitAlarm die) s (Unchanged s)))

/-- On an UP sub-port of role DOWN or GALLERY, HELLO_SEND steps its sequence and, with treads free, queues a HELLO of R134 to the all-nodes
group; LLDP_SEND, with a control core, queues an LLDPDU with a time to live of 120; on a banister port the frame goes into ring treads or
waits for room there. A silent neighbour is forgotten; a two-way neighbour that is lost makes the sub-port UNACCEPTED, its queues empty.
DISCOVERY_COMPARE makes an UNACCEPTED two-way sub-port ACCEPTED where no check of R410 fails or an acceptance by command stands, with a
cabling swap noted, and HELD with the reason code and an interrupt otherwise. PFC_XOFF_REFRESH sends XOFF again while it stands on an UP
sub-port, and PFC_PAUSE_EXPIRY ends a pause of one class alone. Other sub-ports and device memory stay. The queue a frame of the device
enters is the model's reading (log 46), the LLDP formats are log 47's. (R114, R134, R135, R138, R168, R169, R176, R410, R412, R413, R446) -/
def Obligations.NeighboursAndPauses : Prop :=
  ∀ (s : State) (lp : Fin 2048) (c : Fin 8) (silent : Bool),
    let l := lp.val
    let x := s.sub l
    let r := s.portRec (l / 4)
    let a := ctlDiePage (l / 512)
    let fits := fun u : List Byte => treadsOf (wireLen u) ≤ s.poolFree (l / 512) .forward
    let others := fun t : State => ∀ j, j ≠ l → t.sub j = s.sub j
    let buffers := onPages [bufPage (l / 512)]
    let held := fun z => shared z ∨ isIrq a z
    let swap := if r.role = roleDown then x.nbr.gou != r.uplink else x.nbr.port != r.peer
    let lost := { if silent then { x with heard := false } else x with
      twoWay := false, disc := if x.disc = .notUp then .notUp else .unaccepted, holdReason := 0 }
    let peers := s.role (l / 4) = roleDown ∨ s.role (l / 4) = roleGallery
    let sends := s.isUp l = true ∧ peers ∧ s.power.stopped = false
    let onRing := s.ringOut l = true
    let taken := fun (u : List Byte) (hjt : Bool) (t : State) => (¬onRing → Queued s t (s.ownQueue l) u)
      ∧ (onRing → s.ringRoom l u hjt → RingQueued s t l u hjt) ∧ (onRing → ¬s.ringRoom l u hjt → RingWaits s t l u hjt)
    (∀ pl, s.boot.plan = some pl →
        let port := s.rd SWP_PARSE_CFG.hjt_port (swpPage (pipeOfPort (l / 4)))
        let u := patch (hjtFrame allNodes (s.fabricAddr (s.ownFea 0)) 6 255 port { Hjt.zero tHello with seq := x.helloSeq } (s.helloPayload pl l)) 0
          (natBe 6 macHello)
        let why := if x.byCommand then 0 else s.discoveryReason pl l
        let compared := s.isUp l = true ∧ peers ∧ x.twoWay = true ∧ x.disc = .unaccepted ∧ s.boot.cores ≠ 0
        (sends → fits u → Completes (.helloSend lp) s fun t => taken u true t ∧ t.sub l = { x with helloSeq := (x.helloSeq + 1) % 2 ^ 32 }
          ∧ others t ∧ ChangesOnly [.mgmt, .subs, .sw] buffers s t)
        ∧ (sends → ¬fits u → Completes (.helloSend lp) s fun t => t.sub l = { x with helloSeq := (x.helloSeq + 1) % 2 ^ 32 } ∧ others t
          ∧ ChangesOnly [.subs] isCtr s t)
        ∧ (compared → why = 0 → Completes (.discoveryCompare lp) s fun t =>
            t.sub l = { x with disc := .accepted, holdReason := 0, cablingSwap := swap } ∧ others t
              ∧ (swap = true → bit (t.rd PG_IRQ_RAW.block_irq a) 1 = true) ∧ ChangesOnly [.mgmt, .subs] held s t)
        ∧ (compared → why ≠ 0 → Completes (.discoveryCompare lp) s fun t => t.sub l = { x with disc := .held, holdReason := why } ∧ others t
            ∧ bit (t.rd PG_IRQ_RAW.block_irq a) 0 = true ∧ ChangesOnly [.mgmt, .subs] held s t))
      ∧ (let v := ethHdr macLldp 0 0x88CC ++ s.lldpdu l 120
         (sends → s.boot.cores ≠ 0 → fits v → Completes (.lldpSend lp) s fun t => taken v false t ∧ ChangesOnly [.mgmt, .sw] buffers s t)
          ∧ (sends → s.boot.cores ≠ 0 → ¬fits v → Completes (.lldpSend lp) s (ChangesOnly [] isCtr s)))
      ∧ (s.boot.plan = none ∨ ¬sends → Completes (.helloSend lp) s (Unchanged s))
      ∧ (¬sends ∨ s.boot.cores = 0 → Completes (.lldpSend lp) s (Unchanged s))
      ∧ (s.boot.plan = none ∨ s.isUp l = false ∨ ¬peers ∨ x.twoWay = false ∨ x.disc ≠ .unaccepted ∨ s.boot.cores = 0 →
          Completes (.discoveryCompare lp) s (Unchanged s))
      ∧ (x.twoWay = false → Completes (.neighbourLivenessTimeout lp silent) s fun t => t.sub l = (if silent then { x with heard := false } else x)
          ∧ others t ∧ ChangesOnly [.subs] (fun _ => False) s t)
      ∧ (x.twoWay = true → Completes (.neighbourLivenessTimeout lp silent) s fun t => t.sub l = lost ∧ others t
          ∧ (∀ k, t.queue k = if k / 66 / 8 = l then [] else s.queue k)
          ∧ ((s.now, 100) ∈ (Sparse.get Health.fresh t.rel.health (l / 4)).penalties)
          ∧ ∀ y, y ∉ [Piece.mgmt, .rel, .subs, .sw] → y.same s t)
      ∧ (s.xoff l c.val = true → s.isUp l = true → Completes (.pfcXoffRefresh lp c) s fun t => t.out = [.frame l (wire (pfcFrame (s.portMac l) c.val 0xFFFF))]
          ∧ ChangesOnly [] isCtr s t)
      ∧ (s.xoff l c.val = false ∨ s.isUp l = false → Completes (.pfcXoffRefresh lp c) s (Unchanged s))
      ∧ Completes (.pfcPauseExpiry lp c) s fun t => (∀ j k, k < 8 → t.isPaused j k = (if j = l ∧ k = c.val then false else s.isPaused j k))
          ∧ t.sw = { s.sw with paused := t.sw.paused } ∧ ChangesOnly [.sw] (fun _ => False) s t

/-- A learn action leaves its queue. With its home die away it is dropped. Else a source with no entry is entered in every copy, stamped,
unless it is at its own leaf, learn_all is 0 and the foyer does not hold it; with no room it enters the foyer where flooding is enabled,
once, while fewer than 256 stay there, else the interrupt is raised. A static entry stays; an entry of the same leaf is marked as hit on
the arrival die; one whose source is back at its own leaf goes from every copy, and else it moves to the arrival leaf in every copy. Every
other slot stays. An uncorrectable entry is first counted and removed. A sweep clears a slot that any copy has hit, marks one that none
has, and removes one that was marked, static entries aside; the foyer likewise. Every die in service counts the sweep. A scrub counts its
pass, and each failing slot's error, and deletes the slots whose copies both fail. Memory, switch and landings stay. (R145, R146, R147,
R149, R153, R158, R160, R161) -/
def Obligations.LearningAgingAndScrubs : Prop :=
  ∀ (s : State) (die : Fin 4) (ecc : Bool) (bad : List (Nat × Bool)),
    let d := die.val
    let pieces := fun (l : List Piece) (t : State) => ∀ y, y ∉ l → y.same s t
    let age := fun k => isCtr k ∨ pageOf k ∈ diePagesOf fwdPage ∧ offOf k = FWD_AGE_STATUS.slot.off
    let swept : Nat → Nat → Option EpEntry := fun c i => match s.ep? 0 i with
      | none => s.ep? c i
      | some e => if e.static then s.ep? c i
        else if (List.range 4).any (fun k => match s.ep? k i with
          | some x => x.hit
          | none => false) then some { e with hit := false, stale := false }
        else if e.stale then none else some { e with stale := true }
    let aging := s.rd FWD_AGE_CFG.interval_ms (fwdPage 0) ≠ 0 ∧ s.flag PWR_PKG_STATUS.pkg_standby pwrPkgPage = false
    let scrubbed := fun (t : State) => t.rd FWD_LPM_STATUS.scrub_passes (fwdPage d) = (s.rd FWD_LPM_STATUS.scrub_passes (fwdPage d) + 1) % 2 ^ 16
    let listed := fun i : Nat => Sparse.has s.tables.lpm i = true
    (Sparse.get [] s.tables.learnQ d = [] → Completes (.learnApply die ecc) s (Unchanged s))
      ∧ (∀ a rest, Sparse.get [] s.tables.learnQ d = a :: rest →
        let h := homeDie a.fea
        let u := (s.cleared.setLearnQ d rest).iff ecc fun v => v.epError h a.fea
        let home := a.leaf = feaLeaf a.fea ∧ s.flag FWD_LEARN_CFG.learn_all (fwdPage d) = false
        let enters := u.learnNew d a.fea a.leaf = true
        let taken := fun t : State => (∀ j, Sparse.get [] t.tables.learnQ j = if j = d then rest else Sparse.get [] s.tables.learnQ j)
          ∧ t.rd FWD_LEARN_QUEUE.occupancy (fwdPage d) = rest.length % 2 ^ 13
          ∧ t.tables = { s.tables with ep := t.tables.ep, foyer := t.tables.foyer, learnQ := t.tables.learnQ }
          ∧ pieces [.mgmt, .rel, .tables] t
        let stamps := fun x : Nat => isCtr x ∨ ∃ c, c < 4 ∧ x = FWD_EP_STAMP.insert_counter.key (fwdPage c) 0
        let others := fun (t : State) (i : Nat) => ∀ c j, c < 4 → j < 2 ^ 19 → j ≠ i → t.ep? c j = u.ep? c j
        let slot := fun (t : State) (i : Nat) (e : Option EpEntry) => (∀ c, c < 4 → t.ep? c i = e) ∧ others t i
          ∧ t.tables = { u.tables with ep := t.tables.ep } ∧ ChangesOnly [.tables] isCtr u t
        let learn := fun P : State → Prop => Completes (.learnApply die ecc) s fun t => taken t ∧ P t
        let away := s.dieAway h = true
        (away → learn fun t => t.tables.ep = s.tables.ep ∧ t.tables.foyer = s.tables.foyer)
        ∧ (ecc = true → ∀ i, s.epFind h a.fea = some i → (∀ c, c < 4 → u.ep? c i = none)
            ∧ u.rd PG_ERR_COUNT.count (fwdPage h) = min (s.rd PG_ERR_COUNT.count (fwdPage h) + 1) (2 ^ 48 - 1))
        ∧ (¬away → u.epFind h a.fea = none → ¬enters → learn (Unchanged u))
        ∧ (¬away → u.epFind h a.fea = none → enters →
          (∀ i, u.epPlace h a.fea = some i → learn fun t =>
              (∀ c, c < 4 → t.ep? c i = some ⟨true, a.fea, false, true, false, true, a.leaf, a.lport, u.insertCount h, 0⟩) ∧ others t i
                ∧ (∀ c, c < 4 → t.insertCount c = (u.insertCount c + 1) % 2 ^ 32)
                ∧ t.tables.foyer = (u.tables.foyer.filter fun y => y.fea != a.fea) ∧ ChangesOnly [.tables] stamps u t)
          ∧ (u.epPlace h a.fea = none →
            let opened := s.flag FWD_LEARN_CFG.flood_enable (fwdPage d) = true ∧ s.inFoyer a.fea = false
            (¬opened → learn fun t => t.tables = u.tables ∧ ChangesOnly [] isCtr u t)
            ∧ (opened → 256 ≤ s.tables.foyer.length → learn fun t => t.tables = u.tables ∧ bit (t.rd PG_IRQ_RAW.block_irq (fwdPage h)) 0 = true
                ∧ ChangesOnly [.mgmt] (fun z => shared z ∨ isIrq (fwdPage h) z) u t)
            ∧ (opened → s.tables.foyer.length < 256 → learn fun t =>
                t.tables = { u.tables with foyer := s.tables.foyer ++ [⟨a.fea, true, false⟩] } ∧ ChangesOnly [.tables] isCtr u t)))
        ∧ (¬away → ∀ i e, u.epFind h a.fea = some i → u.ep? h i = some e →
          (e.static = true → learn fun t => t.tables = u.tables ∧ ChangesOnly [] isCtr u t)
          ∧ (e.static = false → e.leaf = a.leaf → learn fun t => ChangesOnly [.tables] (fun _ => False) u t ∧ ∀ c j, c < 4 → j < 2 ^ 19 →
              t.ep? c j = if c = d ∧ j = i then (u.ep? c j).map fun y => { y with hit := true } else u.ep? c j)
          ∧ (e.static = false → e.leaf ≠ a.leaf → home → learn fun t => slot t i none)
          ∧ (e.static = false → e.leaf ≠ a.leaf → ¬home → learn fun t => slot t i (some { e with
              leaf := a.leaf, lport := a.lport, portValid := true, hit := true, moves := min (e.moves + 1) 0xFFFF }))))
      ∧ (aging → Completes .agingSweep s fun t => (∀ c i, c < 4 → i < 2 ^ 19 → t.ep? c i = swept c i)
          ∧ t.tables.foyer = ((s.tables.foyer.filter fun y => y.hit || !y.stale).map fun y => { y with hit := false, stale := !y.hit })
          ∧ t.tables = { s.tables with ep := t.tables.ep, foyer := t.tables.foyer }
          ∧ (∀ c, c < 4 → if s.dieAway c = true then t.rd FWD_AGE_STATUS.sweeps (fwdPage c) = s.rd FWD_AGE_STATUS.sweeps (fwdPage c)
             else t.rd FWD_AGE_STATUS.slot (fwdPage c) = 0 ∧ t.rd FWD_AGE_STATUS.sweeps (fwdPage c) = (s.rd FWD_AGE_STATUS.sweeps (fwdPage c) + 1) % 2 ^ 32)
          ∧ ChangesOnly [.tables] age s t)
      ∧ (¬aging → Completes .agingSweep s (Unchanged s))
      ∧ (s.rd FWD_LPM_SCRUB.period_ms (fwdPage d) ≠ 0 →
          ((∀ x ∈ bad, ¬listed x.1) → Completes (.lpmScrub die bad) s fun t => scrubbed t
            ∧ ChangesOnly [] (fun z => z = FWD_LPM_STATUS.scrub_passes.key (fwdPage d) 0) s t)
          ∧ (Completes (.lpmScrub die bad) s fun t => scrubbed t
            ∧ t.tables = { s.tables with lpm := s.tables.lpm.filter fun e => !bad.contains (e.1, true) }
            ∧ (∀ c, c < 4 → (∃ x ∈ bad, x.2 = true ∧ listed x.1) → t.rd FWD_LPM_STATUS.entries (fwdPage c) = t.tables.lpm.length % 2 ^ 15)
            ∧ ChangesOnly [.mgmt, .rel, .tables] (onPages (ctlPkgPage :: diePagesOf fwdPage)) s t)
          ∧ (∀ i both, bad = [(i, both)] → listed i → Completes (.lpmScrub die bad) s fun t =>
            t.rd PG_ERR_COUNT.count (fwdPage d) = min (s.rd PG_ERR_COUNT.count (fwdPage d) + 1) (2 ^ 48 - 1)
            ∧ bit (t.rd PG_IRQ_RAW.block_irq (fwdPage d)) 3 = true))
      ∧ (s.rd FWD_LPM_SCRUB.period_ms (fwdPage d) = 0 → Completes (.lpmScrub die bad) s (Unchanged s))

/-- A decay halves every A_i of the die. An update adds to each bucket its rate over 80 ns, between -9,236 bytes and its burst, and from then
on the rates are those the registers hold. An entry change shows the states and the entry in force at T0. A permitted change request while
a change pends is an error 0x0006; a list that fails R213 is refused with its reason and an interrupt; a conforming one pends at its base,
or at the first cycle start of the admin list at least 10 us ahead. A cancel ends it. At the change time the admin list as the request
took it becomes the port's operational list, and no other port's. A sample in time writes one 64-byte record for each sampled port that
the plan and its breakout put in service at the producer index on, with the producer moved past them, and no other byte of memory; a late
one, and any on a die whose LPDDR6 is not used, is skipped, counted, with its interrupt. (R184, R207, R211, R213, R214, R216) -/
def Obligations.BucketsGatesAndSamples : Prop :=
  ∀ (s : State) (die : Fin 4) (p : Fin 512) (who : Fin 64) (late : Bool),
    let d := die.val
    let a := schPage p.val
    let b := schDiePage d
    let status := fun k => pageOf k = a ∧ offOf k = 0x350
    let pending := s.flag SCH_GATE_STATUS.change_pending a
    let admin := s.adminGates p.val
    let why := gateCheck admin
    let least := s.nowNs + 10000
    let start := if least ≤ admin.base then admin.base else admin.base + cdiv (least - admin.base) admin.cycle * admin.cycle
    let inForce := fun (t : State) (g : GateList) => t.rd SCH_GATE_STATUS.oper_states a = (g.at s.nowNs).1 % 2 ^ 8
      ∧ t.rd SCH_GATE_STATUS.oper_entry a = (g.at s.nowNs).2 % 2 ^ 9
    let ls := (List.range 512).filter fun i =>
      s.lportPlanned (512 * d + i) && bit (s.rd SCH_TEL_PORTS.ports b (i / 4 / 64)) (i / 4 % 64)
    let k := s.rd SCH_TEL_PRODUCER.producer b
    let at_ := fun j : Nat => telemetryBase d + (k + j) % 2 ^ 25 * 64
    let telemetry := fun z => pageOf z = b ∧ (offOf z = 0x118 ∨ offOf z = 0x120)
    let skipped := fun z => shared z ∨ pageOf z = b ∧ (offOf z = 0x120 ∨ offOf z = 0x18)
    Completes (.sprayDecay die) s (fun t => (∀ x, Sparse.get 0 t.sw.spray x =
          if x / 8192 = d then Sparse.get 0 s.sw.spray x / 2 else Sparse.get 0 s.sw.spray x)
        ∧ t.sw = { s.sw with spray := t.sw.spray } ∧ ChangesOnly [.sw] (fun _ => False) s t)
      ∧ Completes .tokenBucketUpdate s (fun t =>
          (∀ x, t.tokens x = min ((s.bucketCfg x).burst : Int) (max tokenFloor (s.tokens x + ((s.bucketCfg x).add : Nat))))
            ∧ (∀ x, t.rateNow x = (s.bucketCfg x).add)
            ∧ t.sw = { s.sw with buckets := t.sw.buckets, rates := t.sw.rates } ∧ ChangesOnly [.sw] (fun _ => False) s t)
      ∧ Completes (.gateEntryChange p) s (fun t => inForce t (s.gates p.val) ∧ ChangesOnly [] status s t)
      ∧ (s.writes who.val a 0x348 → pending = true → Completes (.gateChangeRequest who p) s fun t =>
          t.rd PG_ERR_COUNT.count a = min (s.rd PG_ERR_COUNT.count a + 1) (2 ^ 48 - 1)
            ∧ (s.flag PG_ERR_FIRST.valid a = false → t.rd PG_ERR_FIRST.code a = 0x0006 ∧ t.rd PG_ERR_FIRST.session a = who.val)
            ∧ ChangesOnly [.mgmt] (fun z => shared z ∨ isIrq a z ∨ isErr a z) s t)
      ∧ (s.writes who.val a 0x348 → pending = false → why ≠ 0 → Completes (.gateChangeRequest who p) s fun t =>
          t.rd SCH_GATE_STATUS.refusal a = why ∧ t.flag SCH_GATE_STATUS.change_pending a = false ∧ bit (t.rd PG_IRQ_RAW.block_irq a) 1 = true
            ∧ ChangesOnly [.mgmt] (fun z => shared z ∨ isIrq a z ∨ status z) s t)
      ∧ (s.writes who.val a 0x348 → pending = false → why = 0 → Completes (.gateChangeRequest who p) s fun t =>
          t.flag SCH_GATE_STATUS.change_pending a = true ∧ t.rd SCH_GATE_CHANGE_TIME.seconds a = start / 1000000000 % 2 ^ 34
            ∧ t.rd SCH_GATE_CHANGE_TIME.nanoseconds a = start % 1000000000 ∧ admin.base ≤ start ∧ least ≤ start
            ∧ t.nextGates p.val = some (admin, start) ∧ (∀ q, q ≠ p.val → t.nextGates q = s.nextGates q)
            ∧ t.sw = { s.sw with nextGates := t.sw.nextGates }
            ∧ (start - admin.base) % admin.cycle = 0 ∧ ChangesOnly [.sw] (fun z => status z ∨ pageOf z = a ∧ offOf z = 0x358) s t)
      ∧ (s.writes who.val a 0x348 → Completes (.gateChangeCancel who p) s fun t => t.flag SCH_GATE_STATUS.change_pending a = false
          ∧ t.nextGates p.val = none ∧ (∀ q, q ≠ p.val → t.nextGates q = s.nextGates q) ∧ t.sw = { s.sw with nextGates := t.sw.nextGates }
          ∧ ChangesOnly [.sw] status s t)
      ∧ (∀ g ct, s.nextGates p.val = some (g, ct) → Completes (.gateChangeTime p) s fun t => t.gates p.val = g ∧ (∀ q, q ≠ p.val → t.gates q = s.gates q)
          ∧ t.nextGates p.val = none ∧ (∀ q, q ≠ p.val → t.nextGates q = s.nextGates q)
          ∧ t.sw = { s.sw with gates := t.sw.gates, nextGates := t.sw.nextGates } ∧ t.flag SCH_GATE_STATUS.change_pending a = false
          ∧ t.flag SCH_GATE_STATUS.oper_enable a = g.enable ∧ t.rd SCH_GATE_OPER_CYCLE.cycle_ns a = g.cycle % 2 ^ 30 ∧ inForce t g
          ∧ bit (t.rd PG_IRQ_RAW.block_irq a) 0 = true
          ∧ ChangesOnly [.mgmt, .sw] (fun z => shared z ∨ isIrq a z ∨ status z ∨ pageOf z = a ∧ offOf z = 0x360) s t)
      ∧ (s.nextGates p.val = none → Completes (.gateChangeTime p) s (Unchanged s))
      ∧ (s.rd SCH_DIE_CFG.sample_us b = 0 → Completes (.queueSample die late) s (Unchanged s))
      ∧ (s.rd SCH_DIE_CFG.sample_us b ≠ 0 → (late = true ∨ bit s.boot.lpUnused d = true) → Completes (.queueSample die late) s fun t =>
          t.rd SCH_TEL_STATUS.skipped b = (s.rd SCH_TEL_STATUS.skipped b + 1) % 2 ^ 32 ∧ bit (t.rd PG_IRQ_RAW.block_irq b) 0 = true
            ∧ ChangesOnly [.mgmt] skipped s t)
      ∧ (s.rd SCH_DIE_CFG.sample_us b ≠ 0 → late = false → bit s.boot.lpUnused d = false → Memory.wf s.mem = true → Completes (.queueSample die late) s fun t =>
          (∀ j, j < ls.length → Memory.readN t.mem (at_ j) 64 = s.sampleRecord ((k + j) % 2 ^ 64) (512 * d + ls.getD j 0))
            ∧ (∀ x, (∀ j, j < ls.length → x < at_ j ∨ at_ j + 64 ≤ x) → Memory.read t.mem x = Memory.read s.mem x)
            ∧ t.rd SCH_TEL_PRODUCER.producer b = (k + ls.length) % 2 ^ 64 ∧ t.rd SCH_TEL_STATUS.last_records b = ls.length
            ∧ Memory.wf t.mem = true ∧ ChangesOnly [.mem] telemetry s t)

/-- An instruction that its context issues, with its steps not used up and no pass outstanding that it must wait for (R329: END and SYNC any,
another where byte ranges meet or 16 operations are outstanding), completes: rd holds the value of R322 modulo 2^64, with every ALU
function but the reserved ones given by its BitVec operation, a reserved one a free value (log 3); a branch goes to its target where its
registers compare, and else on; LDW reads the window quadword at ra + 8 x imm and STW stores it, 8-aligned and inside the window; SPCFG
configures its port with the position at its offset, TDEF binds its handle. Nothing else of the activation, the landing, the core, or any
other piece of state changes. (R9, R317, R318, R320, R321, R322, R329) -/
def Obligations.ScalarInstructionsRetire : Prop :=
  ∀ (s : State) (core : Fin 32) (ctx : Fin 4) (w : Nat) (a : Activation) (e : Entry) (l : Landing) (find : Find),
    s.issues core.val ctx.val w a e l → s.mayIssue core.val ctx.val w a e l →
    let go := fun (op : Nat) (cmd : Instr) (b : Activation) (m : Landing) => opOf w = op → Retires cmd s core.val ctx.val a.event.key e b m
    let on := a.pc + 1
    let reg := fun i : Nat => Sparse.get 0 a.s i % 2 ^ 64
    let d := rdOf w
    let x := reg (raOf w)
    let y := reg (rbOf w)
    let imm := bits w 0 16
    let simm := ((BitVec.ofNat 16 imm).signExtend 64).toNat
    let bx := BitVec.ofNat 64 x
    let by_ := BitVec.ofNat 64 y
    let k := y % 64
    let functions : List (BitVec 64) := [bx + by_, bx - by_, bx &&& by_, bx ||| by_, bx ^^^ by_, bx <<< k, bx >>> k, bx.sshiftRight k, bx * by_,
      if x < y then 1 else 0, if bx.toInt < by_.toInt then 1 else 0, BitVec.ofNat 64 ((List.range 64).filter fun i => x.testBit i).length,
      BitVec.ofNat 64 (min x y), BitVec.ofNat 64 (max x y)]
    let lsb := bits w 10 6
    let width := bits w 4 6 + 1
    let at_ := (x + 8 * imm) % 2 ^ 64
    let inside := at_ % 8 = 0 ∧ at_ + 8 ≤ l.size
    let to_ := fun b : Bool => a.next (if b then bits w 0 9 else on)
    let p := bits w 23 3
    let q := reg (bits w 18 5)
    go 0x00 (.flightNop core ctx) (a.next on) l ∧ go 0x02 (.sync core ctx) (a.next on) l
      ∧ go 0x03 (.li core ctx) (a.result d simm) l ∧ go 0x04 (.lsi core ctx) (a.result d (reg d * 65536 + imm)) l
      ∧ go 0x05 (.addi core ctx) (a.result d (x + simm)) l
      ∧ go 0x06 (.shli core ctx) (a.result d (x * 2 ^ bits w 0 6)) l ∧ go 0x07 (.shri core ctx) (a.result d (x / 2 ^ bits w 0 6)) l
      ∧ (∀ v, functions[bits w 0 4]? = some v → go 0x08 (.alu core ctx) (a.result d v.toNat) l)
      ∧ (14 ≤ bits w 0 4 → go 0x08 (.alu core ctx) (a.result d s.free) l)
      ∧ go 0x09 (.fld core ctx) (a.result d (bits x lsb width)) l
      ∧ (lsb + width ≤ 64 → ∀ v, v < 2 ^ 64 → (∀ i, i < 64 → v.testBit i = if lsb ≤ i ∧ i < lsb + width then x.testBit (i - lsb) else (reg d).testBit i) →
          go 0x0A (.fins core ctx) (a.result d v) l)
      ∧ (inside → (∀ n, find ≠ .uncorrectable n) → go 0x0B (.ldw core ctx find) (a.result d (leNat (Memory.readN l.window at_ 8))) l)
      ∧ (inside → go 0x0C (.stw core ctx) (a.next on) { l with window := Memory.writeN l.window at_ (natLe 8 (reg d)) })
      ∧ go 0x0D (.beq core ctx) (to_ (reg d == x)) l ∧ go 0x0E (.bne core ctx) (to_ (reg d != x)) l
      ∧ go 0x0F (.bltu core ctx) (to_ (decide (reg d < x))) l ∧ go 0x10 (.bgeu core ctx) (to_ (decide (x ≤ reg d))) l
      ∧ go 0x11 (.beqi core ctx) (to_ (reg d == bits w 13 8)) l ∧ go 0x12 (.bnei core ctx) (to_ (reg d != bits w 13 8)) l
      ∧ go 0x13 (.jmp core ctx) (to_ true) l
      ∧ go 0x18 (.spcfg core ctx) { a.next on with sp := Sparse.set a.sp p ⟨if p = 7 then .out else if bit q 32 then .area else .window, bits q 33 4,
          bit q 37, false, bits q 0 32, 0, 0, bits q 40 24⟩ } l
      ∧ go 0x19 (.tdef core ctx) { a.next on with t := Sparse.set a.t p q } l

/-- For every row of the flight instruction set: where a context issues that row's instruction, with no pass outstanding that it waits for (a
PASS also with room for it), and as many instructions as CMB_CFG.max_steps have been issued before it, the instruction has no effect and
its activation faults: CMB_FAULT records reason STEPS (7) with its slot and pc, CMB_FAULT_WORD the instruction and one fault more, and
flight_fault is set; no context of the landing's core goes on with the landing. With max_steps = 0 the condition holds at the first
instruction of every activation. (R331) -/
def Obligations.FlightsStopAtMaxSteps : Prop :=
  ∀ (s : State) (core : Fin 32) (ctx : Fin 4) (w : Nat) (a : Activation) (e : Entry) (l : Landing) (find : Find) (eng : Fin 2),
    let instructions : List (Nat × Instr) := [(0x00, .flightNop core ctx), (0x01, .flightEnd core ctx), (0x02, .sync core ctx), (0x03, .li core ctx),
      (0x04, .lsi core ctx), (0x05, .addi core ctx), (0x06, .shli core ctx), (0x07, .shri core ctx), (0x08, .alu core ctx), (0x09, .fld core ctx),
      (0x0A, .fins core ctx), (0x0B, .ldw core ctx find), (0x0C, .stw core ctx), (0x0D, .beq core ctx), (0x0E, .bne core ctx), (0x0F, .bltu core ctx),
      (0x10, .bgeu core ctx), (0x11, .beqi core ctx), (0x12, .bnei core ctx), (0x13, .jmp core ctx), (0x18, .spcfg core ctx), (0x19, .tdef core ctx),
      (0x1A, .vld core ctx find), (0x1B, .vst core ctx), (0x1C, .vbin core ctx find), (0x1D, .vcvt core ctx find), (0x1E, .vquant core ctx find),
      (0x20, .xadd core ctx find eng), (0x21, .xround core ctx find eng), (0x24, .pass core ctx), (0x28, .fsend core ctx)]
    let page := cmbPage core.val
    s.issues core.val ctx.val w a e l → (∀ y ∈ (s.core core.val).ctxs, y.1 = ctx.val → y.2 = a) →
    (s.runOf core.val ctx.val a e l).mustWait w = false → s.passWaits core.val ctx.val = false →
    s.rd CMB_CFG.max_steps page ≤ a.steps →
    ∀ p ∈ instructions, opOf w = p.1 → Completes p.2 s fun t =>
      t.rd CMB_FAULT.reason page = 7 ∧ t.rd CMB_FAULT.slot page = a.slot % 64 ∧ t.rd CMB_FAULT.pc page = a.pc % 512
        ∧ t.rd CMB_FAULT_WORD.instruction page = w % 2 ^ 32 ∧ t.rd CMB_FAULT_WORD.count page = (s.rd CMB_FAULT_WORD.count page + 1) % 2 ^ 32
        ∧ bit (t.rd PG_IRQ_RAW.block_irq page) 0 = true
        ∧ (l.core = core.val → ∀ y ∈ (t.core core.val).ctxs, ¬(y.2.event.key = a.event.key ∧ y.2.event.die = a.event.die))

/-- Issued with its steps not used up, no pass outstanding that it must wait for, its operands readable, no residue found and no injection
armed, each completes, a count of 0 as a no-op (R9): VLD takes 1,024 codes into a vector register, VST stores its lanes; VBIN writes each
rounded result of its operation, or copies elements, blocks or WP elements as they are; VCVT writes each value rounded once under its
site's rule; VQUANT writes MX blocks at site 2 and, with r_valid, the differences; XADD adds elements (of the input format, or FP32
partials), WP elements or accumulator words at their positions, or combines running values, the first write storing, MX ones of MIN and
MAX kept exact beside their blocks (log entry 61); XROUND writes positions rounded, as WP elements, or as they stand (the model's choice,
log entry 61: what a HALL sends of an MX MIN or MAX is from then on the running value itself). The ports named advance past the elements,
the landing changes by the bytes stored alone, and no other context, core or entry changes. In FAST mode XADD faults with FORMAT, but for
sums of integers (log entry 60). That ELEMENT mode adds WP elements as accumulator words is the model's choice (log entry 32). (R9, R227,
R243, R244, R245, R247, R249, R319, R322, R323, R324, R325) -/
def Obligations.VectorAndExactInstructionsRetire : Prop :=
  ∀ (s : State) (core : Fin 32) (ctx : Fin 4) (w : Nat) (a : Activation) (e : Entry) (l : Landing) (find : Find) (eng : Fin 2),
    s.issues core.val ctx.val w a e l → s.mayIssue core.val ctx.val w a e l → (find = .ok ∨ ∃ x, find = .corrected x) →
    (s.core core.val).vecArm = [] → (s.core core.val).xseArm = [] →
    let run := fun f : Find => s.begun core.val ctx.val a e l f eng.val
    let r := run find
    let still := { run .ok with eng := 0 }
    let g := s.group a.event.key.group
    let goes := fun (cmd : Instr) (b : Activation) (m : Landing) => Retires cmd s core.val ctx.val a.event.key e b m
    let ends := fun (cmd : Instr) (q : Run) => goes cmd q.act q.lnd
    let reg := fun i : Nat => Sparse.get 0 a.s i % 2 ^ 64
    let port := fun (i : Nat) (x : Stream) => (a.sp.find? fun y => y.1 == i) = some (i, x)
    let p := bits w 23 3
    let q := bits w 20 3
    let v := bits w 18 3
    let cvt := r.grp.rounding
    (opOf w = 0x1A → ∀ x c, v ≠ 7 → port v x → fmtBits x.fmt ≤ 32 → { r with eng := 0 }.codes x 1024 = .ok c →
        goes (.vld core ctx find) { a.next (a.pc + 1) with v := Sparse.set a.v (bits w 21 5) c, sp := Sparse.set a.sp v (x.advance 1024 0) } l)
      ∧ (opOf w = 0x1B → ∀ y u, port v y → fmtBits y.fmt ≤ 32 →
          still.putCodes y ((List.range 1024).map fun k => (Sparse.get [] a.v (bits w 21 5)).getD k 0 % 2 ^ fmtBits y.fmt) = .ok u →
          ends (.vst core ctx) (u.pass v 1024 0))
      ∧ (opOf w = 0x1C →
          let n := reg (bits w 8 5)
          let op := bits w 4 4
          let ty := bits w 2 2
          let kind := bits w 13 2
          let b := bits w 15 5
          let k := { r with eng := 0 }
          (n = 0 → goes (.vbin core ctx find) (a.next (a.pc + 1)) l)
          ∧ (n ≠ 0 → ty < 3 → ∀ x y, q ≠ 7 → port q x → port p y →
            (op = 0 → x.fmt = y.fmt → x.mx = y.mx → x.acc = false →
              (x.mx = true → x.pos % 32 = 0 → ∀ c u, k.raw x n = .ok c → k.putBlocks y n c = .ok u → ends (.vbin core ctx find) (u.passAll [q, p] n))
              ∧ (x.mx = false → x.fmt = 14 → ∀ c u, k.wps x n = .ok c → k.putWps y c = .ok u →
                let t := u.pass q n c.flatten.length
                ends (.vbin core ctx find) (if q = p then t else t.pass p n c.flatten.length))
              ∧ (x.mx = false → x.fmt ≠ 14 → ∀ c u, k.codes x n = .ok c → k.putCodes y c = .ok u → ends (.vbin core ctx find) (u.passAll [q, p] n)))
            ∧ (0 < op → op ≤ 10 → y.fmt = typeFmt ty → y.mx = false → y.acc = false → ∀ va vb ks more vc u, k.operand ty x n = .ok va →
                k.vbinB ty op kind b n = .ok (vb, ks, more) → (op = 4 → p ≠ 7 ∧ k.codes y n = .ok vc) →
                k.putCodes y ((List.range n).map fun i =>
                  vbinResult op (typeFmt ty) (va.getD i 0) (vb.getD i 0) (if op = 4 then vc.getD i 0 else 0) (ks.getD i 0)) = .ok u →
                ends (.vbin core ctx find) (u.passAll (q :: p :: if kind = 0 then [b % 8] else []) n))))
      ∧ (opOf w = 0x1D →
          let n := reg (bits w 15 5)
          let site := bits w 9 2
          let mode := bits w 12 3
          let own := bit w 11
          let k := { r with eng := 0 }
          let hall := if site = 1 ∨ (site = 3 ∧ bit w 8 = true) then s.planHall else 0
          let by_ := RoundBy.mk (if site = 3 then mode else cvt) (if site = 3 then own else g.saturate) site hall (if bit w 7 then reg 9 else 1)
          (n = 0 → goes (.vcvt core ctx find) (a.next (a.pc + 1)) l)
          ∧ (n ≠ 0 → site ≠ 2 → (site = 3 ∧ mode ≤ 4 ∨ mode = 0 ∧ own = false) → ∀ x y c u o z b, q ≠ 7 → port q x → port p y → y.fixed = true →
              y.acc = false → k.vals x n = .ok c → k.putRounded by_ y (y.base + y.pos) 3 c = .ok (u, o, z) →
              (x.fmt ≠ 14 → b = 0) → (x.fmt = 14 → ∃ i, k.wps x n = .ok i ∧ b = i.flatten.length) →
              ends (.vcvt core ctx find) (if q = p then u.pass q n b else (u.pass q n b).pass p n 0)))
      ∧ (opOf w = 0x1E →
          let n := reg (bits w 11 5)
          let d := bits w 17 3
          let k := { r with eng := 0 }
          (n = 0 → goes (.vquant core ctx find) (a.next (a.pc + 1)) l)
          ∧ (n ≠ 0 → n % 32 = 0 → ∀ x y c u, q ≠ 7 → port q x → port p y → x.fmt = 1 → x.mx = false → x.acc = false → y.mx = true →
              k.vals x n = .ok c →
              let bs := k.blockAll ⟨cvt, g.saturate, 2, s.planHall, 1⟩ y.fmt (y.base + y.pos) c
              k.putBlocks y n (bs.flatMap fun b => b.bytes y.fmt) = .ok u →
              (bit w 16 = false → ends (.vquant core ctx find) ((u.pass p n 0).pass q n 0))
              ∧ (bit w 16 = true → ∀ z o, (u.pass p n 0).port d = .ok z → z.fmt = 1 → z.mx = false → z.acc = false →
                let dec := bs.flatMap fun b => b.codes.map fun j => if b.scale = 0xFF then Val.nan else mxVal y.fmt b.scale j
                (u.pass p n 0).putCodes z ((List.range n).map fun i => match dec.getD i .nan with
                  | .nan => 0
                  | j => toType 0 (addVal rNearest (c.getD i .nan) (negVal j))) = .ok o →
                ends (.vquant core ctx find) (o.passAll [q, d] n))))
      ∧ (opOf w = 0x20 →
          let off := reg (bits w 18 5)
          let n := reg (bits w 13 5)
          let kind := bits w 11 2
          let cmd := Instr.xadd core ctx find eng
          let size := g.accSize
          let run0 := Stream.mk .window g.inFmt g.inMx false 0 off 0 0
          (n = 0 → goes cmd (a.next (a.pc + 1)) l)
          ∧ (n ≠ 0 → g.mode = mFast → g.exactSums = false → Completes cmd s fun t => t.rd CMB_FAULT.reason (cmbPage core.val) = 4)
          ∧ (n ≠ 0 → (g.mode ≠ mFast ∨ g.exactSums = true) → kind ≠ 3 → ∀ x, p ≠ 7 → port p x →
            let own := x.fmt = g.inFmt ∧ x.mx = g.inMx
            let partial_ := (x.fmt, x.mx) = g.partFmt
            let summed := fun (new : List (Accum × Bool)) (b : Nat) => goes cmd (r.pass p n b).act
              { l with window := Memory.writeN l.window (off * size) (new.flatMap fun y => natLe size (y.1.word g.wide)) }
            (g.sums = true → ∀ old, r.accums off n = .ok old →
              (kind = 0 → x.fmt ≠ 14 → x.acc = false → own ∨ (x.fmt, x.mx) = (1, false) ∧ partial_ → ∀ c, r.vals x n = .ok c →
                summed (List.zipWith (fun y z => y.add g.inFmt g.inMx (!decide own) z) old c) 0)
              ∧ ((kind = 1 ∨ kind = 0 ∧ (own ∨ partial_)) → x.fmt = 14 → x.acc = false → x.mx = false → ∀ c, r.wps x n = .ok c →
                summed (List.zipWith (fun y z => y.addWp g.inFmt g.inMx (Wp.read z).1) old c) c.flatten.length)
              ∧ (kind = 2 → x.acc = true → ∀ c, r.raw x n = .ok c → summed ((List.range n).map fun i =>
                ((old.getD i ⟨0, false, false, false, false, false⟩).merge (Accum.ofWord g.wide (leNat (slice c (i * size) size))), false)) 0))
            ∧ (g.sums = false → kind ≠ 1 → x.acc = false → own →
              let runs := fun u : Run => goes cmd (u.pass p n 0).act { u.lnd with written := Nat.lor u.lnd.written ((2 ^ n - 1) * 2 ^ off) }
              (x.mx = false → ∀ old new u, r.codes run0 n = .ok old → r.codes x n = .ok new → r.putCodes run0 ((List.range n).map fun i =>
                if bit l.written (off + i) then combineCode g.op x.fmt (old.getD i 0) (new.getD i 0) else keepCode g.op x.fmt (new.getD i 0)) = .ok u → runs u)
              ∧ (x.mx = true → off % 32 = 0 → x.pos % 32 = 0 → ∀ old new u, r.raw run0 n = .ok old → r.raw x n = .ok new →
                let b := mxBlockBytes x.fmt
                let given := if x.space = .input then a.event.runs else []
                let came := fun i => runsAt given x.fmt g.rounding (r.runDraw (x.pos + 32 * i)) (x.pos + 32 * i) (slice new (i * b) b)
                let had := fun i => runsAt l.runs x.fmt g.rounding (r.runDraw (off + 32 * i)) (off + 32 * i) (slice old (i * b) b)
                let kept := fun i => if bit l.written (off + 32 * i) then List.zipWith (combineRun g.op x.fmt) (had i) (came i) else came i
                let image := fun i => if bit l.written (off + 32 * i) then (runBlock x.fmt g.rounding (r.runDraw (off + 32 * i)) (kept i)).bytes x.fmt
                  else slice new (i * b) b
                let blocks := List.range (cdiv n 32)
                (¬(g.op = opMin ∨ g.op = opMax) → r.putBlocks run0 n (blocks.flatMap fun i => if bit l.written (off + 32 * i) then
                  combineBytes g.op (slice old (i * b) b) (slice new (i * b) b) else slice new (i * b) b) = .ok u → runs u)
                ∧ ((g.op = opMin ∨ g.op = opMax) → r.putBlocks run0 n (blocks.flatMap image) = .ok u →
                  runs { u with lnd := { u.lnd with runs := blocks.foldl (fun m i => (kept i).zipIdx.foldl (fun m v =>
                    Sparse.set m (off + 32 * i + v.2) v.1) m) l.runs } })))))
      ∧ (opOf w = 0x21 →
          let off := reg (bits w 18 5)
          let n := reg (bits w 13 5)
          let target := bits w 11 2
          let cmd := Instr.xround core ctx find eng
          let run0 := Stream.mk .window g.inFmt g.inMx false 0 off 0 0
          (n = 0 → goes cmd (a.next (a.pc + 1)) l)
          ∧ (n ≠ 0 → target ≠ 3 → (target = 2 → g.exactSums = true) → g.sums = true → ∀ c y u,
            (if g.exactSums then ∃ old, r.accums off n = .ok old ∧ c = old.map fun z => z.val g.inFmt g.inMx
              else r.vals ⟨.window, if g.inFmt = 0 then 0 else 1, false, false, 0, off, 0, 0⟩ n = .ok c) →
            let f := if target = 0 then g.resFmt else if target = 1 then 1 else 14
            let mx := target == 0 && g.resMx
            let mean := target = 0 ∧ g.op = opMean
            let by_ := RoundBy.mk g.rounding g.saturate (if target = 0 then 0 else if g.mode = mSplit then 1 else 3)
              (if target = 0 then 0 else s.planHall) (if mean then e.members else 1)
            (f = 14 → r.xdest p 14 false = .ok y →
              let out := c.map fun z => wpWrite (e.wpMembers (a.event.code == 5)) z
              r.putWps y out = .ok u → ends cmd (u.pass p n out.flatten.length))
            ∧ (f ≠ 14 → r.xdest p f mx = .ok y →
              (mx = true → r.putBlocks y n ((r.blockAll by_ f off c).flatMap fun b => b.bytes f) = .ok u → ends cmd (u.pass p n 0))
              ∧ (mx = false → r.putCodes y ((r.roundAll by_ f off c).map fun z => z.code) = .ok u → ends cmd (u.pass p n 0))))
          ∧ (n ≠ 0 → target = 0 → g.sums = false → ∀ y c u, r.xdest p g.inFmt g.inMx = .ok y →
            (g.inMx = false → r.codes run0 n = .ok c → r.putCodes y (c.map (keepCode g.op g.inFmt)) = .ok u → ends cmd (u.pass p n 0))
            ∧ (g.inMx = true → off % 32 = 0 → ∀ raw, r.raw run0 n = .ok raw →
              let b := mxBlockBytes g.inFmt
              let gone := fun q : Nat => a.event.code == 3 && decide (off ≤ q) && decide (q < off + 32 * cdiv n 32)
              let k := { r with lnd := { r.lnd with runs := Sparse.delIf l.runs gone } }
              (¬(g.op = opMin ∨ g.op = opMax) → r.putBlocks y n raw = .ok u → ends cmd (u.pass p n 0))
              ∧ ((g.op = opMin ∨ g.op = opMax) → k.putBlocks y n ((List.range (cdiv n 32)).flatMap fun i =>
                  (runBlock g.inFmt g.rounding (r.runDraw (off + 32 * i)) (runsAt l.runs g.inFmt g.rounding (r.runDraw (off + 32 * i)) (off + 32 * i)
                    (slice raw (i * b) b))).bytes g.inFmt) = .ok u → ends cmd (u.pass p n 0)))))

/-- The first waiting event whose landing runs nothing starts in the lowest free context, with the registers of R317, sp0 its input, and
everything else clear; the slot's number counts it, loaded or not. A slot that is not loaded faults with SLOT_EMPTY, and a CLAIM of
another job's slot with JOB. An FSEND that R327 allows sends one frame of its payload and header, takes its treads from the landing's
reservation and clears sp7; a partial marks its entry as sent, and an FSEND that R327 does not allow faults with FRAME. An END with no
chain open frees the context: after CONTRIB, MERGE or FRAGMENT the landing counts one open input less, and the input's frame is released,
or after MERGE the die landing it came from is freed; after HALL a head is in GALLERY with its held fragments dispatched in order, and a
relay's entry becomes a tombstone; after EMIT the entry becomes a tombstone. An END with a chain open faults with OPERAND. The tables
stay, and device memory where no group writes lag records. (R272, R274, R283, R314, R315, R316, R317, R327, R330, R332) -/
def Obligations.ActivationsStartSendAndEnd : Prop :=
  ∀ (s : State) (core : Fin 32) (ctx : Fin 4),
    let c := core.val
    let x := s.core c
    let kept := fun (l : List Piece) (t : State) => ∀ y, y ∉ l → y.same s t
    let noLag := ∀ i, (s.group i).lag = false
    let faults := fun (cmd : Instr) (why : Nat) => Completes cmd s fun t => t.rd CMB_FAULT.reason (cmbPage c) = why
      ∧ bit (t.rd PG_IRQ_RAW.block_irq (cmbPage c)) 0 = true ∧ t.tables = s.tables ∧ (noLag → t.mem = s.mem)
    let start := Instr.activationStart core
    let waiting := x.events.find? fun v => !x.running v
    let free := (List.range 4).find? fun i => !Sparse.has x.ctxs i
    ((waiting = none ∨ free = none) → Completes start s (Unchanged s))
      ∧ (∀ v i e l, waiting = some v → free = some i → s.live? v.key = some e → e.on? v.die = some l →
        let g := s.group v.key.group
        let slot := x.slots.find? fun y => y.1 == g.flight
        let regs := [v.code, v.s1, v.s2, v.s3, e.countOf (v.code != 3), g.chunkElements, g.k, g.rank v.key.origin, s.planHall, e.members, l.size, g.g 2, g.g 3,
          g.g 4, g.fragElems, g.resElems, g.g 5]
        let counted := fun t : State => ∀ j, Sparse.get 0 (t.core c).uses j = if j = g.flight then (Sparse.get 0 x.uses j + 1) % 2 ^ 32 else Sparse.get 0 x.uses j
        (slot = none → faults start 1 ∧ Completes start s counted)
        ∧ (∀ n f, slot = some (n, f) → v.code = 0 → f.job ≠ g.job → faults start 2)
        ∧ (∀ n f, slot = some (n, f) → (v.code = 0 → f.job = g.job) → Completes start s fun t =>
            (∃ b, ((t.core c).ctxs.find? fun y => y.1 == i) = some (i, b) ∧ b.event = v ∧ b.slot = g.flight ∧ b.pc = 0 ∧ b.steps = 0
              ∧ (∀ j, Sparse.get 0 b.s j = regs.getD j 0) ∧ b.v = [] ∧ b.t = [] ∧ b.sp = [(0, v.sp0)] ∧ b.out = [] ∧ b.outCount = 0
              ∧ b.outFmts = [] ∧ b.chain = false ∧ b.sent = 0)
            ∧ (∀ j, j ≠ i → ((t.core c).ctxs.find? fun y => y.1 == j) = x.ctxs.find? fun y => y.1 == j)
            ∧ (t.core c).events = x.events.erase v
            ∧ (t.core c).slots = x.slots ∧ counted t ∧ (t.core c).array = x.array ∧ (∀ y, y ≠ c → t.core y = s.core y) ∧ ChangesOnly [.cores] isCtr s t))
      ∧ (∀ w a e l, s.issues c ctx.val w a e l → s.mayIssue c ctx.val w a e l →
        let k := a.event.key
        let g := s.group k.group
        let r := s.begun c ctx.val a e l .ok 0
        let reg := fun i : Nat => Sparse.get 0 a.s i % 2 ^ 64
        let fsend := Instr.fsend core ctx
        let end_ := Instr.flightEnd core ctx
        let kind := bits w 24 2
        let first := reg (bits w 19 5)
        let n := reg (bits w 14 5)
        let result := kind == 1
        let m := frameTreads a.out.length
        let allowed := kind < 2 ∧ l.kind ≠ .die ∧ (kind = 1 → l.kind = .head) ∧ (kind = 0 → l.kind = .relay ∨ g.k ≠ 1)
          ∧ r.payloadOk (if result then (g.resFmt, g.resMx) else g.partFmt) n = true ∧ g.fragOk result (e.countOf result) first n = true ∧ m ≤ l.treads
        let gone := fun t : State => ((t.core c).ctxs.find? fun y => y.1 == ctx.val) = none
          ∧ ∀ j, j ≠ ctx.val → a.event.code ≠ 2 ∧ a.event.code ≠ 3 ∧ a.event.code ≠ 5 → ((t.core c).ctxs.find? fun y => y.1 == j) = x.ctxs.find? fun y => y.1 == j
        let ends := fun (l : List Piece) (P : State → Prop) => opOf w = 0x01 → a.chain = false → Completes end_ s fun t => gone t ∧ P t ∧ kept l t
        (opOf w = 0x28 → (¬allowed ∨ s.boot.plan = none) → faults fsend 8)
        ∧ (opOf w = 0x28 → allowed → ∀ pl, s.boot.plan = some pl →
          let hs := r.sendTo pl result first
          let dst := match hs with
            | h :: _ => h.fea
            | [] => s.ownFea 1
          let u := hjtFrame (s.fabricAddr dst) (s.fabricAddr (s.ownFea 1)) (if result then 2 else 1) 64
            (s.rd SWP_PARSE_CFG.hjt_port (swpPage 0)) (r.sendHeader result (e.countOf result) first) a.out
          let b := { a.next (a.pc + 1) with out := [], outCount := 0, outFmts := [], sent := a.sent + a.out.length }
          Completes fsend s fun t => ((t.core c).ctxs.find? fun y => y.1 == ctx.val) = some (ctx.val, b)
            ∧ (∀ f, t.frame? s.sw.nextId = some f → f.bytes = u ∧ f.own = true ∧ f.die = l.die) ∧ s.sw.nextId < t.sw.nextId
            ∧ (l.kind = .head → Advanced s t c ctx.val k { e with sent := e.sent || !result } b { l with treads := l.treads - m }
                [.coll, .cores, .mgmt, .sw])
            ∧ (noLag → t.mem = s.mem))
        ∧ (opOf w = 0x01 → a.chain = true → faults end_ 5)
        ∧ (a.event.code = 0 → ends [.coll, .cores, .mgmt, .sw] fun t => t.live? k = some (e.setLanding l))
        ∧ (let less := e.setLanding { l with open_ := l.open_ - 1 }
          let merging := fun o : Landing => a.event.code = 2 ∧ e.on? a.event.s3 = some o ∧ o.state = .merge
          (a.event.code = 1 ∨ a.event.code = 2 ∨ a.event.code = 4 → (∀ o, ¬merging o) → ends [.coll, .cores, .mgmt, .sw] fun t =>
            t.live? k = some less ∧ ∀ id, a.event.frame = some id → Released s t id)
          ∧ ∀ o, merging o → ends [.coll, .cores, .mgmt, .sw] fun t =>
              t.live? k = some { less with landings := less.landings.filter fun y => y.die != a.event.s3 })
        ∧ (a.event.code = 3 → l.kind ≠ .relay → e.head? = some l → a.event.frame = none → (∀ f ∈ e.heldFrags, (s.frame? f.id).isSome = true) →
            ends [.coll, .cores] fun t =>
              t.live? k = some { e.setLanding { l with state := .gallery, stage := if l.stage = .held then .writeBack else l.stage,
                                                       open_ := l.open_ + e.heldFrags.length } with heldFrags := [] }
                ∧ (t.core l.core).events = (s.core l.core).events ++ (e.heldFrags.map fun f =>
                    fragmentEvent k g l.die f.id ((s.frame? f.id).elim [] fun y => y.bytes)))
        ∧ ((a.event.code = 3 ∧ l.kind = .relay ∨ a.event.code = 5) → ends [.coll, .cores, .mgmt, .sw] fun t => t.live? k = none
            ∧ ((∀ y ∈ s.coll.dir, y.key = k → y = e) → ∃ y, t.entry? k = some y ∧ y.key = k ∧ y.written = true ∧ y.landings = []
              ∧ y.tomb = some (s.now + ((s.group k.group).timeout * 10000 + 1000000)))))

/-- A PASS with no fault and room queues its one pass, or the three of its split or complex product, and opens or closes its chain; M or N
above 128 faults with OPERAND; a zero size is a no-op; a PASS that goes not on with its open chain faults with OPERAND (log entry 62); one
for which the queue has no room, or that another activation's chain or an outstanding pass holds back, waits, nothing changed but counts.
At full duty the next queued pass takes its bank, that of its chain or the free one not used last, and its cells hold the products added;
a bank not free makes it wait, and a chained pass with no bank of its slot's is abandoned with reason TAG. A drain writes the oldest
draining bank's tile to its destinations in the landing window, frees the bank and counts it. With filler_enable a filler pass in a gap is
counted, and a wrong tile recorded, or a mismatch that the hardware or an armed cell shows. The duty falls by 2 from 2 us of a gap on and
rises by 8 while a pass waits. A permitted write of an inject register with arm 1 arms what it names beside what is armed. Other cores,
entries and memory stay. Bank choice and draws of a drain are the model's readings (logs 3, 31, 62). (R262, R297, R298, R300, R301, R304,
R306, R308, R309, R326, R330) -/
def Obligations.ArraysRunTheirPasses : Prop :=
  ∀ (s : State) (core : Fin 32) (ctx : Fin 4) (find : Find) (good : Bool) (who : Fin 64) (value : BitVec 64),
    let c := core.val
    let page := arrPage c
    let x := s.core c
    let y := x.array.boundary s.now
    let kept := fun (l : List Piece) (t : State) => (∀ j, j ≠ c → t.core j = s.core j) ∧ ∀ z, z ∉ l → z.same s t
    let arrays := fun (l : List Piece) (t : State) (z : Array_) => t.core c = { x with array := z } ∧ kept l t
    let clean := (find = .ok ∨ ∃ n, find = .corrected n) ∧ x.arrArm = []
    let duty := s.rd ARR_STATUS.duty page
    let startIt := Instr.arrayPassStart core find
    let drain := Instr.arrayDrain core find
    let filler := Instr.fillerPass core ⟨good, find⟩
    let gap := s.inGap c = true ∧ duty ≠ 0
    let on := s.flag ARR_CFG.filler_enable page
    let noResidue := ∀ row col u z o p q, find ≠ .residue row col u z o p q
    let unarmed := ∀ z ∈ x.arrArm, 2 < z.2.2
    let fills := fun t : State => t.rd ARR_FILLER.filler_passes page = (s.rd ARR_FILLER.filler_passes page + 1) % 2 ^ 32
    let v := value.toNat
    let armed := fun (cmd : Instr) (off pg : Nat) (z : Core) => s.writes who.val pg off →
      (bit v 0 = true → Completes cmd s fun t => t.core c = z ∧ (∀ j, j ≠ c → t.core j = s.core j) ∧ ChangesOnly [.cores] (fun _ => False) s t)
        ∧ (bit v 0 = false → Completes cmd s (Unchanged s))
    (∀ w a e l, s.issues c ctx.val w a e l → s.mayIssue c ctx.val w a e l → opOf w = 0x24 →
        let key := a.event.key
        let cmd := Instr.pass core ctx
        let q := Sparse.get 0 a.s (rdOf w) % 2 ^ 64
        let m := bits q 0 8
        let n := bits q 8 8
        let k := bits q 16 18
        let product := bits q 34 2
        let dr := bits q 36 2
        let r := s.begun c ctx.val a e l .ok 0
        (128 < m ∨ 128 < n → Completes cmd s fun t => t.rd CMB_FAULT.reason (cmbPage c) = 5)
        ∧ (m ≤ 128 → n ≤ 128 → product ≠ 3 → (m = 0 ∨ n = 0 ∨ k = 0) → Retires cmd s c ctx.val key e (a.next (a.pc + 1)) l)
        ∧ (a.chain = true → bit q 46 = false → m ≤ 128 → n ≤ 128 → 0 < m → 0 < n → 0 < k → product ≠ 3 →
            Completes cmd s fun t => t.rd CMB_FAULT.reason (cmbPage c) = 5)
        ∧ (s.passWaits c ctx.val = true → Completes cmd s (ChangesOnly [] isCtr s))
        ∧ (0 < m → 0 < n → 0 < k → s.passWaits c ctx.val = false → (∀ h, r.arrayPass w ≠ .error h) → Completes cmd s fun t =>
            ∃ ps : List PassReq, ps.length = (if product = 0 then 1 else 3)
              ∧ (∀ p ∈ ps, p.key = key ∧ p.die = l.die ∧ p.ctx = ctx.val ∧ p.pc = a.pc ∧ p.word = w ∧ p.m = m ∧ p.n = n ∧ p.k = k ∧ p.tag / 1024 = a.slot
                ∧ (p.bconst = bits w 6 2) ∧ ∃ i, (a.t.find? fun z => z.1 == bits w 18 3) = some (i, p.a0))
              ∧ (product = 0 → ∀ p ∈ ps, p.drain = dr ∧ p.chained = bit q 46 ∧ p.rounding = bits q 42 3 ∧ p.overflow = bit q 45 ∧ p.partA = .plain)
              ∧ t.core c = { x with
                array := { x.array with queue := x.array.queue ++ ps, seq := x.array.seq + ps.length }
                ctxs := Sparse.set x.ctxs ctx.val { a.next (a.pc + 1) with chain := decide (dr = 3) && product != 2 } }
              ∧ t.live? key = some (e.setLanding l) ∧ t.coll = { s.coll with dir := t.coll.dir } ∧ kept [.coll, .cores] t))
      ∧ ((x.array.queue = [] ∨ duty < 128) → Completes startIt s (Unchanged s))
      ∧ (∀ p rest, x.array.queue = p :: rest → 128 ≤ duty →
          (y.bankFor p = none ∨ ∃ b, y.bankFor p = some b ∧ p.chained = true ∧ (y.bank b).tag / 1024 ≠ p.tag / 1024) →
          Completes startIt s fun t => t.rd ARR_FAULT.reason page = 3)
      ∧ (∀ p rest l b, x.array.queue = p :: rest → 128 ≤ duty → y.bankFor p = some b → s.landing? p.key p.die = some l →
          let u := y.bank b
          (p.chained = false → u.state ≠ .free → Completes startIt s fun t => arrays [.cores] t y)
          ∧ (clean → (p.chained = true → u.tag / 1024 = p.tag / 1024) → (p.chained = false → u.state = .free) → Completes startIt s fun t =>
              arrays [.cores, .mgmt, .rel] t { y.setBank b (let z := if p.chained then { p with tag := u.tag } else p
                ⟨.accumulating, z.tag, some z, z.run l.window (if p.chained then u.values else []), u.since⟩) with
                queue := rest, last := if p.chained then y.last else b, gapAt := none, lastSlot := some ((if p.chained then u.tag else p.tag) / 1024) }))
      ∧ (
          let y := if x.array.drainBank.isSome then x.array else y
          (y.drainBank = none → Completes drain s fun t => arrays [.cores] t y)
          ∧ (∀ b p l, y.drainBank = some b → (y.bank b).pass = some p → s.landing? p.key p.die = some l → clean → Completes drain s fun t =>
              let win := (p.dests.foldl (fun q d => let o := p.writeTile s (y.bank b).values d q.1; (o.1, q.2 + o.2)) (l.window, 0)).1
              arrays [.coll, .cores, .mgmt, .rel] t (y.setBank b ⟨.free, (y.bank b).tag, none, [], (y.bank b).since⟩)
                ∧ t.landing? p.key p.die = some { l with window := win } ∧ (∀ j, j ≠ p.key → t.live? j = s.live? j)
                ∧ t.coll = { s.coll with dir := t.coll.dir }
                ∧ t.rd ARR_PASS_COUNT.completed page = (s.rd ARR_PASS_COUNT.completed page + 1) % 2 ^ 32))
      ∧ (¬gap → Completes filler s (Unchanged s))
      ∧ (gap → on = false → Completes filler s (Unchanged s))
      ∧ (gap → unarmed → noResidue → on = true → good = true → Completes filler s fun t => fills t
          ∧ ChangesOnly [] (fun z => isCtr z ∨ pageOf z = page ∧ offOf z = ARR_FILLER.filler_passes.off) s t)
      ∧ (gap → unarmed → noResidue → on = true → good = false → Completes filler s fun t => fills t
          ∧ t.rd ARR_FILLER.kat_fail page = (s.rd ARR_FILLER.kat_fail page + 1) % 2 ^ 32 ∧ t.rd ARR_FAULT.reason page = 4
          ∧ t.rd PG_ERR_COUNT.count page = min (s.rd PG_ERR_COUNT.count page + 1) (2 ^ 48 - 1)
          ∧ ChangesOnly [.mgmt, .rel] (onPages [page, ctlPkgPage]) s t)
      ∧ (∀ row col u z o p q, gap → on = true → find = .residue row col u z o p q → Completes filler s fun t => t.cores = s.cores
          ∧ t.rd ARR_FAULT.reason page = 1 ∧ t.rd ARR_FAULT.row page = row % 128 ∧ t.rd ARR_FAULT.column page = col % 128
          ∧ t.rd PG_ERR_COUNT.count page = min (s.rd PG_ERR_COUNT.count page + 1) (2 ^ 48 - 1) ∧ kept [.cores, .mgmt, .rel] t)
      ∧ (∀ before row col u rest, gap → on = true → (find = .ok ∨ ∃ n, find = .corrected n) → x.arrArm = before ++ (row, col, u) :: rest →
          (∀ z ∈ before, 2 < z.2.2) → u ≤ 2 → Completes filler s fun t => t.core c = { x with arrArm := before ++ rest }
          ∧ t.rd ARR_FAULT.reason page = 1 ∧ t.rd ARR_FAULT.row page = row % 128 ∧ t.rd ARR_FAULT.column page = col % 128
          ∧ t.rd PG_ERR_COUNT.count page = min (s.rd PG_ERR_COUNT.count page + 1) (2 ^ 48 - 1) ∧ kept [.cores, .mgmt, .rel] t)
      ∧ (
          let ramp := Instr.dutyRamp core
          let only := fun (d : Nat) (t : State) => t.rd ARR_STATUS.duty page = d ∧ ChangesOnly [] (fun z => z = ARR_STATUS.duty.key page 0) s t
          let falls := ∃ g, x.array.gapAt = some g ∧ x.array.inState .accumulating = none ∧ g + 2000 ≤ s.now
          (x.array.queue ≠ [] → Completes ramp s (only (min 128 (duty + 8))))
          ∧ (x.array.queue = [] → falls → Completes ramp s (only (duty - 2)))
          ∧ (x.array.queue = [] → ¬falls → Completes ramp s (Unchanged s)))
      ∧ armed (.xseInject who core value) XSE_INJECT.arm.off (xsePage c) { x with xseArm := arm x.xseArm (bits v 4 1, bits v 1 3) }
      ∧ armed (.arrInject who core value) ARR_INJECT.arm.off page { x with arrArm := arm x.arrArm (bits v 4 7, bits v 11 7, bits v 1 3) }
      ∧ armed (.vecInject who core value) VEC_INJECT.arm.off (vecPage c) { x with vecArm := arm x.vecArm (bits v 4 4, bits v 8 6, bits v 1 3) }

/-- When every condition of R272 holds, HALL_STAGE_COMPLETE lets a head with k = 1 enter EMIT, a head with a residual area wait for it, and
any other head or relay raise HALL; a group with lag records gets one. DIE_LANDING_MERGE puts a die landing that has its final count in
MERGE, and its accumulators reach the head as a MERGE event. LANDING_EMIT raises EMIT once. A linear mismatch abandons the entry before
either: it enters PASS without contributions or, once its head has left OPEN or sent a partial, and for a relay, ends as a tombstone.
LANDING_TIMER_CHECK ends every entry of the die whose timer has expired, and only those; TOMBSTONE_EXPIRY takes away the tombstones whose
life has ended. A waiting head takes an area at its step, reads the bank of R345 and raises HALL, and writes back: the area advances and
is released. An uncorrectable read makes the area fresh, and a corrected one is recorded. Otherwise these commands change nothing. A hold
needs the area's die out of reset (log 43). (R258, R269, R272, R281, R282, R283, R287, R344, R345, R347, R348, R363) -/
def Obligations.LandingsMoveThroughTheirStages : Prop :=
  ∀ (s : State) (k : Key) (die : Fin 4) (find : ReadFind),
    let d := die.val
    let x := s.group k.group
    let isDue := fun e : Entry => e.tomb.isNone && e.key.home == d && !e.written && decide (e.born + (s.group e.key.group).timeout * 10000 ≤ s.now)
    let ended := fun e : Entry => e.key.home == d && match e.tomb with
      | some t => decide (t ≤ s.now)
      | none => false
    let others := fun t : State => ∀ j, j ≠ k → t.live? j = s.live? j
    let raised := fun (c : Nat) (v : FlightEvent) (t : State) => (t.core c).events = (s.core c).events ++ [v]
      ∧ { t.core c with events := (s.core c).events } = s.core c ∧ ∀ j, j ≠ c → t.core j = s.core j
    let home := k.home
    let lagAt := telemetryBase home + 0x80000000 + s.rd CTR_LAG_PRODUCER.producer (ctrDiePage home) % 2 ^ 24 * 64
    let counts := fun (page : Nat) (y : Nat) => isCtr y ∨ pageOf y = page ∧ offOf y = XSE_LINEAR_COUNT.verified.off
    let resends := fun e : Entry => e.sent = false ∧ ∀ l ∈ e.landings, l.kind ≠ .relay ∧ (l.kind ≠ .head ∨ l.state = .open_)
    let abandons := fun (e : Entry) (t : State) => (x.lag = false → t.mem = s.mem) ∧ others t ∧ (¬resends e → t.live? k = none)
      ∧ (resends e → ∃ y, t.live? k = some y ∧ y.pass = true ∧ y.contribs = [])
    let stage := Instr.hallStageComplete k
    let merge := Instr.dieLandingMerge k die
    let emit := Instr.landingEmit k
    let hold := Instr.residualAreaHold k
    let copy := Instr.residualCopyDone k find
    let back := Instr.residualWriteBack k
    let area := s.area k.group k.chunk
    let areaIs := fun (a : Area) (t : State) => t.area k.group k.chunk = a
      ∧ (∀ j, j ≠ areaKey k.group k.chunk → Sparse.get Area.new t.coll.areas j = Sparse.get Area.new s.coll.areas j)
    let rests := fun t : State => t.coll = { s.coll with dir := t.coll.dir, areas := t.coll.areas }
    let areaUp := s.rd CTL_DIE_STATE.state (ctlDiePage (areaDie k.group k.chunk)) = 0
    ((∀ e, s.live? k = some e → e.head? = none) → ∀ cmd ∈ [stage, merge, emit, hold, copy, back], Completes cmd s (Unchanged s))
      ∧ (∀ e l, s.live? k = some e → e.head? = some l →
        (s.hallReady e x = false → Completes stage s (Unchanged s))
        ∧ (s.hallReady e x = true → s.linearVerify e x l false = some false → Completes stage s (abandons e))
        ∧ (s.hallReady e x = true → s.linearVerify e x l false ≠ some false →
          let single := l.kind = .head ∧ x.k = 1
          let waits := l.kind = .head ∧ x.k ≠ 1 ∧ s.usesArea k = true
          let lag := x.lag = true ∧ l.kind = .head ∧ bit s.boot.lpUnused home = false
          Completes stage s fun t =>
            (single → t.live? k = some { e.setLanding { l with state := .emit } with hallDone := true } ∧ t.cores = s.cores)
            ∧ (waits → t.live? k = some { e.setLanding { l with stage := .waiting } with hallDone := true } ∧ t.cores = s.cores)
            ∧ (¬single → ¬waits → t.live? k = some { e.setLanding { l with state := if l.kind = .relay then .emit else l.state, hallRaised := true } with hallDone := true }
              ∧ raised l.core (plainEvent k l.die 3) t)
            ∧ (lag → t.rd CTR_LAG_PRODUCER.producer (ctrDiePage home) = (s.rd CTR_LAG_PRODUCER.producer (ctrDiePage home) + 1) % 2 ^ 64
              ∧ (Memory.wf s.mem → Wrote s t lagAt (lagRecord e)))
            ∧ (¬lag → t.mem = s.mem) ∧ others t ∧ t.coll = { s.coll with dir := t.coll.dir }
            ∧ ChangesOnly [.mem, .coll, .cores]
              (fun y => counts (xsePage l.core) y ∨ y = CTR_LAG_PRODUCER.producer.key (ctrDiePage home) 0) s t)
        ∧ (
          let idle := l.open_ = 0 ∧ (∀ v ∈ (s.core l.core).events, v.key ≠ k) ∧ ∀ v ∈ (s.core l.core).ctxs, v.2.event.key ≠ k
          let ready := l.kind = .head ∧ l.emitRaised = false ∧ idle ∧ (l.state = .emit ∨ l.state = .gallery ∧ s.galleryDone e x = true)
          (¬ready → Completes emit s (Unchanged s))
          ∧ (ready → l.state ≠ .emit → s.linearVerify e x l true = some false → Completes emit s (abandons e))
          ∧ (ready → (l.state = .emit ∨ s.linearVerify e x l true ≠ some false) → Completes emit s fun t =>
              t.live? k = some (e.setLanding { l with state := .emit, emitRaised := true }) ∧ raised l.core (plainEvent k l.die 5) t
                ∧ others t ∧ t.coll = { s.coll with dir := t.coll.dir } ∧ ChangesOnly [.coll, .cores] (counts (xsePage l.core)) s t))
        ∧ (e.on? d = none → Completes merge s (Unchanged s))
        ∧ (∀ m, e.on? d = some m →
          let quiet := (∀ v ∈ (s.core m.core).events, v.key = k → v.die ≠ d) ∧ ∀ v ∈ (s.core m.core).ctxs, v.2.event.key = k → v.2.event.die ≠ d
          let final := m.kind = .die ∧ m.state = .open_ ∧ e.contribs.length = x.halls.getD k.origin 0 ∧ m.open_ = 0 ∧ quiet
          let n := e.count.getD 0
          let fmt := if x.exactSums then 14 else if x.sums then x.partFmt.1 else x.inFmt
          (¬final → Completes merge s (Unchanged s))
          ∧ (final → Completes merge s fun t =>
              t.live? k = some ((e.setLanding { m with state := .merge }).setLanding { l with open_ := l.open_ + 1 })
                ∧ raised l.core ⟨k, l.die, 2, n, 0, d, none,
                  Memory.readN m.window 0 (if x.sums then n * x.accSize else packedBytes x.inFmt x.inMx n), fmt, x.inMx && !x.sums, x.exactSums, m.runs⟩ t
                ∧ others t ∧ t.coll = { s.coll with dir := t.coll.dir } ∧ ChangesOnly [.coll, .cores] isCtr s t))
        ∧ (
          let may := l.stage = .waiting ∧ area.held = false
            ∧ (area.fresh = true ∨ area.next = k.step ∨ area.prevValid = true ∧ area.next = (k.step + 1) % 65536) ∧ areaUp
          (¬may → Completes hold s (Unchanged s))
          ∧ (may → Completes hold s fun t => areaIs { area with held := true } t ∧ t.live? k = some (e.setLanding { l with stage := .copying })
              ∧ others t ∧ rests t ∧ ChangesOnly [.coll] (fun _ => False) s t))
        ∧ (l.stage ≠ .copying → Completes copy s (Unchanged s))
        ∧ (l.stage = .copying → (∀ o, find ≠ .bad o) → Completes copy s fun t =>
            let bank := if area.fresh = true then [] else if (area.next = k.step ↔ area.cur = true) then area.y else area.x
            t.live? k = some (e.setLanding { l with
              stage := .held, area := bank ++ l.area.filter (fun y => decide (x.bankBytes ≤ y.1))
              areaSet := Nat.lor l.areaSet (2 ^ x.bankBytes - 1), hallRaised := true }) ∧ raised l.core (plainEvent k l.die 3) t
              ∧ others t ∧ t.coll = { s.coll with dir := t.coll.dir } ∧ (find = .ok → ChangesOnly [.coll, .cores] isCtr s t)
              ∧ ∀ y, y ∉ [Piece.coll, .cores, .mgmt, .rel] → y.same s t)
        ∧ (∀ o, l.stage = .copying → find = .bad o → Completes copy s fun t => t.area k.group k.chunk = Area.new ∧ abandons e t)
        ∧ (l.stage ≠ .writeBack → Completes back s (Unchanged s))
        ∧ (l.stage = .writeBack → Completes back s fun t =>
            let advances := area.fresh = true ∨ area.next = k.step
            let y := t.area k.group k.chunk
            let bank := l.area.filter fun y => decide (y.1 < x.bankBytes)
            y.held = false
              ∧ (advances → y.cur = !area.cur ∧ y.fresh = false ∧ y.prevValid = true ∧ y.next = (k.step + 1) % 65536)
              ∧ (¬advances → y.cur = area.cur ∧ y.fresh = area.fresh ∧ y.prevValid = area.prevValid ∧ y.next = area.next)
              ∧ (y.cur = true → y.y = bank ∧ y.x = area.x) ∧ (y.cur = false → y.x = bank ∧ y.y = area.y)
              ∧ areaIs y t ∧ t.live? k = some (e.setLanding { l with stage := .none }) ∧ others t ∧ rests t ∧ ChangesOnly [.coll] isCtr s t))
      ∧ Completes (.landingTimerCheck die) s (fun t => (∀ e ∈ s.coll.dir, isDue e = true → t.live? e.key = none)
          ∧ (∀ j, (∀ e ∈ s.coll.dir, e.key = j → isDue e = false) → t.live? j = s.live? j) ∧ t.mem = s.mem
          ∧ ((∀ e ∈ s.coll.dir, isDue e = false) → Unchanged s t))
      ∧ Completes (.tombstoneExpiry die) s (fun t => t.coll = { s.coll with dir := s.coll.dir.filter fun e => !ended e }
          ∧ ChangesOnly [.coll] (fun _ => False) s t)

/-- A DRAM refresh stores the temperature, doubled above 85.0 degrees; a scrub that is on counts its pass and records one corrected or
uncorrectable word, and an error record that no longer reads is marked so; an LPDDR6 refresh changes nothing; a temperature read stores
what it reads and retrains when it has moved by retrain_dtemp, a retraining counts itself and keeps its duration, and a failure sets the
interrupt; the first reading after a training that no temperature called for stands for that training's. A quote that fits is staged with
its signature, done, counted and interrupts; else it fails. Correlation reads the new records, skips and counts one that reads
uncorrectable, and retires a core whose history completes a rule, unless its sibling is retired. A write of CTL_RETIRE stops the cores
newly retired and empties the history of those returned. Health evaluation gives each scored port its score and band, quarantines or caps
those of band 0 that are in service and no other band, and with auto writes the factors. A sweep writes one record per page read and a
SWEEP_END, counts itself and interrupts. Otherwise nothing changes. Records of unknown words are left free (logs 3, 38); the first reading
after such a training is the model's choice (log 72). The evaluations a rise takes, who is quarantined, the write of CTL_RETIRE and the
reader's numbers and times are the model's choices too (log entries 30 and 41). (R351, R355, R357, R361, R362, R424, R433, R441, R443,
R446, R448, R457) -/
def Obligations.MemoriesQuotesAndHealth : Prop :=
  ∀ (s : State) (die : Fin 4) (dev : Fin 12) (who : Fin 64) (temp us : BitVec 16) (mult : BitVec 2) (ok : Bool) (fs : List MemFind) (f : MemFind)
    (off : BitVec 26) (v : BitVec 32),
    let d := die.val
    let kept := fun (l : List Piece) (t : State) => ∀ y, y ∉ l → y.same s t
    let plus := fun (g : Fld) (a : Nat) (t : State) => t.rd g a = (s.rd g a + 1) % 2 ^ g.w
    let flags := fun (a b : Nat) (t : State) => bit (t.rd PG_IRQ_RAW.block_irq a) (b - 4) = true
    let errs := fun (a : Nat) (t : State) => t.rd PG_ERR_COUNT.count a = min (s.rd PG_ERR_COUNT.count a + 1) (2 ^ 48 - 1)
    let f2f := f2fPage d
    let dscrub := s.rd F2F_SCRUB.period_h f2f ≠ 0 ∧ s.dramReady d = true
    let m := memPage dev.val
    let inUse := s.flag MEM_STATUS.unused m = false ∧ s.flag MEM_STATUS.self_refresh m = false ∧ s.flag MEM_STATUS.ch0_trained m = true
      ∧ s.flag MEM_STATUS.ch1_trained m = true
    let retrained := fun (x : Nat) (t : State) => plus MEM_TRAIN.retrains m t ∧ t.rd MEM_TRAIN.last_us m = us.toNat
      ∧ t.boot = { s.boot with trainTemp := Sparse.set s.boot.trainTemp dev.val x }
      ∧ (ok = true → t.rd MEM_TRAIN.fails m = s.rd MEM_TRAIN.fails m)
      ∧ (ok = false → t.rd MEM_TRAIN.fails m = min (s.rd MEM_TRAIN.fails m + 1) 65535 ∧ flags m 6 t)
    let here := fun g : MemFind => g.addr / 256 % 6 / 2 = dev.val % 3
    let lscrub := s.rd MEM_SCRUB.period_h m ≠ 0 ∧ inUse
    let ctl := ctlPkgPage
    Completes (.dramRefresh die temp) s (fun t => t.rd F2F_STATUS.temp f2f = temp.toNat ∧ t.rd F2F_STATUS.refresh_2x f2f = b2n (850 < temp.toNat)
        ∧ ChangesOnly [] (fun y => isCtr y ∨ y = F2F_STATUS.temp.key f2f 0 ∨ y = F2F_STATUS.refresh_2x.key f2f 0) s t)
      ∧ (¬dscrub → Completes (.dramScrub die fs) s (Unchanged s))
      ∧ (dscrub → Completes (.dramScrub die fs) s fun t => t.mem = s.mem)
      ∧ (dscrub → Completes (.dramScrub die []) s fun t => plus F2F_SCRUB.passes f2f t
          ∧ ChangesOnly [] (fun y => isCtr y ∨ y = F2F_SCRUB.passes.key f2f 0) s t)
      ∧ (dscrub → (1 ≤ f.symbols ∨ f.victim = .nothing) → Completes (.dramScrub die [f]) s fun t => plus F2F_SCRUB.passes f2f t ∧ errs f2f t
          ∧ t.rd F2F_ECC_LAST.block f2f = f.addr / 64 % 2 ^ 29 ∧ t.rd F2F_ECC_LAST.symbols f2f = f.symbols % 4
          ∧ (1 ≤ f.symbols → plus F2F_ECC_COUNT.corrected f2f t ∧ flags f2f 4 t ∧ t.rd F2F_ECC_LAST.uncorrectable f2f = 0)
          ∧ (f.symbols = 0 → plus F2F_ECC_COUNT.uncorrected f2f t ∧ flags f2f 5 t ∧ t.rd F2F_ECC_LAST.uncorrectable f2f = 1)
          ∧ ChangesOnly [.mgmt, .rel] (onPages [f2f, ctl]) s t)
      ∧ Completes (.lpddr6Refresh dev) s (Unchanged s)
      ∧ (
          let read := Instr.lpddr6TempRead dev temp mult ok us
          let dt := s.rd MEM_CFG.retrain_dtemp m
          let first := Sparse.has s.boot.trainTemp dev.val = false
          let moved := first = false ∧ dt ≠ 0 ∧ dt * 10 ≤ gapOf temp.toNat (Sparse.get 0 s.boot.trainTemp dev.val)
          (¬inUse → Completes read s (Unchanged s))
          ∧ (inUse → Completes read s fun t => t.rd MEM_STATUS.temp m = temp.toNat ∧ t.rd MEM_STATUS.refresh_mult m = mult.toNat
              ∧ (s.rd MEM_STATUS.refresh_mult m < mult.toNat → flags m 7 t) ∧ (moved → retrained temp.toNat t)
              ∧ (first = true → t.boot = { s.boot with trainTemp := Sparse.set s.boot.trainTemp dev.val temp.toNat })
              ∧ (¬moved → (first = false → t.boot = s.boot) ∧ t.rd MEM_TRAIN.retrains m = s.rd MEM_TRAIN.retrains m) ∧ ChangesOnly [.boot, .mgmt] (onPages [m]) s t))
      ∧ (
          let train := Instr.lpddr6Retrain dev ok us
          let on := s.rd MEM_CFG.retrain_ms m ≠ 0 ∧ inUse
          (¬on → Completes train s (Unchanged s))
          ∧ (on → Completes train s fun t => retrained (s.rd MEM_STATUS.temp m) t ∧ ChangesOnly [.boot, .mgmt] (onPages [m]) s t))
      ∧ (¬lscrub → Completes (.lpddr6Scrub dev fs) s (Unchanged s))
      ∧ (lscrub → Completes (.lpddr6Scrub dev fs) s fun t => t.mem = s.mem)
      ∧ (lscrub → (∀ g ∈ fs, ¬here g) → Completes (.lpddr6Scrub dev fs) s fun t => plus MEM_SCRUB.passes m t
          ∧ ChangesOnly [] (fun y => y = MEM_SCRUB.passes.key m 0) s t)
      ∧ (lscrub → here f → (f.link = true ∨ 1 ≤ f.symbols ∨ f.victim = .nothing) → Completes (.lpddr6Scrub dev [f]) s fun t =>
          plus MEM_SCRUB.passes m t ∧ errs m t
            ∧ (f.link = true → plus MEM_ECC_COUNT.link_corrected m t ∧ flags m 4 t)
            ∧ (f.link = false → 1 ≤ f.symbols → plus MEM_ECC_COUNT.secded_corrected m t ∧ flags m 4 t)
            ∧ (f.link = false → f.symbols = 0 → plus MEM_ECC_COUNT.uncorrected m t ∧ flags m 5 t
              ∧ (s.lpRegion (dev.val / 3) f.addr = 4 → recordKey (dev.val / 3) f.addr ∈ t.rel.badRecords))
            ∧ ChangesOnly [.mgmt, .rel] (onPages [m, ctl]) s t)
      ∧ Completes (.sramScrub die fs) s (fun t => t.mem = s.mem)
      ∧ Completes (.sramScrub die []) s (Unchanged s)
      ∧ (f.victim = .nothing → Completes (.sramScrub die [f]) s fun t => errs (sramPage d f).1 t
          ∧ ChangesOnly [.mgmt, .rel] (onPages [(sramPage d f).1, ctl]) s t)
      ∧ (s.writes who.val secPage SEC_QUOTE_CTRL.offset.off →
          let fits := s.flag SEC_STATE.identity_ok secPage = true ∧ off.toNat + 448 ≤ stagingSize
          let b := s.quoteBody
          Completes (.quoteRequest who off) s fun t => t.rd SEC_QUOTE_CTRL.offset secPage = off.toNat
            ∧ (fits → t.rd SEC_QUOTE_STATUS.done secPage = 1 ∧ t.rd SEC_QUOTE_STATUS.fail secPage = 0 ∧ plus SEC_QUOTE_STATUS.quotes secPage t
              ∧ flags secPage 4 t
              ∧ (Memory.wf s.mem → Wrote s t (stagingBase who.val + off.toNat) (b ++ natBe 64 (Config.sm2Sign (BitVec.ofNat 256 (sm3 b))).toNat)))
            ∧ (¬fits → t.rd SEC_QUOTE_STATUS.done secPage = 0 ∧ t.rd SEC_QUOTE_STATUS.fail secPage = 1 ∧ t.mem = s.mem)
            ∧ ChangesOnly [.mem, .mgmt] (onPages [secPage]) s t)
      ∧ (
          let run := Instr.errorCorrelation
          let readTo := fun e : Nat => Sparse.get 0 s.rel.readTo e
          let k := d * 2 ^ 24 + readTo d % 2 ^ 24
          (s.boot.cores = 0 → Completes run s (Unchanged s))
          ∧ (s.boot.cores ≠ 0 → Completes run s fun t => Sparse.get 0 t.rel.readTo 0 = s.errIndex 0 ∧ t.mem = s.mem)
          ∧ (s.boot.cores ≠ 0 → (∀ e : Fin 4, s.errIndex e.val ≤ readTo e.val) → Completes run s fun t =>
              t.rel = { s.rel with readTo := t.rel.readTo } ∧ (∀ e : Fin 4, Sparse.get 0 t.rel.readTo e.val = s.errIndex e.val)
                ∧ ChangesOnly [.rel] (fun _ => False) s t)
          ∧ (s.boot.cores ≠ 0 → (∀ e : Fin 4, e ≠ die → s.errIndex e.val ≤ readTo e.val) → s.errIndex d = readTo d + 1 → k ∈ s.rel.badRecords →
              let a := recordByte d (readTo d)
              let x := memPage (3 * d + a / 256 % 6 / 2)
              Completes run s fun t => t.rel.history = s.rel.history ∧ plus MEM_ECC_COUNT.uncorrected x t ∧ errs x t ∧ flags x 5 t
                ∧ t.rd MEM_ECC_LAST.uncorrectable x = 1 ∧ t.rd MEM_ECC_LAST.region x = s.lpRegion d a
                ∧ ChangesOnly [.mgmt, .rel] (onPages [x, ctl]) s t)
          ∧ (∀ c r, s.boot.cores ≠ 0 → k ∉ s.rel.badRecords → (∀ e : Fin 4, e ≠ die → s.errIndex e.val ≤ readTo e.val) → s.errIndex d = readTo d + 1 →
              coreErrOf (Sparse.get [] s.rel.records (d * 2 ^ 24 + readTo d % 2 ^ 24)) = some (c, r) →
              let h := Sparse.get [] s.rel.history c
              let hit := s.retireRule h r ≠ [] ∧ s.retired c = false ∧ s.flag CTL_RETIRE_CFG.auto ctl = true
              let sibling := s.retired (siblingOf c)
              Completes run s fun t => Sparse.get [] t.rel.history c = r :: h
                ∧ (hit → sibling = false → t.retired c = true ∧ (t.core c).ctxs = [] ∧ (t.core c).array.queue = [] ∧ t.boot.saveDue = true)
                ∧ (hit → sibling = true → t.retired c = false ∧ flags ctl 6 t)
                ∧ (¬hit → ChangesOnly [.rel] (fun _ => False) s t)))
      ∧ (s.writes who.val ctl CTL_RETIRE.retired.off →
          let set := fun c : Fin 32 => bit v.toNat c.val
          Completes (.retireWrite who v) s fun t => (∀ c : Fin 32, t.retired c.val = set c)
            ∧ (∀ c : Fin 32, set c = true → s.retired c.val = false → (t.core c.val).ctxs = [] ∧ (t.core c.val).array.queue = []
              ∧ (t.core c.val).slots = (s.core c.val).slots ∧ t.boot.saveDue = true)
            ∧ (∀ c : Fin 32, set c = false → s.retired c.val = true → Sparse.get [] t.rel.history c.val = [])
            ∧ ((∀ c : Fin 32, set c = s.retired c.val) → Unchanged s t) ∧ kept [.boot, .mgmt, .rel, .sw, .coll, .cores] t)
      ∧ (
          let run := Instr.healthEvaluation
          let auto := s.flag CTL_HEALTH_CFG.auto ctl
          ((s.boot.plan = none ∨ s.boot.cores = 0) → Completes run s (Unchanged s))
          ∧ (s.boot.plan.isSome = true → s.boot.cores ≠ 0 → Completes run s fun t =>
              (∀ p : Fin 512, s.scored p.val = false → t.portHealth p.val = s.portHealth p.val)
                ∧ (∀ p : Fin 512, s.scored p.val = true →
                  let x := s.portHealth p.val
                  let y := t.portHealth p.val
                  let score := s.scoreOf p.val
                  let rises := bandOf score ≥ x.h ∧ x.h < 8 ∧ bandLow (x.h + 2) + 50 ≤ score
                  let need := if x.h = 0 then s.rd CTL_HEALTH_CFG.restore_s ctl else 60
                  y.score = score ∧ y.penalties = x.penalties ∧ (bandOf score < x.h → y.h = bandOf score)
                    ∧ (rises → need ≤ x.rising → y.h = x.h + 2) ∧ (rises → x.rising < need → y.h = x.h ∧ y.rising = x.rising + 1)
                    ∧ (bandOf score ≥ x.h → ¬rises → y.h = x.h ∧ y.rising = 0)
                    ∧ (y.h = 0 → (∃ k : Fin 4, s.inService (4 * p.val + k.val) = true) → (y.quarantined || y.capped) = true)
                    ∧ (y.h = 0 → (∀ k : Fin 4, s.inService (4 * p.val + k.val) = false) → y.quarantined = x.quarantined ∧ y.capped = x.capped)
                    ∧ (y.h ≠ 0 → (y.quarantined || y.capped) = false))
                ∧ (auto = true → ∀ p : Fin 512, (s.role p.val = roleDown ∨ s.role p.val = roleGallery) →
                  t.rd GAL_HEALTH.health (galPage (p.val / 128)) (p.val % 128) = t.factorOf p.val % 16)
                ∧ (auto = false → ∀ p : Fin 512, t.rd GAL_HEALTH.health (galPage (p.val / 128)) (p.val % 128)
                  = s.rd GAL_HEALTH.health (galPage (p.val / 128)) (p.val % 128))
                ∧ kept [.mgmt, .rel] t))
      ∧ (
          let page := ctrPkgPage
          let due := allPages.filter s.swept
          let read := due.filter fun a => !s.readerSkips a
          let n := read.length
          let number := s.reader.sweepNo + 1
          let k := s.rd CTR_SWEEP_PRODUCER.producer page
          let at_ := fun j : Nat => telemetryBase 0 + 0xC0000000 + (k + j) % 2 ^ 22 * 256
          let swept := fun cmd : Instr => Completes cmd s fun t => plus CTR_SWEEP_STATUS.sweeps page t ∧ t.reader.sweepNo = number % 2 ^ 32
            ∧ t.rd CTR_SWEEP_LAST.pages_read page = n % 2 ^ 16 ∧ t.rd CTR_SWEEP_LAST.pages_skipped page = (due.length - n) % 2 ^ 16
            ∧ t.rd CTR_SWEEP_PRODUCER.producer page = (k + n + 1) % 2 ^ 64 ∧ flags page 4 t ∧ (∀ a ∈ read, Sparse.get 0 t.reader.changed a = 0)
            ∧ (Memory.wf s.mem → (∀ j, j < n → Memory.readN t.mem (at_ j) 256 = s.pageRecord (read.getD j 0) j number true)
              ∧ Memory.readN t.mem (at_ n) 256 = s.endRecord n (due.length - n) number
              ∧ ∀ b, (b < telemetryBase 0 + 0xC0000000 ∨ telemetryBase 0 + 0x100000000 ≤ b) → Memory.read t.mem b = Memory.read s.mem b)
            ∧ ChangesOnly [.mem, .mgmt, .reader] (onPages [page]) s t
          let run := s.readerOn = true ∧ s.flag CTR_SWEEP_CFG.run page = true
          (run → swept .counterSweep) ∧ (¬run → Completes .counterSweep s (Unchanged s))
            ∧ (s.writes who.val page CTR_SWEEP_CTRL.once.off → s.readerOn = true → swept (.sweepOnce who))
            ∧ (s.writes who.val page CTR_SWEEP_CTRL.once.off → s.readerOn = false → Completes (.sweepOnce who) s (Unchanged s)))

/-- From any state whose memory lists rising addresses and no zero byte, and whose maps of register fields, shadow fields and queue pairs have
strictly rising keys, whatever command is in front of the queue, the next state has the same. Device memory is what the RDMA writes,
staging windows, telemetry, lag and counter records of the rules store to. The canonical form is the model's (log 2). (R51, R52, R63,
R287, R420, R424, R458, R459, R461) -/
def Obligations.EveryStepKeepsMemoryAndMapsCanonical : Prop :=
  ∀ s t : State,
    let canonical := fun x : State => Memory.wf x.mem = true ∧ Sparse.sorted x.regs = true ∧ Sparse.sorted x.shadow = true
      ∧ Sparse.sorted x.mgmt.qps = true
    step s = .next t → canonical s → canonical t
end

