-- ==== Sys2Proof/Laws/Sparse.lean ====
section
/-! SUPPORT. Laws of sparse maps: a read after a write, a read after a removal, and that both keep the keys rising. -/

namespace Sys2Proof.Machine.Sparse

variable {α : Type}

@[simp] theorem get_nil (d : α) (k : Nat) : get d [] k = d := rfl

theorem get_set (d : α) (m : Sparse α) (k : Nat) (v : α) (j : Nat) :
    get d (set m k v) j = if j = k then v else get d m j := by
  induction m with
  | nil => simp [set, get]
  | cons e m ih =>
    obtain ⟨i, w⟩ := e
    simp only [set]
    split_ifs with h1 h2 h3 h4 <;> simp only [get] <;> try split_ifs <;> simp_all

@[simp] theorem get_set_same (d : α) (m : Sparse α) (k : Nat) (v : α) : get d (set m k v) k = v := by
  simp [get_set]

theorem get_set_ne (d : α) (m : Sparse α) {k j : Nat} (v : α) (h : j ≠ k) : get d (set m k v) j = get d m j := by
  simp [get_set, h]

theorem get_del (d : α) (m : Sparse α) (k j : Nat) : get d (del m k) j = if j = k then d else get d m j := by
  induction m with
  | nil => simp [del, get]
  | cons e m ih =>
    obtain ⟨i, w⟩ := e
    by_cases h1 : k = i
    · subst h1
      by_cases h2 : j = k <;> simp_all [del, get]
    · by_cases h2 : j = i
      · subst h2
        simp [del, get, h1, Ne.symm h1]
      · simp [del, get, h1, h2, ih]

theorem get_filter_of (d : α) (m : Sparse α) (p : Nat → Bool) (j : Nat) :
    get d (m.filter fun e => p e.1) j = if p j then get d m j else d := by
  induction m with
  | nil => simp [get]
  | cons e m ih =>
    obtain ⟨i, w⟩ := e
    by_cases hp : p i
    · simp only [List.filter, hp, get]
      split_ifs <;> simp_all
    · simp only [List.filter, hp, get, ih]
      split_ifs <;> simp_all

theorem get_delIf (d : α) (m : Sparse α) (p : Nat → Bool) (j : Nat) :
    get d (delIf m p) j = if p j then d else get d m j := by
  unfold delIf
  rw [get_filter_of d m (fun k => !p k) j]
  by_cases h : p j <;> simp [h]

theorem get_mapv (d : α) (m : Sparse α) (f : Nat → α → α) (j : Nat) (h : f j d = d) :
    get d (mapv m f) j = f j (get d m j) := by
  induction m with
  | nil => simp [mapv, get, h]
  | cons e m ih =>
    obtain ⟨i, w⟩ := e
    simp only [mapv, List.map, get] at *
    split_ifs with hi
    · rw [hi]
    · exact ih

theorem set_ne_nil (m : Sparse α) (k : Nat) (v : α) : set m k v ≠ [] := by
  cases m with
  | nil => simp [set]
  | cons e m =>
    obtain ⟨i, w⟩ := e
    simp only [set]
    split_ifs <;> simp

theorem sorted_set (m : Sparse α) (k : Nat) (v : α) (h : sorted m = true) : sorted (set m k v) = true := by
  induction m with
  | nil => rfl
  | cons e m ih =>
    obtain ⟨i, w⟩ := e
    simp only [set]
    split_ifs with h1 h2
    · simp [sorted, h1, h]
    · subst h2
      cases m with
      | nil => rfl
      | cons b m => simpa [sorted] using h
    · cases m with
      | nil =>
        simp only [set, sorted, Bool.and_true, decide_eq_true_eq]
        omega
      | cons b m =>
        obtain ⟨j, x⟩ := b
        simp only [sorted, Bool.and_eq_true, decide_eq_true_eq] at h
        have ih' := ih h.2
        simp only [set] at ih' ⊢
        split_ifs at ih' ⊢ with h3 h4 <;> simp_all [sorted]
        all_goals omega

end Sys2Proof.Machine.Sparse
end

