-- ==== Sys2Proof/Laws/State.lean ====
section
/-! SUPPORT. What each plain update of the state leaves in each of its fields: one lemma per field per update. -/

namespace Sys2Proof.Machine

@[simp] theorem State.wr_pending (s : State) (f : Fld) (a v i : Nat) : (s.wr f a v i).pending = s.pending := rfl
@[simp] theorem State.wr_out (s : State) (f : Fld) (a v i : Nat) : (s.wr f a v i).out = s.out := rfl
@[simp] theorem State.wr_now (s : State) (f : Fld) (a v i : Nat) : (s.wr f a v i).now = s.now := rfl
@[simp] theorem State.wr_freeCtr (s : State) (f : Fld) (a v i : Nat) : (s.wr f a v i).freeCtr = s.freeCtr := rfl
@[simp] theorem State.wr_regs (s : State) (f : Fld) (a v i : Nat) : (s.wr f a v i).regs = Sparse.set s.regs (f.key a i) (v % 2 ^ f.w) := rfl
@[simp] theorem State.wr_shadow (s : State) (f : Fld) (a v i : Nat) : (s.wr f a v i).shadow = s.shadow := rfl
@[simp] theorem State.wr_heldWrites (s : State) (f : Fld) (a v i : Nat) : (s.wr f a v i).heldWrites = s.heldWrites := rfl
@[simp] theorem State.wr_commitSeq (s : State) (f : Fld) (a v i : Nat) : (s.wr f a v i).commitSeq = s.commitSeq := rfl
@[simp] theorem State.wr_mem (s : State) (f : Fld) (a v i : Nat) : (s.wr f a v i).mem = s.mem := rfl
@[simp] theorem State.wr_power (s : State) (f : Fld) (a v i : Nat) : (s.wr f a v i).power = s.power := rfl
@[simp] theorem State.wr_boot (s : State) (f : Fld) (a v i : Nat) : (s.wr f a v i).boot = s.boot := rfl
@[simp] theorem State.wr_sec (s : State) (f : Fld) (a v i : Nat) : (s.wr f a v i).sec = s.sec := rfl
@[simp] theorem State.wr_mgmt (s : State) (f : Fld) (a v i : Nat) : (s.wr f a v i).mgmt = s.mgmt := rfl
@[simp] theorem State.wr_time (s : State) (f : Fld) (a v i : Nat) : (s.wr f a v i).time = s.time := rfl
@[simp] theorem State.wr_subs (s : State) (f : Fld) (a v i : Nat) : (s.wr f a v i).subs = s.subs := rfl
@[simp] theorem State.wr_modules (s : State) (f : Fld) (a v i : Nat) : (s.wr f a v i).modules = s.modules := rfl
@[simp] theorem State.wr_byp (s : State) (f : Fld) (a v i : Nat) : (s.wr f a v i).byp = s.byp := rfl
@[simp] theorem State.wr_rel (s : State) (f : Fld) (a v i : Nat) : (s.wr f a v i).rel = s.rel := rfl
@[simp] theorem State.wr_reader (s : State) (f : Fld) (a v i : Nat) : (s.wr f a v i).reader = s.reader := rfl
@[simp] theorem State.wr_tables (s : State) (f : Fld) (a v i : Nat) : (s.wr f a v i).tables = s.tables := rfl
@[simp] theorem State.wr_sw (s : State) (f : Fld) (a v i : Nat) : (s.wr f a v i).sw = s.sw := rfl
@[simp] theorem State.wr_coll (s : State) (f : Fld) (a v i : Nat) : (s.wr f a v i).coll = s.coll := rfl
@[simp] theorem State.wr_cores (s : State) (f : Fld) (a v i : Nat) : (s.wr f a v i).cores = s.cores := rfl

@[simp] theorem State.tickFree_pending (s : State) (n : Nat) : (s.tickFree n).pending = s.pending := rfl
@[simp] theorem State.tickFree_out (s : State) (n : Nat) : (s.tickFree n).out = s.out := rfl
@[simp] theorem State.tickFree_now (s : State) (n : Nat) : (s.tickFree n).now = s.now := rfl
@[simp] theorem State.tickFree_freeCtr (s : State) (n : Nat) : (s.tickFree n).freeCtr = s.freeCtr + n := rfl
@[simp] theorem State.tickFree_regs (s : State) (n : Nat) : (s.tickFree n).regs = s.regs := rfl
@[simp] theorem State.tickFree_shadow (s : State) (n : Nat) : (s.tickFree n).shadow = s.shadow := rfl
@[simp] theorem State.tickFree_heldWrites (s : State) (n : Nat) : (s.tickFree n).heldWrites = s.heldWrites := rfl
@[simp] theorem State.tickFree_commitSeq (s : State) (n : Nat) : (s.tickFree n).commitSeq = s.commitSeq := rfl
@[simp] theorem State.tickFree_mem (s : State) (n : Nat) : (s.tickFree n).mem = s.mem := rfl
@[simp] theorem State.tickFree_power (s : State) (n : Nat) : (s.tickFree n).power = s.power := rfl
@[simp] theorem State.tickFree_boot (s : State) (n : Nat) : (s.tickFree n).boot = s.boot := rfl
@[simp] theorem State.tickFree_sec (s : State) (n : Nat) : (s.tickFree n).sec = s.sec := rfl
@[simp] theorem State.tickFree_mgmt (s : State) (n : Nat) : (s.tickFree n).mgmt = s.mgmt := rfl
@[simp] theorem State.tickFree_time (s : State) (n : Nat) : (s.tickFree n).time = s.time := rfl
@[simp] theorem State.tickFree_subs (s : State) (n : Nat) : (s.tickFree n).subs = s.subs := rfl
@[simp] theorem State.tickFree_modules (s : State) (n : Nat) : (s.tickFree n).modules = s.modules := rfl
@[simp] theorem State.tickFree_byp (s : State) (n : Nat) : (s.tickFree n).byp = s.byp := rfl
@[simp] theorem State.tickFree_rel (s : State) (n : Nat) : (s.tickFree n).rel = s.rel := rfl
@[simp] theorem State.tickFree_reader (s : State) (n : Nat) : (s.tickFree n).reader = s.reader := rfl
@[simp] theorem State.tickFree_tables (s : State) (n : Nat) : (s.tickFree n).tables = s.tables := rfl
@[simp] theorem State.tickFree_sw (s : State) (n : Nat) : (s.tickFree n).sw = s.sw := rfl
@[simp] theorem State.tickFree_coll (s : State) (n : Nat) : (s.tickFree n).coll = s.coll := rfl
@[simp] theorem State.tickFree_cores (s : State) (n : Nat) : (s.tickFree n).cores = s.cores := rfl

@[simp] theorem State.setQp_pending (s : State) (m q : Nat) (x : Qp) : (s.setQp m q x).pending = s.pending := rfl
@[simp] theorem State.setQp_out (s : State) (m q : Nat) (x : Qp) : (s.setQp m q x).out = s.out := rfl
@[simp] theorem State.setQp_now (s : State) (m q : Nat) (x : Qp) : (s.setQp m q x).now = s.now := rfl
@[simp] theorem State.setQp_freeCtr (s : State) (m q : Nat) (x : Qp) : (s.setQp m q x).freeCtr = s.freeCtr := rfl
@[simp] theorem State.setQp_regs (s : State) (m q : Nat) (x : Qp) : (s.setQp m q x).regs = s.regs := rfl
@[simp] theorem State.setQp_shadow (s : State) (m q : Nat) (x : Qp) : (s.setQp m q x).shadow = s.shadow := rfl
@[simp] theorem State.setQp_heldWrites (s : State) (m q : Nat) (x : Qp) : (s.setQp m q x).heldWrites = s.heldWrites := rfl
@[simp] theorem State.setQp_commitSeq (s : State) (m q : Nat) (x : Qp) : (s.setQp m q x).commitSeq = s.commitSeq := rfl
@[simp] theorem State.setQp_mem (s : State) (m q : Nat) (x : Qp) : (s.setQp m q x).mem = s.mem := rfl
@[simp] theorem State.setQp_power (s : State) (m q : Nat) (x : Qp) : (s.setQp m q x).power = s.power := rfl
@[simp] theorem State.setQp_boot (s : State) (m q : Nat) (x : Qp) : (s.setQp m q x).boot = s.boot := rfl
@[simp] theorem State.setQp_sec (s : State) (m q : Nat) (x : Qp) : (s.setQp m q x).sec = s.sec := rfl
@[simp] theorem State.setQp_mgmt (s : State) (m q : Nat) (x : Qp) : (s.setQp m q x).mgmt = { s.mgmt with qps := Sparse.set s.mgmt.qps (64 * m + q) x } := rfl
@[simp] theorem State.setQp_time (s : State) (m q : Nat) (x : Qp) : (s.setQp m q x).time = s.time := rfl
@[simp] theorem State.setQp_subs (s : State) (m q : Nat) (x : Qp) : (s.setQp m q x).subs = s.subs := rfl
@[simp] theorem State.setQp_modules (s : State) (m q : Nat) (x : Qp) : (s.setQp m q x).modules = s.modules := rfl
@[simp] theorem State.setQp_byp (s : State) (m q : Nat) (x : Qp) : (s.setQp m q x).byp = s.byp := rfl
@[simp] theorem State.setQp_rel (s : State) (m q : Nat) (x : Qp) : (s.setQp m q x).rel = s.rel := rfl
@[simp] theorem State.setQp_reader (s : State) (m q : Nat) (x : Qp) : (s.setQp m q x).reader = s.reader := rfl
@[simp] theorem State.setQp_tables (s : State) (m q : Nat) (x : Qp) : (s.setQp m q x).tables = s.tables := rfl
@[simp] theorem State.setQp_sw (s : State) (m q : Nat) (x : Qp) : (s.setQp m q x).sw = s.sw := rfl
@[simp] theorem State.setQp_coll (s : State) (m q : Nat) (x : Qp) : (s.setQp m q x).coll = s.coll := rfl
@[simp] theorem State.setQp_cores (s : State) (m q : Nat) (x : Qp) : (s.setQp m q x).cores = s.cores := rfl

@[simp] theorem State.setSession_pending (s : State) (n : Nat) (x : Session) : (s.setSession n x).pending = s.pending := rfl
@[simp] theorem State.setSession_out (s : State) (n : Nat) (x : Session) : (s.setSession n x).out = s.out := rfl
@[simp] theorem State.setSession_now (s : State) (n : Nat) (x : Session) : (s.setSession n x).now = s.now := rfl
@[simp] theorem State.setSession_freeCtr (s : State) (n : Nat) (x : Session) : (s.setSession n x).freeCtr = s.freeCtr := rfl
@[simp] theorem State.setSession_regs (s : State) (n : Nat) (x : Session) : (s.setSession n x).regs = s.regs := rfl
@[simp] theorem State.setSession_shadow (s : State) (n : Nat) (x : Session) : (s.setSession n x).shadow = s.shadow := rfl
@[simp] theorem State.setSession_heldWrites (s : State) (n : Nat) (x : Session) : (s.setSession n x).heldWrites = s.heldWrites := rfl
@[simp] theorem State.setSession_commitSeq (s : State) (n : Nat) (x : Session) : (s.setSession n x).commitSeq = s.commitSeq := rfl
@[simp] theorem State.setSession_mem (s : State) (n : Nat) (x : Session) : (s.setSession n x).mem = s.mem := rfl
@[simp] theorem State.setSession_power (s : State) (n : Nat) (x : Session) : (s.setSession n x).power = s.power := rfl
@[simp] theorem State.setSession_boot (s : State) (n : Nat) (x : Session) : (s.setSession n x).boot = s.boot := rfl
@[simp] theorem State.setSession_sec (s : State) (n : Nat) (x : Session) : (s.setSession n x).sec = s.sec := rfl
@[simp] theorem State.setSession_mgmt (s : State) (n : Nat) (x : Session) : (s.setSession n x).mgmt = { s.mgmt with sessions := Sparse.set s.mgmt.sessions n x } := rfl
@[simp] theorem State.setSession_time (s : State) (n : Nat) (x : Session) : (s.setSession n x).time = s.time := rfl
@[simp] theorem State.setSession_subs (s : State) (n : Nat) (x : Session) : (s.setSession n x).subs = s.subs := rfl
@[simp] theorem State.setSession_modules (s : State) (n : Nat) (x : Session) : (s.setSession n x).modules = s.modules := rfl
@[simp] theorem State.setSession_byp (s : State) (n : Nat) (x : Session) : (s.setSession n x).byp = s.byp := rfl
@[simp] theorem State.setSession_rel (s : State) (n : Nat) (x : Session) : (s.setSession n x).rel = s.rel := rfl
@[simp] theorem State.setSession_reader (s : State) (n : Nat) (x : Session) : (s.setSession n x).reader = s.reader := rfl
@[simp] theorem State.setSession_tables (s : State) (n : Nat) (x : Session) : (s.setSession n x).tables = s.tables := rfl
@[simp] theorem State.setSession_sw (s : State) (n : Nat) (x : Session) : (s.setSession n x).sw = s.sw := rfl
@[simp] theorem State.setSession_coll (s : State) (n : Nat) (x : Session) : (s.setSession n x).coll = s.coll := rfl
@[simp] theorem State.setSession_cores (s : State) (n : Nat) (x : Session) : (s.setSession n x).cores = s.cores := rfl

@[simp] theorem State.setRing_pending (s : State) (r : Nat) (x : Ring) : (s.setRing r x).pending = s.pending := rfl
@[simp] theorem State.setRing_out (s : State) (r : Nat) (x : Ring) : (s.setRing r x).out = s.out := rfl
@[simp] theorem State.setRing_now (s : State) (r : Nat) (x : Ring) : (s.setRing r x).now = s.now := rfl
@[simp] theorem State.setRing_freeCtr (s : State) (r : Nat) (x : Ring) : (s.setRing r x).freeCtr = s.freeCtr := rfl
@[simp] theorem State.setRing_regs (s : State) (r : Nat) (x : Ring) : (s.setRing r x).regs = s.regs := rfl
@[simp] theorem State.setRing_shadow (s : State) (r : Nat) (x : Ring) : (s.setRing r x).shadow = s.shadow := rfl
@[simp] theorem State.setRing_heldWrites (s : State) (r : Nat) (x : Ring) : (s.setRing r x).heldWrites = s.heldWrites := rfl
@[simp] theorem State.setRing_commitSeq (s : State) (r : Nat) (x : Ring) : (s.setRing r x).commitSeq = s.commitSeq := rfl
@[simp] theorem State.setRing_mem (s : State) (r : Nat) (x : Ring) : (s.setRing r x).mem = s.mem := rfl
@[simp] theorem State.setRing_power (s : State) (r : Nat) (x : Ring) : (s.setRing r x).power = s.power := rfl
@[simp] theorem State.setRing_boot (s : State) (r : Nat) (x : Ring) : (s.setRing r x).boot = s.boot := rfl
@[simp] theorem State.setRing_sec (s : State) (r : Nat) (x : Ring) : (s.setRing r x).sec = s.sec := rfl
@[simp] theorem State.setRing_mgmt (s : State) (r : Nat) (x : Ring) : (s.setRing r x).mgmt = { s.mgmt with rings := Sparse.set s.mgmt.rings r x } := rfl
@[simp] theorem State.setRing_time (s : State) (r : Nat) (x : Ring) : (s.setRing r x).time = s.time := rfl
@[simp] theorem State.setRing_subs (s : State) (r : Nat) (x : Ring) : (s.setRing r x).subs = s.subs := rfl
@[simp] theorem State.setRing_modules (s : State) (r : Nat) (x : Ring) : (s.setRing r x).modules = s.modules := rfl
@[simp] theorem State.setRing_byp (s : State) (r : Nat) (x : Ring) : (s.setRing r x).byp = s.byp := rfl
@[simp] theorem State.setRing_rel (s : State) (r : Nat) (x : Ring) : (s.setRing r x).rel = s.rel := rfl
@[simp] theorem State.setRing_reader (s : State) (r : Nat) (x : Ring) : (s.setRing r x).reader = s.reader := rfl
@[simp] theorem State.setRing_tables (s : State) (r : Nat) (x : Ring) : (s.setRing r x).tables = s.tables := rfl
@[simp] theorem State.setRing_sw (s : State) (r : Nat) (x : Ring) : (s.setRing r x).sw = s.sw := rfl
@[simp] theorem State.setRing_coll (s : State) (r : Nat) (x : Ring) : (s.setRing r x).coll = s.coll := rfl
@[simp] theorem State.setRing_cores (s : State) (r : Nat) (x : Ring) : (s.setRing r x).cores = s.cores := rfl

@[simp] theorem State.setSub_pending (s : State) (l : Nat) (x : SubPort) : (s.setSub l x).pending = s.pending := rfl
@[simp] theorem State.setSub_out (s : State) (l : Nat) (x : SubPort) : (s.setSub l x).out = s.out := rfl
@[simp] theorem State.setSub_now (s : State) (l : Nat) (x : SubPort) : (s.setSub l x).now = s.now := rfl
@[simp] theorem State.setSub_freeCtr (s : State) (l : Nat) (x : SubPort) : (s.setSub l x).freeCtr = s.freeCtr := rfl
@[simp] theorem State.setSub_regs (s : State) (l : Nat) (x : SubPort) : (s.setSub l x).regs = s.regs := rfl
@[simp] theorem State.setSub_shadow (s : State) (l : Nat) (x : SubPort) : (s.setSub l x).shadow = s.shadow := rfl
@[simp] theorem State.setSub_heldWrites (s : State) (l : Nat) (x : SubPort) : (s.setSub l x).heldWrites = s.heldWrites := rfl
@[simp] theorem State.setSub_commitSeq (s : State) (l : Nat) (x : SubPort) : (s.setSub l x).commitSeq = s.commitSeq := rfl
@[simp] theorem State.setSub_mem (s : State) (l : Nat) (x : SubPort) : (s.setSub l x).mem = s.mem := rfl
@[simp] theorem State.setSub_power (s : State) (l : Nat) (x : SubPort) : (s.setSub l x).power = s.power := rfl
@[simp] theorem State.setSub_boot (s : State) (l : Nat) (x : SubPort) : (s.setSub l x).boot = s.boot := rfl
@[simp] theorem State.setSub_sec (s : State) (l : Nat) (x : SubPort) : (s.setSub l x).sec = s.sec := rfl
@[simp] theorem State.setSub_mgmt (s : State) (l : Nat) (x : SubPort) : (s.setSub l x).mgmt = s.mgmt := rfl
@[simp] theorem State.setSub_time (s : State) (l : Nat) (x : SubPort) : (s.setSub l x).time = s.time := rfl
@[simp] theorem State.setSub_subs (s : State) (l : Nat) (x : SubPort) : (s.setSub l x).subs = Sparse.set s.subs l x := rfl
@[simp] theorem State.setSub_modules (s : State) (l : Nat) (x : SubPort) : (s.setSub l x).modules = s.modules := rfl
@[simp] theorem State.setSub_byp (s : State) (l : Nat) (x : SubPort) : (s.setSub l x).byp = s.byp := rfl
@[simp] theorem State.setSub_rel (s : State) (l : Nat) (x : SubPort) : (s.setSub l x).rel = s.rel := rfl
@[simp] theorem State.setSub_reader (s : State) (l : Nat) (x : SubPort) : (s.setSub l x).reader = s.reader := rfl
@[simp] theorem State.setSub_tables (s : State) (l : Nat) (x : SubPort) : (s.setSub l x).tables = s.tables := rfl
@[simp] theorem State.setSub_sw (s : State) (l : Nat) (x : SubPort) : (s.setSub l x).sw = s.sw := rfl
@[simp] theorem State.setSub_coll (s : State) (l : Nat) (x : SubPort) : (s.setSub l x).coll = s.coll := rfl
@[simp] theorem State.setSub_cores (s : State) (l : Nat) (x : SubPort) : (s.setSub l x).cores = s.cores := rfl

@[simp] theorem State.setModule_pending (s : State) (e : Nat) (x : Module) : (s.setModule e x).pending = s.pending := rfl
@[simp] theorem State.setModule_out (s : State) (e : Nat) (x : Module) : (s.setModule e x).out = s.out := rfl
@[simp] theorem State.setModule_now (s : State) (e : Nat) (x : Module) : (s.setModule e x).now = s.now := rfl
@[simp] theorem State.setModule_freeCtr (s : State) (e : Nat) (x : Module) : (s.setModule e x).freeCtr = s.freeCtr := rfl
@[simp] theorem State.setModule_regs (s : State) (e : Nat) (x : Module) : (s.setModule e x).regs = s.regs := rfl
@[simp] theorem State.setModule_shadow (s : State) (e : Nat) (x : Module) : (s.setModule e x).shadow = s.shadow := rfl
@[simp] theorem State.setModule_heldWrites (s : State) (e : Nat) (x : Module) : (s.setModule e x).heldWrites = s.heldWrites := rfl
@[simp] theorem State.setModule_commitSeq (s : State) (e : Nat) (x : Module) : (s.setModule e x).commitSeq = s.commitSeq := rfl
@[simp] theorem State.setModule_mem (s : State) (e : Nat) (x : Module) : (s.setModule e x).mem = s.mem := rfl
@[simp] theorem State.setModule_power (s : State) (e : Nat) (x : Module) : (s.setModule e x).power = s.power := rfl
@[simp] theorem State.setModule_boot (s : State) (e : Nat) (x : Module) : (s.setModule e x).boot = s.boot := rfl
@[simp] theorem State.setModule_sec (s : State) (e : Nat) (x : Module) : (s.setModule e x).sec = s.sec := rfl
@[simp] theorem State.setModule_mgmt (s : State) (e : Nat) (x : Module) : (s.setModule e x).mgmt = s.mgmt := rfl
@[simp] theorem State.setModule_time (s : State) (e : Nat) (x : Module) : (s.setModule e x).time = s.time := rfl
@[simp] theorem State.setModule_subs (s : State) (e : Nat) (x : Module) : (s.setModule e x).subs = s.subs := rfl
@[simp] theorem State.setModule_modules (s : State) (e : Nat) (x : Module) : (s.setModule e x).modules = Sparse.set s.modules e x := rfl
@[simp] theorem State.setModule_byp (s : State) (e : Nat) (x : Module) : (s.setModule e x).byp = s.byp := rfl
@[simp] theorem State.setModule_rel (s : State) (e : Nat) (x : Module) : (s.setModule e x).rel = s.rel := rfl
@[simp] theorem State.setModule_reader (s : State) (e : Nat) (x : Module) : (s.setModule e x).reader = s.reader := rfl
@[simp] theorem State.setModule_tables (s : State) (e : Nat) (x : Module) : (s.setModule e x).tables = s.tables := rfl
@[simp] theorem State.setModule_sw (s : State) (e : Nat) (x : Module) : (s.setModule e x).sw = s.sw := rfl
@[simp] theorem State.setModule_coll (s : State) (e : Nat) (x : Module) : (s.setModule e x).coll = s.coll := rfl
@[simp] theorem State.setModule_cores (s : State) (e : Nat) (x : Module) : (s.setModule e x).cores = s.cores := rfl

@[simp] theorem State.setCore_pending (s : State) (c : Nat) (x : Core) : (s.setCore c x).pending = s.pending := rfl
@[simp] theorem State.setCore_out (s : State) (c : Nat) (x : Core) : (s.setCore c x).out = s.out := rfl
@[simp] theorem State.setCore_now (s : State) (c : Nat) (x : Core) : (s.setCore c x).now = s.now := rfl
@[simp] theorem State.setCore_freeCtr (s : State) (c : Nat) (x : Core) : (s.setCore c x).freeCtr = s.freeCtr := rfl
@[simp] theorem State.setCore_regs (s : State) (c : Nat) (x : Core) : (s.setCore c x).regs = s.regs := rfl
@[simp] theorem State.setCore_shadow (s : State) (c : Nat) (x : Core) : (s.setCore c x).shadow = s.shadow := rfl
@[simp] theorem State.setCore_heldWrites (s : State) (c : Nat) (x : Core) : (s.setCore c x).heldWrites = s.heldWrites := rfl
@[simp] theorem State.setCore_commitSeq (s : State) (c : Nat) (x : Core) : (s.setCore c x).commitSeq = s.commitSeq := rfl
@[simp] theorem State.setCore_mem (s : State) (c : Nat) (x : Core) : (s.setCore c x).mem = s.mem := rfl
@[simp] theorem State.setCore_power (s : State) (c : Nat) (x : Core) : (s.setCore c x).power = s.power := rfl
@[simp] theorem State.setCore_boot (s : State) (c : Nat) (x : Core) : (s.setCore c x).boot = s.boot := rfl
@[simp] theorem State.setCore_sec (s : State) (c : Nat) (x : Core) : (s.setCore c x).sec = s.sec := rfl
@[simp] theorem State.setCore_mgmt (s : State) (c : Nat) (x : Core) : (s.setCore c x).mgmt = s.mgmt := rfl
@[simp] theorem State.setCore_time (s : State) (c : Nat) (x : Core) : (s.setCore c x).time = s.time := rfl
@[simp] theorem State.setCore_subs (s : State) (c : Nat) (x : Core) : (s.setCore c x).subs = s.subs := rfl
@[simp] theorem State.setCore_modules (s : State) (c : Nat) (x : Core) : (s.setCore c x).modules = s.modules := rfl
@[simp] theorem State.setCore_byp (s : State) (c : Nat) (x : Core) : (s.setCore c x).byp = s.byp := rfl
@[simp] theorem State.setCore_rel (s : State) (c : Nat) (x : Core) : (s.setCore c x).rel = s.rel := rfl
@[simp] theorem State.setCore_reader (s : State) (c : Nat) (x : Core) : (s.setCore c x).reader = s.reader := rfl
@[simp] theorem State.setCore_tables (s : State) (c : Nat) (x : Core) : (s.setCore c x).tables = s.tables := rfl
@[simp] theorem State.setCore_sw (s : State) (c : Nat) (x : Core) : (s.setCore c x).sw = s.sw := rfl
@[simp] theorem State.setCore_coll (s : State) (c : Nat) (x : Core) : (s.setCore c x).coll = s.coll := rfl
@[simp] theorem State.setCore_cores (s : State) (c : Nat) (x : Core) : (s.setCore c x).cores = Sparse.set s.cores c x := rfl

@[simp] theorem State.setDir_pending (s : State) (l : List Entry) : (s.setDir l).pending = s.pending := rfl
@[simp] theorem State.setDir_out (s : State) (l : List Entry) : (s.setDir l).out = s.out := rfl
@[simp] theorem State.setDir_now (s : State) (l : List Entry) : (s.setDir l).now = s.now := rfl
@[simp] theorem State.setDir_freeCtr (s : State) (l : List Entry) : (s.setDir l).freeCtr = s.freeCtr := rfl
@[simp] theorem State.setDir_regs (s : State) (l : List Entry) : (s.setDir l).regs = s.regs := rfl
@[simp] theorem State.setDir_shadow (s : State) (l : List Entry) : (s.setDir l).shadow = s.shadow := rfl
@[simp] theorem State.setDir_heldWrites (s : State) (l : List Entry) : (s.setDir l).heldWrites = s.heldWrites := rfl
@[simp] theorem State.setDir_commitSeq (s : State) (l : List Entry) : (s.setDir l).commitSeq = s.commitSeq := rfl
@[simp] theorem State.setDir_mem (s : State) (l : List Entry) : (s.setDir l).mem = s.mem := rfl
@[simp] theorem State.setDir_power (s : State) (l : List Entry) : (s.setDir l).power = s.power := rfl
@[simp] theorem State.setDir_boot (s : State) (l : List Entry) : (s.setDir l).boot = s.boot := rfl
@[simp] theorem State.setDir_sec (s : State) (l : List Entry) : (s.setDir l).sec = s.sec := rfl
@[simp] theorem State.setDir_mgmt (s : State) (l : List Entry) : (s.setDir l).mgmt = s.mgmt := rfl
@[simp] theorem State.setDir_time (s : State) (l : List Entry) : (s.setDir l).time = s.time := rfl
@[simp] theorem State.setDir_subs (s : State) (l : List Entry) : (s.setDir l).subs = s.subs := rfl
@[simp] theorem State.setDir_modules (s : State) (l : List Entry) : (s.setDir l).modules = s.modules := rfl
@[simp] theorem State.setDir_byp (s : State) (l : List Entry) : (s.setDir l).byp = s.byp := rfl
@[simp] theorem State.setDir_rel (s : State) (l : List Entry) : (s.setDir l).rel = s.rel := rfl
@[simp] theorem State.setDir_reader (s : State) (l : List Entry) : (s.setDir l).reader = s.reader := rfl
@[simp] theorem State.setDir_tables (s : State) (l : List Entry) : (s.setDir l).tables = s.tables := rfl
@[simp] theorem State.setDir_sw (s : State) (l : List Entry) : (s.setDir l).sw = s.sw := rfl
@[simp] theorem State.setDir_coll (s : State) (l : List Entry) : (s.setDir l).coll = { s.coll with dir := l } := rfl
@[simp] theorem State.setDir_cores (s : State) (l : List Entry) : (s.setDir l).cores = s.cores := rfl

@[simp] theorem State.drivePins_pending (s : State) : (s.drivePins).pending = s.pending := rfl
@[simp] theorem State.drivePins_out (s : State) : (s.drivePins).out = s.out := rfl
@[simp] theorem State.drivePins_now (s : State) : (s.drivePins).now = s.now := rfl
@[simp] theorem State.drivePins_freeCtr (s : State) : (s.drivePins).freeCtr = s.freeCtr := rfl
@[simp] theorem State.drivePins_regs (s : State) : (s.drivePins).regs = s.regs := rfl
@[simp] theorem State.drivePins_shadow (s : State) : (s.drivePins).shadow = s.shadow := rfl
@[simp] theorem State.drivePins_heldWrites (s : State) : (s.drivePins).heldWrites = s.heldWrites := rfl
@[simp] theorem State.drivePins_commitSeq (s : State) : (s.drivePins).commitSeq = s.commitSeq := rfl
@[simp] theorem State.drivePins_mem (s : State) : (s.drivePins).mem = s.mem := rfl
@[simp] theorem State.drivePins_power (s : State) : (s.drivePins).power = { s.power with faultN := !s.faulted } := rfl
@[simp] theorem State.drivePins_boot (s : State) : (s.drivePins).boot = s.boot := rfl
@[simp] theorem State.drivePins_sec (s : State) : (s.drivePins).sec = s.sec := rfl
@[simp] theorem State.drivePins_mgmt (s : State) : (s.drivePins).mgmt = s.mgmt := rfl
@[simp] theorem State.drivePins_time (s : State) : (s.drivePins).time = s.time := rfl
@[simp] theorem State.drivePins_subs (s : State) : (s.drivePins).subs = s.subs := rfl
@[simp] theorem State.drivePins_modules (s : State) : (s.drivePins).modules = s.modules := rfl
@[simp] theorem State.drivePins_byp (s : State) : (s.drivePins).byp = s.byp := rfl
@[simp] theorem State.drivePins_rel (s : State) : (s.drivePins).rel = s.rel := rfl
@[simp] theorem State.drivePins_reader (s : State) : (s.drivePins).reader = s.reader := rfl
@[simp] theorem State.drivePins_tables (s : State) : (s.drivePins).tables = s.tables := rfl
@[simp] theorem State.drivePins_sw (s : State) : (s.drivePins).sw = s.sw := rfl
@[simp] theorem State.drivePins_coll (s : State) : (s.drivePins).coll = s.coll := rfl
@[simp] theorem State.drivePins_cores (s : State) : (s.drivePins).cores = s.cores := rfl

@[simp] theorem State.stage_pending (s : State) (n off : Nat) (l : List Byte) : (s.stage n off l).pending = s.pending := rfl
@[simp] theorem State.stage_out (s : State) (n off : Nat) (l : List Byte) : (s.stage n off l).out = s.out := rfl
@[simp] theorem State.stage_now (s : State) (n off : Nat) (l : List Byte) : (s.stage n off l).now = s.now := rfl
@[simp] theorem State.stage_freeCtr (s : State) (n off : Nat) (l : List Byte) : (s.stage n off l).freeCtr = s.freeCtr := rfl
@[simp] theorem State.stage_regs (s : State) (n off : Nat) (l : List Byte) : (s.stage n off l).regs = s.regs := rfl
@[simp] theorem State.stage_shadow (s : State) (n off : Nat) (l : List Byte) : (s.stage n off l).shadow = s.shadow := rfl
@[simp] theorem State.stage_heldWrites (s : State) (n off : Nat) (l : List Byte) : (s.stage n off l).heldWrites = s.heldWrites := rfl
@[simp] theorem State.stage_commitSeq (s : State) (n off : Nat) (l : List Byte) : (s.stage n off l).commitSeq = s.commitSeq := rfl
@[simp] theorem State.stage_mem (s : State) (n off : Nat) (l : List Byte) : (s.stage n off l).mem = Memory.writeN s.mem (stagingBase n + off) l := rfl
@[simp] theorem State.stage_power (s : State) (n off : Nat) (l : List Byte) : (s.stage n off l).power = s.power := rfl
@[simp] theorem State.stage_boot (s : State) (n off : Nat) (l : List Byte) : (s.stage n off l).boot = s.boot := rfl
@[simp] theorem State.stage_sec (s : State) (n off : Nat) (l : List Byte) : (s.stage n off l).sec = s.sec := rfl
@[simp] theorem State.stage_mgmt (s : State) (n off : Nat) (l : List Byte) : (s.stage n off l).mgmt = s.mgmt := rfl
@[simp] theorem State.stage_time (s : State) (n off : Nat) (l : List Byte) : (s.stage n off l).time = s.time := rfl
@[simp] theorem State.stage_subs (s : State) (n off : Nat) (l : List Byte) : (s.stage n off l).subs = s.subs := rfl
@[simp] theorem State.stage_modules (s : State) (n off : Nat) (l : List Byte) : (s.stage n off l).modules = s.modules := rfl
@[simp] theorem State.stage_byp (s : State) (n off : Nat) (l : List Byte) : (s.stage n off l).byp = s.byp := rfl
@[simp] theorem State.stage_rel (s : State) (n off : Nat) (l : List Byte) : (s.stage n off l).rel = s.rel := rfl
@[simp] theorem State.stage_reader (s : State) (n off : Nat) (l : List Byte) : (s.stage n off l).reader = s.reader := rfl
@[simp] theorem State.stage_tables (s : State) (n off : Nat) (l : List Byte) : (s.stage n off l).tables = s.tables := rfl
@[simp] theorem State.stage_sw (s : State) (n off : Nat) (l : List Byte) : (s.stage n off l).sw = s.sw := rfl
@[simp] theorem State.stage_coll (s : State) (n off : Nat) (l : List Byte) : (s.stage n off l).coll = s.coll := rfl
@[simp] theorem State.stage_cores (s : State) (n off : Nat) (l : List Byte) : (s.stage n off l).cores = s.cores := rfl

end Sys2Proof.Machine
end

