-- ==== Sys2Proof/Laws/Regs.lean ====
section
/-! SUPPORT. Register fields after a write, the control words iff and each, and what one command leaves in each field of the state. -/

namespace Sys2Proof.Machine

/-! ### Register fields -/

/-- A field reads the register map alone. -/
theorem State.rd_congr {s t : State} (h : t.regs = s.regs) (f : Fld) (a i : Nat) : t.rd f a i = s.rd f a i := by
  simp [State.rd, h]

theorem State.rd_eq (s : State) (f : Fld) (a i : Nat) : s.rd f a i = Sparse.get (f.reset i) s.regs (f.key a i) % 2 ^ f.w := rfl

/-- A field reads within its width. -/
theorem State.rd_lt (s : State) (f : Fld) (a i : Nat) : s.rd f a i < 2 ^ f.w := Nat.mod_lt _ (Nat.two_pow_pos _)

@[simp] theorem State.rd_wr_same (s : State) (f : Fld) (a v i : Nat) : (s.wr f a v i).rd f a i = v % 2 ^ f.w := by
  simp [State.rd]

theorem State.rd_wr_ne (s : State) {f g : Fld} {a b i j : Nat} (v : Nat) (h : g.key b j ≠ f.key a i) :
    (s.wr f a v i).rd g b j = s.rd g b j := by
  simp [State.rd, Sparse.get_set_ne _ _ _ h]

@[simp] theorem State.flag_wr_same (s : State) (f : Fld) (a v i : Nat) : (s.wr f a v i).flag f a i = (v % 2 ^ f.w != 0) := by
  simp [State.flag]

theorem State.flag_wr_ne (s : State) {f g : Fld} {a b i j : Nat} (v : Nat) (h : g.key b j ≠ f.key a i) :
    (s.wr f a v i).flag g b j = s.flag g b j := by
  simp [State.flag, State.rd_wr_ne s v h]

@[simp] theorem State.rd_inc_same (s : State) (f : Fld) (a n i : Nat) : (s.inc f a n i).rd f a i = (s.rd f a i + n) % 2 ^ f.w := by
  simp [State.inc]

/-- A bit set by `lor` reads 1. -/
theorem bit_lor (n b : Nat) (w : Nat) (h : b < w) : bit (Nat.lor n (2 ^ b) % 2 ^ w) b = true := by
  have : bit (Nat.lor n (2 ^ b) % 2 ^ w) b = ((n ||| 2 ^ b) % 2 ^ w).testBit b := rfl
  rw [this, Nat.testBit_mod_two_pow]
  simp [h]

/-! ### Control words -/

@[simp] theorem State.iff_true (s : State) (f : State → State) : s.iff true f = f s := rfl
@[simp] theorem State.iff_false (s : State) (f : State → State) : s.iff false f = s := rfl

@[simp] theorem State.each_nil {α : Type} (s : State) (f : α → State → State) : s.each [] f = s := rfl
@[simp] theorem State.each_cons {α : Type} (s : State) (x : α) (l : List α) (f : α → State → State) :
    s.each (x :: l) f = (f x s).each l f := rfl

/-- What each element keeps, the whole loop keeps. -/
theorem State.each_keeps {α β : Type} (g : State → β) (f : α → State → State) (l : List α) (h : ∀ x ∈ l, ∀ s, g (f x s) = g s) (s : State) :
    g (s.each l f) = g s := by
  induction l generalizing s with
  | nil => rfl
  | cons x l ih =>
    rw [State.each_cons, ih fun y hy => h y (List.mem_cons_of_mem _ hy)]
    exact h x (by simp) s

/-- What the guarded change keeps, the guard keeps. -/
theorem State.iff_keeps {β : Type} (g : State → β) (f : State → State) (s : State) (b : Bool) (h : g (f s) = g s) : g (s.iff b f) = g s := by
  cases b <;> simp [h]

/-! ### One command -/

@[simp] theorem State.cleared_pending (s : State) : s.cleared.pending = s.pending := rfl
@[simp] theorem State.cleared_now (s : State) : s.cleared.now = s.now := rfl
@[simp] theorem State.cleared_freeCtr (s : State) : s.cleared.freeCtr = s.freeCtr := rfl
@[simp] theorem State.cleared_regs (s : State) : s.cleared.regs = s.regs := rfl
@[simp] theorem State.cleared_shadow (s : State) : s.cleared.shadow = s.shadow := rfl
@[simp] theorem State.cleared_heldWrites (s : State) : s.cleared.heldWrites = s.heldWrites := rfl
@[simp] theorem State.cleared_commitSeq (s : State) : s.cleared.commitSeq = s.commitSeq := rfl
@[simp] theorem State.cleared_mem (s : State) : s.cleared.mem = s.mem := rfl
@[simp] theorem State.cleared_power (s : State) : s.cleared.power = s.power := rfl
@[simp] theorem State.cleared_boot (s : State) : s.cleared.boot = s.boot := rfl
@[simp] theorem State.cleared_sec (s : State) : s.cleared.sec = s.sec := rfl
@[simp] theorem State.cleared_mgmt (s : State) : s.cleared.mgmt = s.mgmt := rfl
@[simp] theorem State.cleared_time (s : State) : s.cleared.time = s.time := rfl
@[simp] theorem State.cleared_subs (s : State) : s.cleared.subs = s.subs := rfl
@[simp] theorem State.cleared_modules (s : State) : s.cleared.modules = s.modules := rfl
@[simp] theorem State.cleared_byp (s : State) : s.cleared.byp = s.byp := rfl
@[simp] theorem State.cleared_rel (s : State) : s.cleared.rel = s.rel := rfl
@[simp] theorem State.cleared_reader (s : State) : s.cleared.reader = s.reader := rfl
@[simp] theorem State.cleared_tables (s : State) : s.cleared.tables = s.tables := rfl
@[simp] theorem State.cleared_sw (s : State) : s.cleared.sw = s.sw := rfl
@[simp] theorem State.cleared_coll (s : State) : s.cleared.coll = s.coll := rfl
@[simp] theorem State.cleared_cores (s : State) : s.cleared.cores = s.cores := rfl
@[simp] theorem State.cleared_out (s : State) : s.cleared.out = [] := rfl
@[simp] theorem State.cleared_rd (s : State) (f : Fld) (a i : Nat) : s.cleared.rd f a i = s.rd f a i := rfl
@[simp] theorem State.cleared_flag (s : State) (f : Fld) (a i : Nat) : s.cleared.flag f a i = s.flag f a i := rfl
@[simp] theorem State.cleared_faulted (s : State) : s.cleared.faulted = s.faulted := rfl

@[simp] theorem State.command_eq (s : State) (f : State → State) : s.command f = .next (s.run f) := rfl

@[simp] theorem State.commandIf_true (s : State) (f : State → State) : s.commandIf true f = .next (s.run f) := rfl
@[simp] theorem State.commandIf_false (s : State) (f : State → State) : s.commandIf false f = .fault .illFormed := rfl

@[simp] theorem State.run_pending (s : State) (f : State → State) : (s.run f).pending = s.pending := rfl
@[simp] theorem State.run_now (s : State) (f : State → State) : (s.run f).now = s.now := rfl
@[simp] theorem State.run_out (s : State) (f : State → State) : (s.run f).out = (f s.cleared).out := rfl
@[simp] theorem State.run_freeCtr (s : State) (f : State → State) : (s.run f).freeCtr = (f s.cleared).freeCtr := rfl
@[simp] theorem State.run_regs (s : State) (f : State → State) : (s.run f).regs = (f s.cleared).regs := rfl
@[simp] theorem State.run_shadow (s : State) (f : State → State) : (s.run f).shadow = (f s.cleared).shadow := rfl
@[simp] theorem State.run_heldWrites (s : State) (f : State → State) : (s.run f).heldWrites = (f s.cleared).heldWrites := rfl
@[simp] theorem State.run_commitSeq (s : State) (f : State → State) : (s.run f).commitSeq = (f s.cleared).commitSeq := rfl
@[simp] theorem State.run_mem (s : State) (f : State → State) : (s.run f).mem = (f s.cleared).mem := rfl
@[simp] theorem State.run_boot (s : State) (f : State → State) : (s.run f).boot = (f s.cleared).boot := rfl
@[simp] theorem State.run_sec (s : State) (f : State → State) : (s.run f).sec = (f s.cleared).sec := rfl
@[simp] theorem State.run_mgmt (s : State) (f : State → State) : (s.run f).mgmt = (f s.cleared).mgmt := rfl
@[simp] theorem State.run_time (s : State) (f : State → State) : (s.run f).time = (f s.cleared).time := rfl
@[simp] theorem State.run_subs (s : State) (f : State → State) : (s.run f).subs = (f s.cleared).subs := rfl
@[simp] theorem State.run_modules (s : State) (f : State → State) : (s.run f).modules = (f s.cleared).modules := rfl
@[simp] theorem State.run_byp (s : State) (f : State → State) : (s.run f).byp = (f s.cleared).byp := rfl
@[simp] theorem State.run_rel (s : State) (f : State → State) : (s.run f).rel = (f s.cleared).rel := rfl
@[simp] theorem State.run_reader (s : State) (f : State → State) : (s.run f).reader = (f s.cleared).reader := rfl
@[simp] theorem State.run_tables (s : State) (f : State → State) : (s.run f).tables = (f s.cleared).tables := rfl
@[simp] theorem State.run_sw (s : State) (f : State → State) : (s.run f).sw = (f s.cleared).sw := rfl
@[simp] theorem State.run_coll (s : State) (f : State → State) : (s.run f).coll = (f s.cleared).coll := rfl
@[simp] theorem State.run_cores (s : State) (f : State → State) : (s.run f).cores = (f s.cleared).cores := rfl
@[simp] theorem State.run_rd (s : State) (f : State → State) (g : Fld) (a i : Nat) :
    (s.run f).rd g a i = (f s.cleared).rd g a i := rfl
@[simp] theorem State.run_flag (s : State) (f : State → State) (g : Fld) (a i : Nat) :
    (s.run f).flag g a i = (f s.cleared).flag g a i := rfl
@[simp] theorem State.run_power (s : State) (f : State → State) :
    (s.run f).power = { (f s.cleared).power with faultN := !(f s.cleared).faulted } := rfl

/-- A command is what its effect does to the state with the outputs taken away. -/
theorem State.run_congr {s : State} {f g : State → State} (h : f s.cleared = g s.cleared) : s.run f = s.run g := by
  unfold State.run; rw [h]

@[simp] theorem State.run_faulted (s : State) (f : State → State) : (s.run f).faulted = (f s.cleared).faulted := rfl

/-- FAULT_N follows PWR_FAULT after every command (R393). -/
theorem State.run_faultN (s : State) (f : State → State) : (s.run f).power.faultN = !(s.run f).faulted := rfl

end Sys2Proof.Machine
end

