-- ==== Sys2Proof/Laws/Frame.lean ====
section
/-! SUPPORT. What the shared operations can change: counters, event rings, page interrupts, errors and completions write their own
register fields, queue pairs, outputs and records, and nothing else. Each operation has one lemma that says so. -/

namespace Sys2Proof.Machine

/-- What every step of a walk over a list keeps, the whole walk keeps: for a relation that is reflexive and transitive. -/
theorem State.each_rel {α : Type} {R : State → State → Prop} (hr : ∀ s, R s s) (ht : ∀ {s t u}, R s t → R t u → R s u) (f : α → State → State) :
    ∀ (l : List α), (∀ x ∈ l, ∀ s, R s (f x s)) → ∀ s, R s (s.each l f)
  | [], _, s => hr s
  | x :: l, h, s => ht (h x (.head l) s) (State.each_rel hr ht f l (fun y hy => h y (.tail x hy)) (f x s))

/-- What a guarded step keeps. -/
theorem State.iff_rel {R : State → State → Prop} (hr : ∀ s, R s s) (s : State) (b : Bool) (f : State → State) (h : R s (f s)) : R s (s.iff b f) :=
  match b with
  | true => h
  | false => hr s

/-- `t` differs from `s` in register fields outside `p` at most, as far as registers go. -/
def RegKept (p : Nat → Prop) (s t : State) : Prop := ∀ (d k : Nat), p k → Sparse.get d t.regs k = Sparse.get d s.regs k

namespace RegKept

variable {p q : Nat → Prop} {s t u : State}

theorem refl (p : Nat → Prop) (s : State) : RegKept p s s := fun _ _ _ => rfl
theorem of_eq (h : t.regs = s.regs) : RegKept p s t := fun _ _ _ => by rw [h]
theorem trans (h : RegKept p s t) (k : RegKept p t u) : RegKept p s u := fun d i hi => (k d i hi).trans (h d i hi)
theorem mono (h : RegKept p s t) (hq : ∀ k, q k → p k) : RegKept q s t := fun d i hi => h d i (hq i hi)

/-- A field under a kept key reads the same. -/
theorem rd (h : RegKept p s t) {f : Fld} {a i : Nat} (hk : p (f.key a i)) : t.rd f a i = s.rd f a i := by
  simp [State.rd, h _ _ hk]

theorem flag (h : RegKept p s t) {f : Fld} {a i : Nat} (hk : p (f.key a i)) : t.flag f a i = s.flag f a i := by
  simp [State.flag, h.rd hk]

theorem wr (s : State) (f : Fld) (a v i : Nat) (hk : ¬p (f.key a i)) : RegKept p s (s.wr f a v i) := fun _ _ hp =>
  Sparse.get_set_ne _ _ _ fun e => hk (e ▸ hp)

theorem iff (b : Bool) (f : State → State) (h : RegKept p s (f s)) : RegKept p s (s.iff b f) := State.iff_rel (refl p) s b f h

theorem each {α : Type} (l : List α) (f : α → State → State) (h : ∀ x ∈ l, ∀ s, RegKept p s (f x s)) (s : State) :
    RegKept p s (s.each l f) := State.each_rel (refl p) trans f l h s

end RegKept

/-- What counting, events, interrupts, errors and outputs leave alone: all of a state but its register fields, outputs, queue pairs and
records. -/
def State.still (s : State) : State := { s with regs := [], out := [], mgmt := Mgmt.fresh, rel := Rel.fresh }

/-- `t` differs from `s` in register fields outside `p`, in outputs, queue pairs and records at most. -/
structure Kept (p : Nat → Prop) (s t : State) : Prop where
  regs : RegKept p s t
  still : t.still = s.still

namespace Kept

variable {p q : Nat → Prop} {s t u : State}

theorem refl (p : Nat → Prop) (s : State) : Kept p s s := ⟨RegKept.refl p s, rfl⟩
theorem trans (h : Kept p s t) (k : Kept p t u) : Kept p s u := ⟨h.regs.trans k.regs, k.still.trans h.still⟩
theorem mono (h : Kept p s t) (hq : ∀ k, q k → p k) : Kept q s t := ⟨h.regs.mono hq, h.still⟩

/-! The parts that stay. -/
theorem pending (h : Kept p s t) : t.pending = s.pending := (congrArg State.pending h.still :)
theorem now (h : Kept p s t) : t.now = s.now := (congrArg State.now h.still :)
theorem freeCtr (h : Kept p s t) : t.freeCtr = s.freeCtr := (congrArg State.freeCtr h.still :)
theorem shadow (h : Kept p s t) : t.shadow = s.shadow := (congrArg State.shadow h.still :)
theorem heldWrites (h : Kept p s t) : t.heldWrites = s.heldWrites := (congrArg State.heldWrites h.still :)
theorem commitSeq (h : Kept p s t) : t.commitSeq = s.commitSeq := (congrArg State.commitSeq h.still :)
theorem mem (h : Kept p s t) : t.mem = s.mem := (congrArg State.mem h.still :)
theorem power (h : Kept p s t) : t.power = s.power := (congrArg State.power h.still :)
theorem boot (h : Kept p s t) : t.boot = s.boot := (congrArg State.boot h.still :)
theorem sec (h : Kept p s t) : t.sec = s.sec := (congrArg State.sec h.still :)
theorem time (h : Kept p s t) : t.time = s.time := (congrArg State.time h.still :)
theorem subs (h : Kept p s t) : t.subs = s.subs := (congrArg State.subs h.still :)
theorem modules (h : Kept p s t) : t.modules = s.modules := (congrArg State.modules h.still :)
theorem byp (h : Kept p s t) : t.byp = s.byp := (congrArg State.byp h.still :)
theorem reader (h : Kept p s t) : t.reader = s.reader := (congrArg State.reader h.still :)
theorem tables (h : Kept p s t) : t.tables = s.tables := (congrArg State.tables h.still :)
theorem sw (h : Kept p s t) : t.sw = s.sw := (congrArg State.sw h.still :)
theorem coll (h : Kept p s t) : t.coll = s.coll := (congrArg State.coll h.still :)
theorem cores (h : Kept p s t) : t.cores = s.cores := (congrArg State.cores h.still :)

/-- A field under a kept key reads the same. -/
theorem rd (h : Kept p s t) {f : Fld} {a i : Nat} (hk : p (f.key a i)) : t.rd f a i = s.rd f a i := h.regs.rd hk
theorem flag (h : Kept p s t) {f : Fld} {a i : Nat} (hk : p (f.key a i)) : t.flag f a i = s.flag f a i := h.regs.flag hk

theorem wr (s : State) (f : Fld) (a v i : Nat) (hk : ¬p (f.key a i)) : Kept p s (s.wr f a v i) := ⟨RegKept.wr s f a v i hk, rfl⟩
theorem mgmt (s : State) (m : Mgmt) : Kept p s { s with mgmt := m } := ⟨RegKept.of_eq rfl, rfl⟩
theorem out (s : State) (l : List Output) : Kept p s { s with out := l } := ⟨RegKept.of_eq rfl, rfl⟩
theorem rel (s : State) (r : Rel) : Kept p s { s with rel := r } := ⟨RegKept.of_eq rfl, rfl⟩

theorem iff (b : Bool) (f : State → State) (h : Kept p s (f s)) : Kept p s (s.iff b f) := State.iff_rel (refl p) s b f h

theorem each {α : Type} (l : List α) (f : α → State → State) (h : ∀ x ∈ l, ∀ s, Kept p s (f x s)) (s : State) : Kept p s (s.each l f) :=
  State.each_rel (refl p) trans f l h s

end Kept

theorem RegKept.of_kept {p : Nat → Prop} {s t : State} (h : Kept p s t) : RegKept p s t := h.regs

/-! ### Which keys an operation may write -/

/-- Keys that counting keeps, that an event keeps, that an interrupt of page `a` keeps, that an error of page `a` keeps. -/
def noCtr (k : Nat) : Prop := ¬isCtr k
def noEvent (k : Nat) : Prop := ¬isCtr k ∧ ¬isEvr k
def noIrq (a k : Nat) : Prop := noEvent k ∧ ¬isIrq a k
def noErr (a k : Nat) : Prop := noIrq a k ∧ ¬isErr a k

theorem noEvent.ctr {k : Nat} (h : noEvent k) : noCtr k := h.1
theorem noIrq.event {a k : Nat} (h : noIrq a k) : noEvent k := h.1
theorem noErr.irq {a k : Nat} (h : noErr a k) : noIrq a k := h.1
theorem noErr.event {a k : Nat} (h : noErr a k) : noEvent k := h.1.1

/-- Page and offset of the key of a field whose register lies in the page at `a`. -/
theorem key_place (f : Fld) (a i : Nat) (ha : a % 4096 = 0) (ho : f.offAt i < 4096) (hl : f.loAt i < 64) :
    pageOf (f.key a i) = a ∧ offOf (f.key a i) = f.offAt i := by
  unfold pageOf offOf Fld.key
  omega

/-! ### Shared operations -/

theorem ctr_key (f : Fld) (a k : Nat) (ha : a % 4096 = 0) (hk : k < 16) (h1 : f.off = 0xF00) (h2 : f.stride = 8) (h3 : f.per = 1)
    (h4 : f.step = 0) (h5 : f.lo < 64) : ¬noCtr (f.key a k) := by
  intro h
  apply h
  simp only [isCtr, offOf, Fld.key, Fld.offAt, Fld.loAt, h1, h2, h3, h4, Nat.div_one, Nat.zero_mul, Nat.add_zero]
  omega

theorem ctrAdd_kept (s : State) (a k n : Nat) (ha : a % 4096 = 0) (hk : k < 16) : Kept noCtr s (s.ctrAdd a k n) := by
  unfold State.ctrAdd
  dsimp only
  refine Kept.trans (Kept.wr s _ _ (s.rd CTR_VALUE.count a k + n) _ (ctr_key CTR_VALUE.count a k ha hk rfl rfl rfl rfl (by decide))) ?_
  exact Kept.iff _ _ (Kept.wr _ _ _ _ _ (ctr_key CTR_VALUE.wrapped a k ha hk rfl rfl rfl rfl (by decide)))

/-- A counter event changes counter values of its page. -/
theorem count_kept (s : State) (a code inst n : Nat) (ha : a % 4096 = 0) : Kept noCtr s (s.count a code inst n) := by
  unfold State.count
  exact Kept.each _ _ (fun k hk s => Kept.iff _ _ (ctrAdd_kept s a k n ha (List.mem_range.mp hk))) s

/-- A counter event changes registers alone. -/
theorem count_eq (s : State) (a code inst n : Nat) : ∃ r, s.count a code inst n = { s with regs := r } := by
  have h : ∀ (l : List Nat) (t : State), ∃ r, t.each l (fun k s => s.iff (s.ctrSelects a k code inst) fun s => s.ctrAdd a k n) = { t with regs := r } := by
    intro l
    induction l with
    | nil => exact fun t => ⟨t.regs, rfl⟩
    | cons k l ih =>
      intro t
      rw [State.each_cons]
      have h1 : ∃ r, t.iff (t.ctrSelects a k code inst) (fun s => s.ctrAdd a k n) = { t with regs := r } := by
        cases t.ctrSelects a k code inst
        · exact ⟨t.regs, rfl⟩
        · unfold State.ctrAdd
          dsimp only [State.iff_true]
          cases decide (2 ^ 48 ≤ t.rd CTR_VALUE.count a k + n) <;> exact ⟨_, rfl⟩
      obtain ⟨r, hr⟩ := h1
      rw [hr]
      obtain ⟨r2, h2⟩ := ih { t with regs := r }
      exact ⟨r2, h2⟩
  exact h _ s

theorem count_out (s : State) (a code inst n : Nat) : (s.count a code inst n).out = s.out := by
  obtain ⟨r, h⟩ := count_eq s a code inst n
  rw [h]

theorem count_mgmt (s : State) (a code inst n : Nat) : (s.count a code inst n).mgmt = s.mgmt := by
  obtain ⟨r, h⟩ := count_eq s a code inst n
  rw [h]

theorem count_rel (s : State) (a code inst n : Nat) : (s.count a code inst n).rel = s.rel := by
  obtain ⟨r, h⟩ := count_eq s a code inst n
  rw [h]

/-- An output that is no frame of a management port appears, and nothing else changes. -/
theorem emit_plain (s : State) (o : Output) (h : o.mgtFrames = none) : s.emit o = { s with out := s.out ++ [o] } := by
  unfold State.emit
  simp only [h]

theorem emit_rd (s : State) (o : Output) (f : Fld) (a i : Nat) (h : o.mgtFrames = none) : (s.emit o).rd f a i = s.rd f a i :=
  State.rd_congr (by rw [emit_plain s o h]) f a i

theorem mgtPage_aligned (m : Nat) : mgtPage m % 4096 = 0 := by
  unfold mgtPage diePage; omega

/-- An output changes outputs and counter values. -/
theorem emit_kept (s : State) (o : Output) : Kept noCtr s (s.emit o) := by
  unfold State.emit
  have h : Kept noCtr s { s with out := s.out ++ [o] } := Kept.out s _
  cases o.mgtFrames with
  | none => exact h
  | some x => exact h.trans (count_kept _ _ _ _ _ (mgtPage_aligned x.1))

theorem request_kept (s : State) (q : Nat) (x : Request) : Kept noCtr s (s.request q x) :=
  (Kept.mgmt s _).trans (emit_kept _ _)

theorem evrPage_aligned (e : Nat) : evrPage e % 4096 = 0 := by
  unfold evrPage pkgPage; omega

theorem evr_key {f : Fld} (e : Nat) (he : e < 256) (h1 : f.off = 0x18) (h2 : f.stride = 0) (h3 : f.per = 1) (h4 : f.step = 0) (h5 : f.lo < 64) :
    ¬noEvent (f.key (evrBlock e) 0) := by
  intro h
  apply h.2
  have hq : e / 32 < 8 := by omega
  have hr : e % 32 < 32 := Nat.mod_lt _ (by decide)
  simp only [isEvr, pageOf, Fld.key, Fld.offAt, Fld.loAt, evrBlock, pkgPage, h1, h2, h3, h4, Nat.zero_mul, Nat.add_zero]
  generalize e / 32 = q at *
  generalize e % 32 = r at *
  omega

theorem evrPut_kept (s : State) (e code sev page d0 d1 : Nat) (he : e < 256) : Kept noEvent s (s.evrPut e code sev page d0 d1) := by
  unfold State.evrPut
  dsimp only
  refine Kept.trans ?_ ((count_kept _ _ _ _ _ (evrPage_aligned e)).mono fun k h => h.ctr)
  refine Kept.trans ?_ (Kept.wr _ _ _ _ _ (evr_key e he rfl rfl rfl rfl (by decide)))
  exact ((request_kept _ _ _).mono fun k h => h.ctr).trans (Kept.mgmt _ _)

theorem evrOverflow_kept (s : State) (e : Nat) (he : e < 256) : Kept noEvent s (s.evrOverflow e) := by
  unfold State.evrOverflow
  exact Kept.iff _ _ ((evrPut_kept _ _ _ _ _ _ _ he).trans (Kept.wr _ _ _ _ _ (evr_key e he rfl rfl rfl rfl (by decide))))

/-- An event offered to a ring changes the ring's registers, its queue pair, outputs and counter values. -/
theorem event_kept (s : State) (e code sev page d0 d1 : Nat) (he : e < 256) : Kept noEvent s (s.event e code sev page d0 d1) := by
  unfold State.event
  dsimp only
  split_ifs
  · exact Kept.refl _ _
  · refine (evrOverflow_kept s e he).trans (Kept.trans ?_ ((count_kept _ _ _ _ _ (evrPage_aligned e)).mono fun k h => h.ctr))
    exact Kept.wr _ _ _ _ _ (evr_key e he rfl rfl rfl rfl (by decide))
  · exact (evrOverflow_kept s e he).trans (evrPut_kept _ _ _ _ _ _ _ he)

theorem alarmRings_lt (s : State) (e : Nat) (h : e ∈ s.alarmRings) : e < 256 :=
  List.mem_range.mp (List.mem_of_mem_filter h)

theorem alarm_kept (s : State) (code sev page d0 d1 : Nat) : Kept noEvent s (s.alarm code sev page d0 d1) := by
  unfold State.alarm
  exact Kept.each _ _ (fun e he t => event_kept t e _ _ _ _ _ (alarmRings_lt s e he)) s

/-- What a change of interrupt bits keeps, the change with its PAGE_IRQ event keeps. -/
theorem irqEdge_kept {p : Nat → Prop} (s : State) (a : Nat) (f : State → State) (h : Kept p s (f s)) (hp : ∀ k, p k → noEvent k)
    (he : (f s).rd PG_CTRL.event_ring a < 256) : Kept p s (s.irqEdge a f) := by
  unfold State.irqEdge
  exact h.trans (Kept.iff _ _ ((event_kept _ _ _ _ _ _ _ he).mono hp))

theorem key_irq (f : Fld) (a : Nat) (ha : a % 4096 = 0) (h1 : f.off = 0x18) (h2 : f.stride = 0) (h4 : f.step = 0) (h5 : f.lo < 64) :
    isIrq a (f.key a 0) := by
  simp only [isIrq, pageOf, offOf, Fld.key, Fld.offAt, Fld.loAt, h1, h2, h4, Nat.zero_mul, Nat.add_zero]
  omega

theorem key_err (f : Fld) (a : Nat) (ha : a % 4096 = 0) (h1 : f.off = 0x30 ∨ f.off = 0x38) (h2 : f.stride = 0) (h4 : f.step = 0)
    (h5 : f.lo < 64) : isErr a (f.key a 0) := by
  simp only [isErr, pageOf, offOf, Fld.key, Fld.offAt, Fld.loAt, h2, h4, Nat.zero_mul, Nat.add_zero]
  rcases h1 with h1 | h1 <;> rw [h1] <;> omega

/-- The event ring that a page names is one of the 256. -/
theorem eventRing_lt (s : State) (a : Nat) : s.rd PG_CTRL.event_ring a < 256 := s.rd_lt _ _ _

theorem irq_kept (s : State) (a b : Nat) (ha : a % 4096 = 0) : Kept (noIrq a) s (s.irq a b) :=
  irqEdge_kept s a _ (Kept.wr _ _ _ _ _ fun h => h.2 (key_irq _ a ha rfl rfl rfl (by decide))) (fun _ h => h.1) (eventRing_lt _ a)

theorem irqGuard_kept (s : State) (a : Nat) (ha : a % 4096 = 0) : Kept (noIrq a) s (s.irqGuard a) :=
  irqEdge_kept s a _ (Kept.wr _ _ _ _ _ fun h => h.2 (key_irq _ a ha rfl rfl rfl (by decide))) (fun _ h => h.1) (eventRing_lt _ a)

theorem irqDual_kept (s : State) (a : Nat) (ha : a % 4096 = 0) : Kept (noIrq a) s (s.irqDual a) :=
  irqEdge_kept s a _ (Kept.wr _ _ _ _ _ fun h => h.2 (key_irq _ a ha rfl rfl rfl (by decide))) (fun _ h => h.1) (eventRing_lt _ a)

theorem irqCommit_kept (s : State) (a : Nat) (ha : a % 4096 = 0) : Kept (noIrq a) s (s.irqCommit a) :=
  irqEdge_kept s a _ (Kept.wr _ _ _ _ _ fun h => h.2 (key_irq _ a ha rfl rfl rfl (by decide))) (fun _ h => h.1) (eventRing_lt _ a)

/-- The PAGE_IRQ event leaves what the change of interrupt bits wrote, on a page that is no event ring page. -/
theorem irqEdge_rd (s : State) (a : Nat) (f : State → State) (g : Fld) (b i : Nat) (hk : noEvent (g.key b i)) :
    (s.irqEdge a f).rd g b i = (f s).rd g b i := by
  unfold State.irqEdge
  exact State.iff_keeps (fun t => t.rd g b i) _ _ _ ((event_kept _ _ _ _ _ _ _ (eventRing_lt _ a)).rd hk)

/-- An interrupt bit is set, on a page that is no event ring page. -/
theorem irq_raw (s : State) (a b : Nat) (hk : noEvent (PG_IRQ_RAW.block_irq.key a 0)) :
    (s.irq a b).rd PG_IRQ_RAW.block_irq a = Nat.lor (s.rd PG_IRQ_RAW.block_irq a) (2 ^ (b - 4)) % 2 ^ 60 := by
  unfold State.irq
  rw [irqEdge_rd _ _ _ _ _ _ hk, State.rd_wr_same]
  rfl

theorem pageError_kept (s : State) (a code session detail : Nat) (ha : a % 4096 = 0) :
    Kept (noErr a) s (s.pageError a code session detail) := by
  have ke : ∀ f : Fld, (f.off = 0x30 ∨ f.off = 0x38) → f.stride = 0 → f.step = 0 → f.lo < 64 → ¬noErr a (f.key a 0) :=
    fun f h1 h2 h4 h5 h => h.2 (key_err f a ha h1 h2 h4 h5)
  have h0 : Kept (noErr a) s (s.incSat PG_ERR_COUNT.count a) := Kept.wr _ _ _ _ _ (ke _ (by decide) rfl rfl (by decide))
  unfold State.pageError
  dsimp only
  split_ifs
  · exact h0
  · refine h0.trans ((Kept.wr _ PG_ERR_FIRST.code a code 0 (ke _ (by decide) rfl rfl (by decide))).trans
      ((Kept.wr _ PG_ERR_FIRST.session a session 0 (ke _ (by decide) rfl rfl (by decide))).trans
      ((Kept.wr _ PG_ERR_FIRST.detail a detail 0 (ke _ (by decide) rfl rfl (by decide))).trans ?_)))
    refine irqEdge_kept _ a _ ?_ (fun _ h => h.event) (eventRing_lt _ a)
    exact (Kept.wr _ PG_ERR_FIRST.valid a 1 0 (ke _ (by decide) rfl rfl (by decide))).trans
      (Kept.wr _ _ _ _ _ fun h => h.irq.2 (key_irq _ a ha rfl rfl rfl (by decide)))

/-- What an error of page `a` leaves in its error registers, for a page that holds no event rings (R55, R439). -/
theorem pageError_spec (s : State) (a code session detail : Nat) (ha : a % 4096 = 0) (he : a < 0xF010000 ∨ 0xF018000 ≤ a) :
    (s.pageError a code session detail).rd PG_ERR_COUNT.count a = min (s.rd PG_ERR_COUNT.count a + 1) (2 ^ 48 - 1)
    ∧ (s.flag PG_ERR_FIRST.valid a = false → (s.pageError a code session detail).rd PG_ERR_FIRST.code a = code % 2 ^ 16
      ∧ (s.pageError a code session detail).rd PG_ERR_FIRST.session a = session % 2 ^ 8
      ∧ (s.pageError a code session detail).rd PG_ERR_FIRST.detail a = detail % 2 ^ 24
      ∧ (s.pageError a code session detail).flag PG_ERR_FIRST.valid a = true)
    ∧ (s.flag PG_ERR_FIRST.valid a = true → (s.pageError a code session detail) = s.incSat PG_ERR_COUNT.count a) := by
  have hne : ∀ f : Fld, f.offAt 0 < 0xF00 → f.loAt 0 < 64 → noEvent (f.key a 0) := by
    intro f h1 h2
    obtain ⟨k1, k2⟩ := key_place f a 0 ha (by omega) h2
    refine ⟨fun h => ?_, fun h => ?_⟩
    · rw [isCtr, k2] at h; omega
    · rw [isEvr, k1] at h; omega
  have hcount : (s.incSat PG_ERR_COUNT.count a).rd PG_ERR_COUNT.count a = min (s.rd PG_ERR_COUNT.count a + 1) (2 ^ 48 - 1) := by
    unfold State.incSat
    rw [State.rd_wr_same]
    refine Nat.mod_eq_of_lt ?_
    show min _ (2 ^ 48 - 1) < 2 ^ 48
    omega
  have hv : (s.incSat PG_ERR_COUNT.count a).flag PG_ERR_FIRST.valid a = s.flag PG_ERR_FIRST.valid a :=
    State.flag_wr_ne _ _ (by simp only [Fld.key, Fld.offAt, Fld.loAt, PG_ERR_COUNT.count, PG_ERR_FIRST.valid]; omega)
  unfold State.pageError
  dsimp only
  rw [hv]
  cases h : s.flag PG_ERR_FIRST.valid a
  · rw [if_neg (by simp)]
    refine ⟨?_, fun _ => ⟨?_, ?_, ?_, ?_⟩, fun h => absurd h (by simp)⟩
    · rw [irqEdge_rd _ _ _ _ _ _ (hne _ (by decide) (by decide)), State.rd_wr_ne, State.rd_wr_ne, State.rd_wr_ne, State.rd_wr_ne, State.rd_wr_ne, hcount]
      all_goals simp only [Fld.key, Fld.offAt, Fld.loAt, PG_ERR_COUNT.count, PG_ERR_FIRST.valid, PG_ERR_FIRST.code, PG_ERR_FIRST.session, PG_ERR_FIRST.detail, PG_IRQ_RAW.err_latched]; omega
    · rw [irqEdge_rd _ _ _ _ _ _ (hne _ (by decide) (by decide)), State.rd_wr_ne, State.rd_wr_ne, State.rd_wr_ne, State.rd_wr_ne, State.rd_wr_same]
      · rfl
      all_goals simp only [Fld.key, Fld.offAt, Fld.loAt, PG_ERR_FIRST.valid, PG_ERR_FIRST.code, PG_ERR_FIRST.session, PG_ERR_FIRST.detail, PG_IRQ_RAW.err_latched]; omega
    · rw [irqEdge_rd _ _ _ _ _ _ (hne _ (by decide) (by decide)), State.rd_wr_ne, State.rd_wr_ne, State.rd_wr_ne, State.rd_wr_same]
      · rfl
      all_goals simp only [Fld.key, Fld.offAt, Fld.loAt, PG_ERR_FIRST.valid, PG_ERR_FIRST.session, PG_ERR_FIRST.detail, PG_IRQ_RAW.err_latched]; omega
    · rw [irqEdge_rd _ _ _ _ _ _ (hne _ (by decide) (by decide)), State.rd_wr_ne, State.rd_wr_ne, State.rd_wr_same]
      · rfl
      all_goals simp only [Fld.key, Fld.offAt, Fld.loAt, PG_ERR_FIRST.valid, PG_ERR_FIRST.detail, PG_IRQ_RAW.err_latched]; omega
    · unfold State.flag
      rw [irqEdge_rd _ _ _ _ _ _ (hne _ (by decide) (by decide)), State.rd_wr_ne, State.rd_wr_same]
      · rfl
      all_goals simp only [Fld.key, Fld.offAt, Fld.loAt, PG_ERR_FIRST.valid, PG_IRQ_RAW.err_latched]; omega
  · rw [if_pos rfl]
    exact ⟨hcount, fun h => absurd h (by simp), fun _ => rfl⟩

/-- Where the indices of the error records stand. -/
def isRec (k : Nat) : Prop := pageOf k = ctlPkgPage ∧ 0x110 ≤ offOf k ∧ offOf k < 0x130
def noHw (a k : Nat) : Prop := noErr a k ∧ ¬isRec k

theorem ctlPkgPage_aligned : ctlPkgPage % 4096 = 0 := by decide

theorem errRecord_kept (s : State) (e : ErrRec) (he : e.die < 4) : Kept (fun k => noCtr k ∧ ¬isRec k) s (s.errRecord e) := by
  unfold State.errRecord
  dsimp only
  split_ifs
  · exact Kept.refl _ _
  · refine Kept.trans ?_ ((count_kept _ _ _ _ _ ctlPkgPage_aligned).mono fun _ h => h.1)
    refine Kept.trans (Kept.rel s _) (Kept.wr _ _ _ _ _ fun h => h.2 ?_)
    simp only [isRec, pageOf, offOf, Fld.key, Fld.offAt, Fld.loAt, CTL_ERR_PRODUCER.producer, ctlPkgPage, pkgPage]
    omega

/-- An error of a block writes its record, its page, the alarm rings and a counter, and nothing else. -/
theorem hwError_kept (s : State) (e : ErrRec) (page irqBit event sev d0 ctr inst : Nat) (he : e.die < 4) (ha : page % 4096 = 0) :
    Kept (noHw page) s (s.hwError e page irqBit event sev d0 ctr inst) := by
  unfold State.hwError
  dsimp only
  refine Kept.trans ?_ (Kept.iff _ _ ((count_kept _ _ _ _ _ ha).mono fun _ h => h.1.event.ctr))
  refine Kept.trans ?_ (Kept.iff _ _ ((alarm_kept _ _ _ _ _ _).mono fun _ h => h.1.event))
  refine Kept.trans ?_ (Kept.iff _ _ ((irq_kept _ _ _ ha).mono fun _ h => h.1.irq))
  refine Kept.trans ?_ ((pageError_kept _ _ _ _ _ ha).mono fun _ h => h.1)
  exact (errRecord_kept s e he).mono fun _ h => ⟨h.1.event.ctr, h.2⟩

/-- A field of a die's page, away from the header's interrupt and error registers and from the counters, is one that errors, interrupts
and events of any page keep. -/
theorem low_noHw (f : Fld) (a b i : Nat) (ha : a % 4096 = 0) (hlt : a < 0xF000000) (h1 : f.offAt i ≠ 0x18 ∧ f.offAt i ≠ 0x30 ∧ f.offAt i ≠ 0x38 ∧ f.offAt i < 0xF00)
    (h2 : f.loAt i < 64) : noHw b (f.key a i) := by
  obtain ⟨k1, k2⟩ := key_place f a i ha (by omega) h2
  refine ⟨⟨⟨⟨fun h => ?_, fun h => ?_⟩, fun h => ?_⟩, fun h => ?_⟩, fun h => ?_⟩
  · rw [isCtr, k2] at h; omega
  · rw [isEvr, k1] at h; omega
  · rw [isIrq, k2] at h; omega
  · rw [isErr, k2] at h; omega
  · rw [isRec, k1] at h; have := h.1; simp only [ctlPkgPage, pkgPage] at this; omega

/-- Two fields of the same block lie apart where their registers or bits do. -/
theorem key_ne (f g : Fld) (a i j : Nat) (h : f.offAt i * 64 + f.loAt i ≠ g.offAt j * 64 + g.loAt j) : f.key a i ≠ g.key a j := by
  unfold Fld.key; omega

/-- Fields of two pages lie apart. -/
theorem page_ne (f g : Fld) (a b i j : Nat) (ha : a % 4096 = 0) (hb : b % 4096 = 0) (h : a ≠ b) (hf1 : f.offAt i < 4096) (hf2 : f.loAt i < 64)
    (hg1 : g.offAt j < 4096) (hg2 : g.loAt j < 64) : f.key a i ≠ g.key b j := by
  intro e
  have h1 := (key_place f a i ha hf1 hf2).1
  rw [e, (key_place g b j hb hg1 hg2).1] at h1
  exact h h1.symm

theorem SameCore.of_kept {p : Nat → Prop} {s t : State} (h : Kept p s t) : SameCore s t := ⟨h.mem, h.tables, h.sw, h.coll, h.cores, h.subs⟩

theorem SameCore.trans {s t u : State} (h : SameCore s t) (k : SameCore t u) : SameCore s u :=
  ⟨k.mem.trans h.mem, k.tables.trans h.tables, k.sw.trans h.sw, k.coll.trans h.coll, k.cores.trans h.cores, k.subs.trans h.subs⟩

theorem SameCore.of_run {s : State} {f : State → State} (h : SameCore s (f s.cleared)) : SameCore s (s.run f) := ⟨h.mem, h.tables, h.sw, h.coll, h.cores, h.subs⟩

theorem pkg_noEvent (f : Fld) (a i : Nat) (ha : a % 4096 = 0) (hlt : a < 0xF010000 ∨ 0xF018000 ≤ a) (h1 : f.offAt i < 0xF00) (h2 : f.loAt i < 64) : noEvent (f.key a i) := by
  obtain ⟨k1, k2⟩ := key_place f a i ha (by omega) h2
  refine ⟨fun h => ?_, fun h => ?_⟩
  · rw [isCtr, k2] at h; omega
  · rw [isEvr, k1] at h; omega

theorem hwError_core (s : State) (e : ErrRec) (page irqBit event sev d0 ctr inst : Nat) (he : e.die < 4) (ha : page % 4096 = 0) :
   SameCore s (s.hwError e page irqBit event sev d0 ctr inst) := SameCore.of_kept (hwError_kept s e page irqBit event sev d0 ctr inst he ha)

theorem hwError_producer (s : State) (e : ErrRec) (page irqBit event sev d0 ctr inst : Nat) (he : e.die < 4) (ha : page % 4096 = 0) (hb : bit s.boot.lpUnused e.die = false) :
    (s.hwError e page irqBit event sev d0 ctr inst).rd CTL_ERR_PRODUCER.producer ctlPkgPage e.die = (s.rd CTL_ERR_PRODUCER.producer ctlPkgPage e.die + 1) % 2 ^ 62 := by
  have ho : CTL_ERR_PRODUCER.producer.offAt e.die = 0x110 + 8 * e.die ∧ CTL_ERR_PRODUCER.producer.loAt e.die = 0 := by
    simp [Fld.offAt, Fld.loAt, CTL_ERR_PRODUCER.producer]
  have hn : noEvent (CTL_ERR_PRODUCER.producer.key ctlPkgPage e.die) := pkg_noEvent _ _ _ (by decide) (.inl (by unfold ctlPkgPage pkgPage; omega)) (by omega) (by omega)
  obtain ⟨k1, k2⟩ := key_place CTL_ERR_PRODUCER.producer ctlPkgPage e.die (by decide) (by omega) (by omega)
  have hi : noErr page (CTL_ERR_PRODUCER.producer.key ctlPkgPage e.die) := by
    refine ⟨⟨hn, fun h => ?_⟩, fun h => ?_⟩
    · rw [isIrq, k2] at h; omega
    · rw [isErr, k2] at h; omega
  unfold State.hwError
  dsimp only
  rw [State.iff_keeps (fun t => t.rd CTL_ERR_PRODUCER.producer ctlPkgPage e.die) (fun s => s.count page ctr inst) _ _ ((count_kept _ _ _ _ _ ha).rd hn.ctr),
    State.iff_keeps (fun t => t.rd CTL_ERR_PRODUCER.producer ctlPkgPage e.die) (fun s => s.alarm event sev page d0 _) _ _ ((alarm_kept _ _ _ _ _ _).rd hn),
    State.iff_keeps (fun t => t.rd CTL_ERR_PRODUCER.producer ctlPkgPage e.die) (fun s => s.irq page irqBit) _ _ ((irq_kept _ _ _ ha).rd hi.irq),
    (pageError_kept _ _ _ _ _ ha).rd hi]
  unfold State.errRecord
  rw [if_neg (by simp [hb])]
  dsimp only
  rw [(count_kept _ _ _ _ _ (by decide)).rd hn.ctr, State.rd_inc_same]; rfl

end Sys2Proof.Machine
end

