-- ==== Sys2Proof/Laws/Memory.lean ====
section
/-! SUPPORT. Laws of the device memory: a read after a write, and that every memory operation keeps the canonical form. -/

namespace Sys2Proof.Machine

theorem Memory.read_of_wfFrom_lt (m : List Host.Cell) (lo a : Nat) (h : Memory.wfFrom lo m = true) (ha : a < lo) :
    Memory.read m a = Memory.empty := by
  induction m generalizing lo with
  | nil => rfl
  | cons e m ih =>
    obtain ⟨k, v⟩ := e
    simp only [Memory.wfFrom, Bool.and_eq_true, decide_eq_true_eq] at h
    have : a ≠ k := by omega
    simp only [Memory.read, this, if_false]
    exact ih (k + 1) h.2 (by omega)

theorem Memory.read_writeFrom (m : List Host.Cell) (lo a : Nat) (b : Byte) (x : Nat) (h : Memory.wfFrom lo m = true) :
    Memory.read (Memory.write m a b) x = if x = a then b else Memory.read m x := by
  induction m generalizing lo with
  | nil =>
    by_cases hb : b = Memory.empty <;> simp [Memory.write, Memory.read, hb]
  | cons e m ih =>
    obtain ⟨k, v⟩ := e
    simp only [Memory.wfFrom, Bool.and_eq_true, decide_eq_true_eq] at h
    have hlow : ∀ y, y < k + 1 → Memory.read m y = Memory.empty := fun y hy => Memory.read_of_wfFrom_lt m (k + 1) y h.2 hy
    by_cases h1 : a < k
    · have hk : ∀ y, y < k → Memory.read ((k, v) :: m) y = Memory.empty := fun y hy => by
        simp [Memory.read, Nat.ne_of_lt hy, hlow y (by omega)]
      by_cases h2 : b = Memory.empty
      · by_cases h3 : x = a
        · subst h3
          simp [Memory.write, h1, h2, hk x h1]
        · simp [Memory.write, h1, h2, h3]
      · simp [Memory.write, h1, h2, Memory.read]
    · by_cases h2 : a = k
      · subst h2
        by_cases h3 : b = Memory.empty
        · by_cases h4 : x = a
          · subst h4
            simp [Memory.write, h3, hlow x (by omega)]
          · simp [Memory.write, h3, h4, Memory.read]
        · by_cases h4 : x = a <;> simp [Memory.write, h3, h4, Memory.read]
      · by_cases h3 : x = k
        · subst h3
          simp [Memory.write, h1, h2, Memory.read, Ne.symm h2]
        · simp [Memory.write, h1, h2, Memory.read, h3, ih (k + 1) h.2]

/-- A byte reads as it was last written. -/
theorem Memory.read_write (m : List Host.Cell) (a : Nat) (b : Byte) (x : Nat) (h : Memory.wf m = true) :
    Memory.read (Memory.write m a b) x = if x = a then b else Memory.read m x :=
  Memory.read_writeFrom m 0 a b x h

theorem Memory.wfFrom_write (m : List Host.Cell) (lo a : Nat) (b : Byte) (ha : lo ≤ a) (h : Memory.wfFrom lo m = true) :
    Memory.wfFrom lo (Memory.write m a b) = true := by
  induction m generalizing lo with
  | nil =>
    by_cases hb : b = Memory.empty <;> simp [Memory.write, Memory.wfFrom, hb, ha]
  | cons e m ih =>
    obtain ⟨k, v⟩ := e
    simp only [Memory.wfFrom, Bool.and_eq_true, decide_eq_true_eq] at h
    have hmono : ∀ l : List Host.Cell, ∀ p q : Nat, p ≤ q → Memory.wfFrom q l = true → Memory.wfFrom p l = true := by
      intro l p q hpq hl
      cases l with
      | nil => rfl
      | cons e l =>
        obtain ⟨k', v'⟩ := e
        simp only [Memory.wfFrom, Bool.and_eq_true, decide_eq_true_eq] at hl ⊢
        exact ⟨⟨by omega, hl.1.2⟩, hl.2⟩
    simp only [Memory.write]
    split_ifs with h1 h2 h3 h4
    · simp [Memory.wfFrom, h.1.1, h.1.2, h.2]
    · have : a + 1 ≤ k := by omega
      simp [Memory.wfFrom, ha, h2, this, h.1.2, h.2]
    · exact hmono m lo (k + 1) (by omega) h.2
    · subst h3
      simp [Memory.wfFrom, ha, h4, h.2]
    · simp only [Memory.wfFrom, Bool.and_eq_true, decide_eq_true_eq]
      exact ⟨h.1, ih (k + 1) (by omega) h.2⟩

/-- A write keeps the canonical form. -/
theorem Memory.wf_write (m : List Host.Cell) (a : Nat) (b : Byte) (h : Memory.wf m = true) : Memory.wf (Memory.write m a b) = true :=
  Memory.wfFrom_write m 0 a b (Nat.zero_le a) h

/-- Writing a run of bytes keeps the canonical form. -/
theorem Memory.wf_writeN (m : List Host.Cell) (a : Nat) (l : List Byte) (h : Memory.wf m = true) : Memory.wf (Memory.writeN m a l) = true := by
  induction l generalizing m a with
  | nil => exact h
  | cons b l ih => exact ih _ _ (Memory.wf_write m a b h)

/-- A byte outside a run of bytes keeps its value. -/
theorem Memory.read_writeN_out (m : List Host.Cell) (a : Nat) (l : List Byte) (x : Nat) (h : Memory.wf m = true)
    (hx : x < a ∨ a + l.length ≤ x) : Memory.read (Memory.writeN m a l) x = Memory.read m x := by
  induction l generalizing m a with
  | nil => rfl
  | cons b l ih =>
    simp only [List.length_cons] at hx
    rw [Memory.writeN, ih _ _ (Memory.wf_write m a b h) (by omega), Memory.read_write m a b x h, if_neg (by omega)]

/-- A byte of the run reads as it was written. -/
theorem Memory.read_writeN_in (m : List Host.Cell) (a : Nat) (l : List Byte) (i : Nat) (h : Memory.wf m = true) (hi : i < l.length) :
    Memory.read (Memory.writeN m a l) (a + i) = l[i] := by
  induction l generalizing m a i with
  | nil => simp at hi
  | cons b l ih =>
    cases i with
    | zero =>
      rw [Memory.writeN, Memory.read_writeN_out _ _ _ _ (Memory.wf_write m a b h) (by omega), Memory.read_write m a b _ h]
      simp
    | succ i =>
      have := ih (Memory.write m a b) (a + 1) i (Memory.wf_write m a b h) (by simpa using hi)
      rw [Memory.writeN, show a + (i + 1) = a + 1 + i by omega, this]
      simp

end Sys2Proof.Machine
end

