-- ==== Sys2Proof/Laws/Switch.lean ====
section
/-! SUPPORT. What the operations of the switch can change: releases, pause frames, discards and flushes touch the switch, the buffer and
pipeline pages, counters and event rings, and nothing else. -/

namespace Sys2Proof.Machine

/-- What the switch leaves alone beside what counting and events do: all but itself and the count of free values. -/
def State.beside (s : State) : State := { s.still with sw := Switch.fresh, freeCtr := 0 }

/-- `t` differs from `s` in register fields outside `p`, in outputs, queue pairs, records, free values taken and the switch at most. -/
structure Moved (p : Nat → Prop) (s t : State) : Prop where
  regs : RegKept p s t
  beside : t.beside = s.beside

namespace Moved

variable {p q : Nat → Prop} {s t u : State}

theorem refl (p : Nat → Prop) (s : State) : Moved p s s := ⟨RegKept.refl p s, rfl⟩
theorem trans (h : Moved p s t) (k : Moved p t u) : Moved p s u := ⟨h.regs.trans k.regs, k.beside.trans h.beside⟩
theorem mono (h : Moved p s t) (hq : ∀ k, q k → p k) : Moved q s t := ⟨h.regs.mono hq, h.beside⟩
theorem of_kept (h : Kept p s t) : Moved p s t :=
  ⟨h.regs, congrArg (fun x : State => { x with sw := Switch.fresh, freeCtr := 0 }) h.still⟩

/-! The parts that stay. -/
theorem pending (h : Moved p s t) : t.pending = s.pending := (congrArg State.pending h.beside :)
theorem now (h : Moved p s t) : t.now = s.now := (congrArg State.now h.beside :)
theorem shadow (h : Moved p s t) : t.shadow = s.shadow := (congrArg State.shadow h.beside :)
theorem heldWrites (h : Moved p s t) : t.heldWrites = s.heldWrites := (congrArg State.heldWrites h.beside :)
theorem commitSeq (h : Moved p s t) : t.commitSeq = s.commitSeq := (congrArg State.commitSeq h.beside :)
theorem mem (h : Moved p s t) : t.mem = s.mem := (congrArg State.mem h.beside :)
theorem power (h : Moved p s t) : t.power = s.power := (congrArg State.power h.beside :)
theorem boot (h : Moved p s t) : t.boot = s.boot := (congrArg State.boot h.beside :)
theorem sec (h : Moved p s t) : t.sec = s.sec := (congrArg State.sec h.beside :)
theorem time (h : Moved p s t) : t.time = s.time := (congrArg State.time h.beside :)
theorem subs (h : Moved p s t) : t.subs = s.subs := (congrArg State.subs h.beside :)
theorem modules (h : Moved p s t) : t.modules = s.modules := (congrArg State.modules h.beside :)
theorem byp (h : Moved p s t) : t.byp = s.byp := (congrArg State.byp h.beside :)
theorem reader (h : Moved p s t) : t.reader = s.reader := (congrArg State.reader h.beside :)
theorem tables (h : Moved p s t) : t.tables = s.tables := (congrArg State.tables h.beside :)
theorem coll (h : Moved p s t) : t.coll = s.coll := (congrArg State.coll h.beside :)
theorem cores (h : Moved p s t) : t.cores = s.cores := (congrArg State.cores h.beside :)

theorem wr (s : State) (f : Fld) (a v i : Nat) (hk : ¬p (f.key a i)) : Moved p s (s.wr f a v i) := of_kept (Kept.wr s f a v i hk)
theorem sw (s : State) (w : Switch) : Moved p s { s with sw := w } := ⟨RegKept.of_eq rfl, rfl⟩
theorem tick (s : State) (n : Nat) : Moved p s (s.tickFree n) := ⟨RegKept.of_eq rfl, rfl⟩

theorem iff (b : Bool) (f : State → State) (h : Moved p s (f s)) : Moved p s (s.iff b f) := State.iff_rel (refl p) s b f h

theorem each {α : Type} (l : List α) (f : α → State → State) (h : ∀ x ∈ l, ∀ s, Moved p s (f x s)) (s : State) : Moved p s (s.each l f) :=
  State.each_rel (refl p) trans f l h s

end Moved

/-- Keys of the buffer and pipeline pages of the dies. -/
def isBufSwp (k : Nat) : Prop := 0x20000 ≤ pageOf k % 0x4000000 ∧ pageOf k % 0x4000000 < 0x2A000

/-- Keys that the switch keeps. -/
def noSwitch (k : Nat) : Prop := noEvent k ∧ ¬isBufSwp k

theorem buf_key (f : Fld) (d i : Nat) (h1 : f.offAt i < 4096) (h2 : f.loAt i < 64) : ¬noSwitch (f.key (bufPage d) i) := by
  intro h
  apply h.2
  simp only [isBufSwp, pageOf, Fld.key, bufPage, diePage]
  omega

theorem swp_key (f : Fld) (n i : Nat) (h1 : f.offAt i < 4096) (h2 : f.loAt i < 64) : ¬noSwitch (f.key (swpPage n) i) := by
  intro h
  apply h.2
  have hr : n % 8 < 8 := Nat.mod_lt _ (by decide)
  simp only [isBufSwp, pageOf, Fld.key, swpPage, diePage]
  generalize n / 8 = q at *
  generalize n % 8 = r at *
  omega

theorem bufPage_aligned (d : Nat) : bufPage d % 4096 = 0 := by unfold bufPage diePage; omega
theorem lndPage_aligned (d : Nat) : lndPage d % 4096 = 0 := by unfold lndPage diePage; omega
theorem portPage_aligned (p : Nat) : portPage p % 4096 = 0 := by unfold portPage diePage; omega
theorem swpPage_aligned (n : Nat) : swpPage n % 4096 = 0 := by unfold swpPage diePage; omega

theorem setPoolUse_moved (s : State) (d : Nat) (p : Pool) (n : Nat) : Moved noSwitch s (s.setPoolUse d p n) := by
  cases p <;> first
    | exact Moved.wr _ _ _ _ _ (buf_key _ d 0 (by decide) (by decide))
    | exact Moved.sw _ _

theorem sendWire_moved (s : State) (l : Nat) (u : List Byte) : Moved noSwitch s (s.sendWire l u) := by
  unfold State.sendWire
  refine Moved.of_kept ?_
  refine Kept.trans ?_ ((count_kept _ _ _ _ _ (portPage_aligned _)).mono fun _ h => h.1.ctr)
  refine Kept.trans ?_ ((count_kept _ _ _ _ _ (portPage_aligned _)).mono fun _ h => h.1.ctr)
  exact (emit_kept _ _).mono fun _ h => h.1.ctr

theorem pfcCheck_moved (s : State) (l c : Nat) : Moved noSwitch s (s.pfcCheck l c) := by
  have h : ∀ (t : State) (q : Nat), Moved noSwitch t (t.sendPfc l c q) := fun t q => Moved.iff _ _ (sendWire_moved t _ _)
  unfold State.pfcCheck
  dsimp only
  split_ifs
  · exact (Moved.sw _ _).trans (h _ _)
  · exact Moved.refl _ _
  · exact Moved.refl _ _
  · exact (Moved.sw _ _).trans (h _ _)

theorem pfcAll_moved (s : State) (d : Nat) : Moved noSwitch s (s.pfcAll d) :=
  Moved.each _ _ (fun _ _ _ => pfcCheck_moved _ _ _) s

/-- A change of a pool's use changes the switch, the pool readings and, for FORWARD, what pause frames count. -/
theorem poolMove_moved (s : State) (d : Nat) (p : Pool) (n : Nat) : Moved noSwitch s (s.poolMove d p n) :=
  (setPoolUse_moved s d p n).trans (Moved.iff _ _ (pfcAll_moved _ _))

theorem giveTreads_moved (s : State) (f : Frame) : Moved noSwitch s (s.giveTreads f) := by
  unfold State.giveTreads State.poolGive
  exact (poolMove_moved _ _ _ _).trans (Moved.iff _ _ (Moved.sw _ _))

theorem setIngress_moved (s : State) (l c n : Nat) : Moved noSwitch s (s.setIngress l c n) := by
  unfold State.setIngress
  exact (Moved.sw _ _).trans (pfcCheck_moved _ _ _)

/-- Releasing a reference changes the switch, the pool readings and what pause frames count. -/
theorem release_moved (s : State) (id : Nat) : Moved noSwitch s (s.release id) := by
  unfold State.release
  split
  · exact Moved.refl _ _
  · split
    · exact Moved.sw _ _
    · exact ((giveTreads_moved _ _).trans (Moved.iff _ _ (setIngress_moved _ _ _ _))).trans (Moved.sw _ _)

theorem undelivered_moved (s : State) (d l : Nat) (u : List Byte) (ring : Nat) : Moved noSwitch s (s.undelivered d l u ring) := by
  unfold State.undelivered
  dsimp only
  refine Moved.trans ?_ (Moved.of_kept ((count_kept _ _ _ _ _ (lndPage_aligned _)).mono fun _ h => h.1.ctr))
  refine Moved.trans (Moved.iff (decide (2048 ≤ l)) (fun s => s.tickFree) (Moved.tick s 1)) ?_
  by_cases h : ring < 0x100
  · exact Moved.iff _ _ (Moved.of_kept ((event_kept _ _ _ _ _ _ _ h).mono fun _ h => h.1))
  · simp [h, Moved.refl]

theorem dropAt_moved (s : State) (page code cls src : Nat) (ha : page % 4096 = 0) : Moved noSwitch s (s.dropAt page code cls src) := by
  unfold State.dropAt
  dsimp only
  have h := Moved.of_kept ((count_kept s page code 0 1 ha).mono fun k (h : noSwitch k) => h.1.ctr)
  split_ifs
  · exact h
  · have k : ∀ f : Fld, f.stride = 0 → f.step = 0 → f.off < 4096 → f.lo < 64 → ∀ n, ¬noSwitch (f.key (swpPage n) 0) := fun f h1 h2 h3 h4 n =>
      swp_key f n 0 (by simp [Fld.offAt, h1, h3]) (by simp [Fld.loAt, h2, h4])
    refine Moved.trans ?_ (Moved.wr _ _ _ _ _ (k _ rfl rfl (by decide) (by decide) _))
    refine Moved.trans ?_ (Moved.wr _ _ _ _ _ (k _ rfl rfl (by decide) (by decide) _))
    refine Moved.trans ?_ (Moved.wr _ _ _ _ _ (k _ rfl rfl (by decide) (by decide) _))
    exact h.trans (Moved.wr _ _ _ _ _ (k _ rfl rfl (by decide) (by decide) _))

theorem dropCopy_moved (s : State) (k : Nat) (e : QEntry) (code : Nat) : Moved noSwitch s (s.dropCopy k e code) := by
  unfold State.dropCopy
  dsimp only
  split
  · exact Moved.refl _ _
  · refine Moved.trans ?_ (release_moved _ _)
    exact (dropAt_moved _ _ _ _ _ (bufPage_aligned _)).trans (Moved.iff _ _ (undelivered_moved _ _ _ _ _))

/-- A frame cut short in transmission leaves as an output, and a RESULT among them is reported. -/
theorem cutFrame_moved (s : State) (l : Nat) : Moved noSwitch s (s.cutFrame l) := by
  unfold State.cutFrame
  split
  · exact Moved.refl _ _
  · refine Moved.trans ?_ (Moved.iff _ _ (undelivered_moved _ _ _ _ _))
    exact (Moved.sw _ _).trans (Moved.of_kept ((emit_kept _ _).mono fun _ h => h.1.ctr))

theorem dropNew_moved (s : State) (f : Frame) (page code l : Nat) (ha : page % 4096 = 0) : Moved noSwitch s (s.dropNew f page code l) :=
  (dropAt_moved s page code f.cls f.src ha).trans (Moved.iff _ _ (undelivered_moved _ _ _ _ _))

theorem dropCrossing_moved (s : State) (hit : Nat → Bool) (code : Nat) : Moved noSwitch s (s.dropCrossing hit code) := by
  unfold State.dropCrossing
  refine Moved.each _ _ (fun w _ t => ?_) s
  dsimp only
  split
  · split_ifs
    · refine Moved.trans (Moved.trans ?_ (release_moved _ _)) (release_moved _ _)
      exact (Moved.each _ _ (fun _ _ _ => dropNew_moved _ _ _ _ _ (bufPage_aligned _)) _).trans (Moved.sw _ _)
    · exact (Moved.each _ _ (fun _ _ _ => dropNew_moved _ _ _ _ _ (bufPage_aligned _)) _).trans (Moved.sw _ _)
  · exact Moved.refl _ _

/-- A flush changes the switch, buffer and pipeline pages, counters and event rings. -/
theorem flushPort_moved (s : State) (l code : Nat) : Moved noSwitch s (s.flushPort l code) := by
  unfold State.flushPort
  refine Moved.trans ?_ (dropCrossing_moved _ _ _)
  exact ((cutFrame_moved s l).trans (Moved.sw _ _)).trans (Moved.each _ _ (fun _ _ _ => Moved.each _ _ (fun _ _ _ => dropCopy_moved _ _ _ _) _) _)

theorem penalty_kept (p : Nat → Prop) (s : State) (a n : Nat) : Kept p s (s.penalty a n) := Kept.rel s _

end Sys2Proof.Machine
end

