-- ==== Sys2Proof/Laws/Optics.lean ====
section
/-! SUPPORT. Sub-ports, port states and links: what each plain change leaves, and what LINK_DOWN changes. -/

namespace Sys2Proof.Machine

@[simp] theorem State.sub_setSub_same (s : State) (l : Nat) (x : SubPort) : (s.setSub l x).sub l = x := by
  simp [State.sub]

theorem State.sub_setSub_ne (s : State) {l k : Nat} (x : SubPort) (h : k ≠ l) : (s.setSub l x).sub k = s.sub k := by
  simp [State.sub, Sparse.get_set_ne _ _ _ h]

theorem State.sub_congr {s t : State} (h : t.subs = s.subs) (l : Nat) : t.sub l = s.sub l := by simp [State.sub, h]

@[simp] theorem State.linkState_setSub (s : State) (l k : Nat) (x : SubPort) : (s.setSub l x).linkState k = s.linkState k := rfl
@[simp] theorem State.linkState_run (s : State) (f : State → State) (l : Nat) : (s.run f).linkState l = (f s.cleared).linkState l := rfl
@[simp] theorem State.sub_run (s : State) (f : State → State) (l : Nat) : (s.run f).sub l = (f s.cleared).sub l := rfl
@[simp] theorem State.linkState_cleared (s : State) (l : Nat) : s.cleared.linkState l = s.linkState l := rfl
@[simp] theorem State.sub_cleared (s : State) (l : Nat) : s.cleared.sub l = s.sub l := rfl
@[simp] theorem State.setLink_subs (s : State) (l v : Nat) : (s.setLink l v).subs = s.subs := rfl
@[simp] theorem State.sub_setLink (s : State) (l k v : Nat) : (s.setLink l v).sub k = s.sub k := rfl

/-- The state of a sub-port reads as it was set. -/
@[simp] theorem State.linkState_setLink_same (s : State) (l v : Nat) : (s.setLink l v).linkState l = v % 16 := by
  simp [State.linkState, State.setLink, OPT_PORT_STATE.state]

/-- The state of every other sub-port stays. -/
theorem State.linkState_setLink_ne (s : State) (l k v : Nat) (h : k ≠ l) : (s.setLink l v).linkState k = s.linkState k := by
  apply State.rd_wr_ne
  intro e
  apply h
  simp only [Fld.key, Fld.offAt, Fld.loAt, OPT_PORT_STATE.state, portPage, diePage] at e
  have h1 : k / 4 % 128 < 128 := Nat.mod_lt _ (by decide)
  have h2 : l / 4 % 128 < 128 := Nat.mod_lt _ (by decide)
  omega

@[simp] theorem State.sub_goDark (s : State) (l v : Nat) :
    (s.goDark l v).sub l = { s.sub l with tx := .dark, rxValid := false, rxFault := .none, after := .stay } := by
  simp [State.goDark]

@[simp] theorem State.linkState_goDark (s : State) (l v : Nat) : (s.goDark l v).linkState l = v % 16 := by
  simp [State.goDark]

@[simp] theorem State.sub_toStep6 (s : State) (l : Nat) :
    (s.toStep6 l).sub l = { s.sub l with tx := .remoteFault, rxValid := false, rxFault := .none } := by
  simp [State.toStep6]

@[simp] theorem State.linkState_toStep6 (s : State) (l : Nat) : (s.toStep6 l).linkState l = psRxLock := by
  simp [State.toStep6, psRxLock]

theorem State.rd_goDark (s : State) (l v : Nat) {f : Fld} {a i : Nat} (h : f.key a i ≠ OPT_PORT_STATE.state.key (portPage (l / 4)) (l % 4)) :
    (s.goDark l v).rd f a i = s.rd f a i := by
  have e : (s.goDark l v).rd f a i = (s.setLink l v).rd f a i := State.rd_congr (State.setSub_regs _ _ _) _ _ _
  rw [e]
  exact State.rd_wr_ne _ _ h

theorem State.rd_toStep6 (s : State) (l : Nat) {f : Fld} {a i : Nat} (h : f.key a i ≠ OPT_PORT_STATE.state.key (portPage (l / 4)) (l % 4)) :
    (s.toStep6 l).rd f a i = s.rd f a i := by
  have e : (s.toStep6 l).rd f a i = (s.setLink l psRxLock).rd f a i := State.rd_congr (State.setSub_regs _ _ _) _ _ _
  rw [e]
  exact State.rd_wr_ne _ _ h

theorem last_cause_ne_state (p i : Nat) : OPT_PORT_STATE.last_cause.key (portPage p) 0 ≠ OPT_PORT_STATE.state.key (portPage p) i := by
  simp only [Fld.key, Fld.offAt, Fld.loAt, OPT_PORT_STATE.state, OPT_PORT_STATE.last_cause]; omega

/-- Keys of the state register of port `p`. -/
def isPortState (p k : Nat) : Prop := pageOf k = portPage p ∧ offOf k = 0x108

/-- Keys of port `p`'s page that a link event keeps. -/
def noLink (p k : Nat) : Prop := noSwitch k ∧ ¬isIrq (portPage p) k ∧ ¬isPortState p k

theorem port_key (f : Fld) (p i : Nat) (h1 : f.offAt i < 4096) (h2 : f.loAt i < 64) :
    pageOf (f.key (portPage p) i) = portPage p ∧ offOf (f.key (portPage p) i) = f.offAt i :=
  key_place f _ i (portPage_aligned p) h1 h2

theorem portPage_range (p : Nat) (hp : p < 512) : 0x100000 ≤ portPage p % 0x4000000 ∧ portPage p % 0x4000000 < 0x180000 ∧ portPage p < 0xF000000 := by
  unfold portPage diePage; omega

/-- A field of a port page away from the counters is one that the switch and events keep. -/
theorem port_noSwitch (f : Fld) (p i : Nat) (hp : p < 512) (h1 : f.offAt i < 0xF00) (h2 : f.loAt i < 64) : noSwitch (f.key (portPage p) i) := by
  obtain ⟨ha, ho⟩ := port_key f p i (by omega) h2
  have hr := portPage_range p hp
  refine ⟨⟨?_, ?_⟩, ?_⟩
  · simp only [isCtr, ho]; omega
  · simp only [isEvr, ha]; omega
  · simp only [isBufSwp, ha]; omega

theorem irqKeyPort (p : Nat) (hp : p < 512) : noEvent (PG_IRQ_RAW.block_irq.key (portPage p) 0) :=
  (port_noSwitch _ _ 0 hp (by decide) (by decide)).1

theorem noIrqLink (p i : Nat) (j : Nat) (hj : j < 512): noIrq (portPage p) (OPT_PORT_STATE.state.key (portPage j) i) := by
  refine ⟨(port_noSwitch _ _ i hj (by simp [Fld.offAt, OPT_PORT_STATE.state]) (by simp [Fld.loAt, OPT_PORT_STATE.state]; omega)).1, fun h => ?_⟩
  obtain ⟨ha, ho⟩ := port_key OPT_PORT_STATE.state j i (by simp [Fld.offAt, OPT_PORT_STATE.state]) (by simp [Fld.loAt, OPT_PORT_STATE.state]; omega)
  have := h.2
  rw [ho] at this
  exact absurd this (by simp [Fld.offAt, OPT_PORT_STATE.state])

/-- LINK_DOWN of sub-port `l`: its discovery state is lost and its cause recorded; nothing outside the link state, the interrupt bits of
the port, the switch, health, counters and event rings changes. -/
theorem linkDown_spec (s : State) (l cause flush : Nat) (hl : l < 2048) :
    (s.linkDown l cause flush).sub l = { s.sub l with disc := .notUp, holdReason := 0, cablingSwap := false, byCommand := false, twoWay := false }
    ∧ (∀ k, k ≠ l → (s.linkDown l cause flush).sub k = s.sub k)
    ∧ (s.linkDown l cause flush).rd OPT_PORT_STATE.last_cause (portPage (l / 4)) = cause % 256
    ∧ RegKept (noLink (l / 4)) s (s.linkDown l cause flush)
    ∧ (s.linkDown l cause flush).boot = s.boot ∧ (s.linkDown l cause flush).byp = s.byp
    ∧ (s.linkDown l cause flush).coll = s.coll ∧ (s.linkDown l cause flush).mem = s.mem := by
  have hp : l / 4 < 512 := by omega
  have ks : ∀ i, ¬noLink (l / 4) (OPT_PORT_STATE.state.key (portPage (l / 4)) i) := fun i h => by
    obtain ⟨ha, ho⟩ := port_key OPT_PORT_STATE.state (l / 4) i (by simp [Fld.offAt, OPT_PORT_STATE.state])
      (by simp [Fld.loAt, OPT_PORT_STATE.state]; omega)
    exact h.2.2 ⟨ha, by rw [ho]; simp [Fld.offAt, OPT_PORT_STATE.state]⟩
  have kc : ¬noLink (l / 4) (OPT_PORT_STATE.last_cause.key (portPage (l / 4)) 0) := fun h => by
    obtain ⟨ha, ho⟩ := port_key OPT_PORT_STATE.last_cause (l / 4) 0 (by decide) (by decide)
    exact h.2.2 ⟨ha, by rw [ho]; rfl⟩
  have hpl := portPage_aligned (l / 4)
  unfold State.linkDown
  dsimp only
  generalize h0 : s.setSub l { s.sub l with disc := .notUp, holdReason := 0, cablingSwap := false, byCommand := false, twoWay := false } = s0
  generalize h1 : (s0.setLink l psRxLock).wr OPT_PORT_STATE.last_cause (portPage (l / 4)) cause 0 = s1
  have m1 : Moved (fun k => noSwitch k ∧ ¬isIrq (portPage (l / 4)) k) s1 ((((s1.irq (portPage (l / 4)) 5).alarm 0x0011 1 (portPage (l / 4)) (l / 4) cause).count (portPage (l / 4)) 0x86 (l % 4)).penalty (l / 4) 200 |>.flushPort l flush) := by
    refine Moved.trans ?_ ((flushPort_moved _ _ _).mono fun _ h => h.1)
    refine Moved.of_kept ?_
    refine Kept.trans ?_ (penalty_kept _ _ _ _)
    refine Kept.trans ?_ ((count_kept _ _ _ _ _ hpl).mono fun _ h => h.1.1.ctr)
    refine Kept.trans ?_ ((alarm_kept _ _ _ _ _ _).mono fun _ h => h.1.1)
    exact (irq_kept _ _ _ hpl).mono fun _ h => ⟨h.1.1, h.2⟩
  have e1 : s1.subs = Sparse.set s.subs l { s.sub l with disc := .notUp, holdReason := 0, cablingSwap := false, byCommand := false, twoWay := false } := by
    rw [← h1, ← h0]; rfl
  have r1 : RegKept (noLink (l / 4)) s s1 := by
    rw [← h1]
    refine RegKept.trans ?_ (RegKept.wr _ _ _ _ _ kc)
    refine RegKept.trans ?_ (RegKept.wr _ _ _ _ _ (ks _))
    rw [← h0]
    exact RegKept.of_eq rfl
  refine ⟨?_, ?_, ?_, ?_, ?_, ?_, ?_, ?_⟩
  · rw [State.sub_congr m1.subs]; simp [State.sub, e1]
  · intro k hk; rw [State.sub_congr m1.subs]; simp [State.sub, e1, Sparse.get_set_ne _ _ _ hk]
  · rw [m1.regs.rd ⟨port_noSwitch _ _ 0 hp (by decide) (by decide), ?_⟩, ← h1, State.rd_wr_same]
    · rfl
    · intro h
      obtain ⟨ha, ho⟩ := port_key OPT_PORT_STATE.last_cause (l / 4) 0 (by decide) (by decide)
      have := h.2
      rw [ho] at this
      exact absurd this (by decide)
  · exact r1.trans (m1.regs.mono fun _ h => ⟨h.1, h.2.1⟩)
  · rw [m1.boot, ← h1, ← h0]; rfl
  · rw [m1.byp, ← h1, ← h0]; rfl
  · rw [m1.coll, ← h1, ← h0]; rfl
  · rw [m1.mem, ← h1, ← h0]; rfl

/-- Keys of the port pages. -/
def isPort (k : Nat) : Prop := 0x100000 ≤ pageOf k % 0x4000000 ∧ pageOf k % 0x4000000 < 0x180000

/-- Keys of the states of the engines. -/
def isCal (k : Nat) : Prop := ∃ e, k = OPT_ENG_STATUS.cal_state.key (engPage e) 0

/-- Keys that changes of sub-ports keep. -/
def noPort (k : Nat) : Prop := noSwitch k ∧ ¬(isPort k ∨ isCal k)

theorem isPort_key (f : Fld) (p i : Nat) (hp : p < 512) (h1 : f.offAt i < 4096) (h2 : f.loAt i < 64) : isPort (f.key (portPage p) i) := by
  obtain ⟨ha, _⟩ := port_key f p i h1 h2
  have := portPage_range p hp
  simp only [isPort, ha]
  omega

theorem state_key_noPort (l : Nat) (hl : l < 2048) : ¬noPort (OPT_PORT_STATE.state.key (portPage (l / 4)) (l % 4)) := fun h =>
  h.2 (.inl (isPort_key _ _ _ (by omega) (by simp [Fld.offAt, OPT_PORT_STATE.state]) (by simp [Fld.loAt, OPT_PORT_STATE.state]; omega)))

/-- What a change of sub-ports leaves alone beside what the switch does: all but the sub-ports, the modules' outputs and the drains into
bypass. -/
def State.offPorts (s : State) : State := { s.beside with subs := [], modules := [], byp := { s.byp with draining := [] } }

/-- `t` differs from `s` in the fields of the port pages, in what the switch changes, in the sub-ports, in the outputs of modules and
the states of their engines, and in the drains into bypass at most. -/
structure PortMoved (s t : State) : Prop where
  regs : RegKept noPort s t
  offPorts : t.offPorts = s.offPorts
  associated : ∀ e, (t.module e).associated = (s.module e).associated

namespace PortMoved

variable {s t u : State}

theorem refl (s : State) : PortMoved s s := ⟨RegKept.refl _ s, rfl, fun _ => rfl⟩
theorem trans (h : PortMoved s t) (k : PortMoved t u) : PortMoved s u :=
  ⟨h.regs.trans k.regs, k.offPorts.trans h.offPorts, fun e => (k.associated e).trans (h.associated e)⟩
theorem of_moved {p : Nat → Prop} (h : Moved p s t) (hp : ∀ k, noPort k → p k) : PortMoved s t :=
  ⟨h.regs.mono hp, congrArg (fun x : State => { x with subs := [], modules := [], byp := { x.byp with draining := [] } }) h.beside,
    fun e => by unfold State.module; rw [h.modules]⟩
theorem of_kept {p : Nat → Prop} (h : Kept p s t) (hp : ∀ k, noPort k → p k) : PortMoved s t := of_moved (Moved.of_kept h) hp

/-! The parts that stay. -/
theorem now (h : PortMoved s t) : t.now = s.now := (congrArg State.now h.offPorts :)
theorem boot (h : PortMoved s t) : t.boot = s.boot := (congrArg State.boot h.offPorts :)
theorem mem (h : PortMoved s t) : t.mem = s.mem := (congrArg State.mem h.offPorts :)
theorem power (h : PortMoved s t) : t.power = s.power := (congrArg State.power h.offPorts :)
theorem coll (h : PortMoved s t) : t.coll = s.coll := (congrArg State.coll h.offPorts :)
theorem cores (h : PortMoved s t) : t.cores = s.cores := (congrArg State.cores h.offPorts :)
theorem tables (h : PortMoved s t) : t.tables = s.tables := (congrArg State.tables h.offPorts :)
theorem time (h : PortMoved s t) : t.time = s.time := (congrArg State.time h.offPorts :)

theorem setSub (s : State) (l : Nat) (x : SubPort) : PortMoved s (s.setSub l x) := ⟨RegKept.of_eq rfl, rfl, fun _ => rfl⟩
theorem draining (s : State) (x : Sparse Draining) : PortMoved s { s with byp := { s.byp with draining := x } } := ⟨RegKept.of_eq rfl, rfl, fun _ => rfl⟩

theorem setLink (s : State) (l v : Nat) (hl : l < 2048) : PortMoved s (s.setLink l v) :=
  of_kept (Kept.wr s _ _ v _ (state_key_noPort l hl)) fun _ h => h

theorem iff (b : Bool) (f : State → State) (h : PortMoved s (f s)) : PortMoved s (s.iff b f) := State.iff_rel refl s b f h

theorem each {α : Type} (l : List α) (f : α → State → State) (h : ∀ x ∈ l, ∀ s, PortMoved s (f x s)) (s : State) : PortMoved s (s.each l f) :=
  State.each_rel refl trans f l h s

end PortMoved

theorem noPort_irq (p k : Nat) (hp : p < 512) (h : noPort k) : noIrq (portPage p) k := by
  refine ⟨h.1.1, fun hi => h.2 (.inl ?_)⟩
  have := portPage_range p hp
  simp only [isPort, hi.1]
  omega

theorem goDark_moved (s : State) (l v : Nat) (hl : l < 2048) : PortMoved s (s.goDark l v) := by
  unfold State.goDark
  exact (PortMoved.setLink s l v hl).trans (PortMoved.setSub _ _ _)

theorem toStep6_moved (s : State) (l : Nat) (hl : l < 2048) : PortMoved s (s.toStep6 l) := by
  unfold State.toStep6
  exact PortMoved.trans (PortMoved.setLink s l psRxLock hl) (PortMoved.setSub (s.setLink l psRxLock) l _)

theorem startSub_moved (s : State) (l : Nat) (hl : l < 2048) : PortMoved s (s.startSub l) := by
  unfold State.startSub
  split_ifs
  · exact PortMoved.refl _
  all_goals exact goDark_moved _ _ _ hl

theorem linkDown_moved (s : State) (l cause flush : Nat) (hl : l < 2048) : PortMoved s (s.linkDown l cause flush) := by
  have hp : l / 4 < 512 := by omega
  have hpl := portPage_aligned (l / 4)
  unfold State.linkDown
  dsimp only
  refine PortMoved.trans ?_ (PortMoved.of_moved (flushPort_moved _ _ _) fun _ h => h.1)
  refine PortMoved.trans ?_ (PortMoved.of_kept (penalty_kept noPort _ _ _) fun _ h => h)
  refine PortMoved.trans ?_ (PortMoved.of_kept (count_kept _ _ _ _ _ hpl) fun _ h => h.1.1.ctr)
  refine PortMoved.trans ?_ (PortMoved.of_kept (alarm_kept _ _ _ _ _ _) fun _ h => h.1.1)
  refine PortMoved.trans ?_ (PortMoved.of_kept (irq_kept _ _ _ hpl) fun k h => noPort_irq _ k hp h)
  refine PortMoved.trans ?_ (PortMoved.of_kept (p := noPort) (Kept.wr _ _ _ _ _ fun h => h.2 (.inl (isPort_key _ _ _ hp (by decide) (by decide)))) fun _ h => h)
  exact (PortMoved.setSub _ _ _).trans (PortMoved.setLink _ _ _ hl)

theorem lportsOf_lt {ps : List Nat} (h : ∀ p ∈ ps, p < 512) : ∀ l ∈ lportsOf ps, l < 2048 := by
  intro l hl
  simp only [lportsOf, List.mem_flatMap, List.mem_cons, List.not_mem_nil, or_false] at hl
  obtain ⟨p, hp, h1⟩ := hl
  have := h p hp
  omega

/-- A module whose association stays. -/
theorem PortMoved.setModule (s : State) (e : Nat) (x : Module) (h : x.associated = (s.module e).associated) : PortMoved s (s.setModule e x) := by
  refine ⟨RegKept.of_eq rfl, rfl, fun i => ?_⟩
  by_cases hi : i = e
  · subst hi; simp [State.module, h]
  · simp [State.module, Sparse.get_set_ne _ _ _ hi]

theorem lasersOff_moved (s : State) (e : Nat) : PortMoved s (s.lasersOff e) := by
  unfold State.lasersOff
  dsimp only
  split_ifs
  · exact PortMoved.refl _
  · unfold State.outputs State.setCal
    refine PortMoved.trans ?_ (PortMoved.of_kept (p := noPort) (Kept.wr _ _ _ _ _ fun h => h.2 (.inr ⟨e, rfl⟩)) fun _ h => h)
    refine PortMoved.trans ?_ (PortMoved.of_kept (emit_kept _ _) fun _ h => h.1.1.ctr)
    exact PortMoved.setModule _ _ _ rfl

@[simp] theorem State.lasersOff_subs (s : State) (e : Nat) : (s.lasersOff e).subs = s.subs := by
  unfold State.lasersOff
  dsimp only
  split_ifs
  · rfl
  · unfold State.outputs State.setCal
    rw [State.wr_subs, (emit_kept _ _).subs]; rfl

/-- A port that has gone dark as a whole ends its drain, and its sub-ports that wait for that start. -/
theorem portDark_moved (s : State) (p : Nat) (hp : p < 512) : PortMoved s (s.portDark p) := by
  unfold State.portDark
  split_ifs
  · exact PortMoved.refl _
  · have hl := lportsOf_lt (ps := [p]) fun q hq => by rw [List.mem_singleton.mp hq]; exact hp
    refine PortMoved.trans ?_ (lasersOff_moved _ _)
    refine PortMoved.trans ?_ (PortMoved.each _ _ (fun l h t => PortMoved.iff _ _ (startSub_moved t l (hl l h))) _)
    refine PortMoved.iff _ _ ?_
    exact (PortMoved.draining _ _).trans (PortMoved.each _ _ (fun l h t => goDark_moved t l _ (hl l h)) _)

theorem cutSub_moved (s : State) (l cause v : Nat) (hl : l < 2048) : PortMoved s (s.cutSub l cause v) := by
  unfold State.cutSub
  dsimp only
  refine PortMoved.trans ?_ (portDark_moved _ _ (by omega))
  refine PortMoved.trans ?_ (PortMoved.iff _ _ (PortMoved.setSub _ _ _))
  refine PortMoved.trans ?_ (PortMoved.iff _ _ (goDark_moved _ _ _ hl))
  exact PortMoved.iff _ _ (linkDown_moved _ _ _ _ hl)

/-- A sub-port that is stopped sends its last LLDPDU, goes down and sends local fault or is dark. -/
theorem stopSub_moved (s : State) (l cause flush : Nat) (after : AfterDark) (hl : l < 2048) : PortMoved s (s.stopSub l cause flush after) := by
  unfold State.stopSub
  dsimp only
  have h1 : PortMoved s (s.lldpShutdown l) := by
    unfold State.lldpShutdown
    exact PortMoved.iff _ _ (PortMoved.of_moved (sendWire_moved _ _ _) fun _ h => h.1)
  have h2 := h1.trans (PortMoved.iff ((s.lldpShutdown l).isUp l) (fun s => s.linkDown l cause flush) (linkDown_moved _ _ _ _ hl))
  split_ifs
  · refine h2.trans ?_
    cases after
    · exact goDark_moved _ _ _ hl
    · exact startSub_moved _ _ hl
    · exact (goDark_moved _ _ _ hl).trans (PortMoved.setSub _ _ _)
  · refine h2.trans (PortMoved.trans ?_ (PortMoved.iff _ _ (PortMoved.of_kept (emit_kept _ _) fun _ h => h.1.1.ctr)))
    exact (PortMoved.setLink _ _ _ hl).trans (PortMoved.setSub _ _ _)

theorem startWaiting_moved (s : State) (ps : List Nat) (h : ∀ p ∈ ps, p < 512) : PortMoved s (s.startWaiting ps) :=
  PortMoved.each _ _ (fun l hl _ => PortMoved.iff _ _ (startSub_moved _ _ (lportsOf_lt h l hl))) s

theorem engineDark_moved (s : State) (e : Nat) (he : e < 16) : PortMoved s (s.engineDark e) := by
  unfold State.engineDark
  refine PortMoved.each _ _ (fun l hl _ => cutSub_moved _ _ _ _ (lportsOf_lt ?_ l hl)) s
  intro p hp
  simp only [engPorts, List.mem_map, List.mem_range] at hp
  omega

/-! ### Engine pages -/

theorem engPage_aligned (e : Nat) : engPage e % 4096 = 0 := by unfold engPage diePage; omega

theorem eng_key (f : Fld) (e i : Nat) (h1 : f.offAt i < 4096) (h2 : f.loAt i < 64) :
    pageOf (f.key (engPage e) i) = engPage e ∧ offOf (f.key (engPage e) i) = f.offAt i :=
  key_place f _ i (engPage_aligned e) h1 h2

theorem engPage_range (e : Nat) (he : e < 16) : engPage e % 0x4000000 < 0x14000 ∧ engPage e < 0xF000000 := by
  have := Nat.mod_lt e (show 0 < 4 by decide)
  unfold engPage diePage
  omega

/-- A field of an engine page away from the counters is one that the switch and events keep. -/
theorem eng_noSwitch (f : Fld) (e i : Nat) (he : e < 16) (h1 : f.offAt i < 0xF00) (h2 : f.loAt i < 64) : noSwitch (f.key (engPage e) i) := by
  obtain ⟨ha, ho⟩ := eng_key f e i (by omega) h2
  have hr := engPage_range e he
  refine ⟨⟨?_, ?_⟩, ?_⟩
  · simp only [isCtr, ho]; omega
  · simp only [isEvr, ha]; omega
  · simp only [isBufSwp, ha]; omega

/-- A field of an engine page away from the counters, other than its state, is one that changes of sub-ports keep. -/
theorem eng_noPort (f : Fld) (e i : Nat) (he : e < 16) (hc : f.offAt i * 64 + f.loAt i ≠ 0x100 * 64)
    (h1 : f.offAt i < 0xF00) (h2 : f.loAt i < 64) : noPort (f.key (engPage e) i) := by
  obtain ⟨ha, ho⟩ := eng_key f e i (by omega) h2
  have hr := engPage_range e he
  refine ⟨eng_noSwitch f e i he h1 h2, ?_⟩
  · rintro (h | ⟨j, h⟩)
    · simp only [isPort, ha] at h; omega
    · apply hc
      obtain ⟨hb, hc⟩ := eng_key OPT_ENG_STATUS.cal_state j 0 (by decide) (by decide)
      rw [← h, ha] at hb
      have h3 : Fld.offAt OPT_ENG_STATUS.cal_state 0 = 0x100 := rfl
      have h4 : Fld.loAt OPT_ENG_STATUS.cal_state 0 = 0 := rfl
      unfold Fld.key at h
      rw [h3, h4, ← hb] at h
      omega

/-- A field of an engine page other than its interrupt bits is one that its interrupts keep. -/
theorem eng_noIrq (f : Fld) (e i : Nat) (he : e < 16) (h0 : f.offAt i ≠ 0x18) (h1 : f.offAt i < 0xF00) (h2 : f.loAt i < 64) (e' : Nat) :
    noIrq (engPage e') (f.key (engPage e) i) := by
  obtain ⟨_, ho⟩ := eng_key f e i (by omega) h2
  exact ⟨(eng_noSwitch f e i he h1 h2).1, fun h => h0 (ho ▸ h.2)⟩

@[simp] theorem State.module_setModule_same (s : State) (e : Nat) (x : Module) : (s.setModule e x).module e = x := by
  simp [State.module]

theorem State.module_setModule_ne (s : State) {e k : Nat} (x : Module) (h : k ≠ e) : (s.setModule e x).module k = s.module k := by
  simp [State.module, Sparse.get_set_ne _ _ _ h]

theorem State.module_congr {s t : State} (h : t.modules = s.modules) (e : Nat) : t.module e = s.module e := by simp [State.module, h]

@[simp] theorem State.module_run (s : State) (f : State → State) (e : Nat) : (s.run f).module e = (f s.cleared).module e := rfl
@[simp] theorem State.module_cleared (s : State) (e : Nat) : s.cleared.module e = s.module e := rfl
@[simp] theorem State.calState_run (s : State) (f : State → State) (e : Nat) : (s.run f).calState e = (f s.cleared).calState e := rfl
@[simp] theorem State.calState_cleared (s : State) (e : Nat) : s.cleared.calState e = s.calState e := rfl

/-- The interrupt bits of an engine page. -/
theorem engIrqKey (e : Nat) (he : e < 16) : noPort (PG_IRQ_RAW.block_irq.key (engPage e) 0) := eng_noPort _ _ _ he (by decide) (by decide) (by decide)

theorem engNe (f g : Fld) (e : Nat) (i j : Nat) (h : f.offAt i ≠ g.offAt j) (h1 : f.loAt i < 64) (h2 : g.loAt j < 64) : f.key (engPage e) i ≠ g.key (engPage e) j := by
  unfold Fld.key; omega

/-- Outputs of a module are commanded: no module is associated or lost by it, and no register changes. -/
theorem outputs_spec (s : State) (e v : Nat) : (∀ i, ((s.outputs e v).module i).associated = (s.module i).associated)
    ∧ ∀ (f : Fld) (a i : Nat), (s.outputs e v).rd f a i = s.rd f a i := by
  unfold State.outputs
  refine ⟨fun i => ?_, fun f a i => emit_rd _ _ _ _ _ rfl⟩
  rw [State.module_congr (emit_kept _ _).modules]
  by_cases h : i = e
  · subst h; simp
  · rw [State.module_setModule_ne _ _ h]

/-- Step 3 of an engine: no module is associated or lost by it, and the engine's state alone changes among registers. -/
theorem engineStep3_spec (s : State) (e : Nat) : (∀ i, ((s.engineStep3 e).module i).associated = (s.module i).associated)
    ∧ ∀ (f : Fld) (a i : Nat), f.key a i ≠ OPT_ENG_STATUS.cal_state.key (engPage e) 0 → (s.engineStep3 e).rd f a i = s.rd f a i := by
  unfold State.engineStep3 State.setCal
  refine ⟨fun i => ?_, fun f a i h => ?_⟩
  · rw [State.module_congr (State.wr_modules _ _ _ _ _)]
    exact (outputs_spec _ _ _).1 i
  · rw [State.rd_wr_ne _ _ h]
    exact (outputs_spec _ _ _).2 f a i

/-- The module of engine `e` is found: it is associated, shows in the engine's registers, and no other module changes in that. -/
theorem associate_spec (s : State) (e : Nat) : (∀ i, ((s.associate e).module i).associated = ((s.module i).associated || i == e))
    ∧ (s.associate e).rd OPT_ENG_STATUS.lsm_present (engPage e) = 1 ∧ (s.associate e).rd OPT_LSM_CFG.lsm_addr (engPage e) = 0x10 + e % 4 := by
  unfold State.associate
  dsimp only
  generalize hv : ((s.setModule e { s.module e with associated := true, failed := 0 }).wr OPT_ENG_STATUS.lsm_present (engPage e) 1).wr OPT_LSM_CFG.lsm_addr (engPage e) (0x10 + e % 4) = v
  have v1 : ∀ i, (v.module i).associated = ((s.module i).associated || i == e) := fun i => by
    rw [← hv, State.module_congr (State.wr_modules _ _ _ _ _), State.module_congr (State.wr_modules _ _ _ _ _)]
    by_cases h : i = e
    · subst h; simp
    · rw [State.module_setModule_ne _ _ h]; simp [h]
  have v2 : v.rd OPT_ENG_STATUS.lsm_present (engPage e) = 1 := by
    rw [← hv, State.rd_wr_ne _ _ (engNe _ _ _ _ _ (by decide) (by decide) (by decide)), State.rd_wr_same]; rfl
  have v3 : v.rd OPT_LSM_CFG.lsm_addr (engPage e) = 0x10 + e % 4 := by
    rw [← hv, State.rd_wr_same]
    have : 2 ^ OPT_LSM_CFG.lsm_addr.w ≥ 32 := by decide
    exact Nat.mod_eq_of_lt (by omega)
  have hcal : OPT_ENG_STATUS.lsm_present.key (engPage e) 0 ≠ OPT_ENG_STATUS.cal_state.key (engPage e) 0 := by
    simp only [Fld.key, Fld.offAt, Fld.loAt, OPT_ENG_STATUS.lsm_present, OPT_ENG_STATUS.cal_state]; omega
  split_ifs
  · exact ⟨v1, v2, v3⟩
  · have h := engineStep3_spec v e
    refine ⟨fun i => (h.1 i).trans (v1 i), ?_, ?_⟩
    · rw [h.2 _ _ _ hcal, v2]
    · rw [h.2 _ _ _ (engNe _ _ _ _ _ (by decide) (by decide) (by decide)), v3]
  · have h := outputs_spec v e (v.rd OPT_ENG_CTRL.laser_enable (engPage e))
    refine ⟨fun i => (h.1 i).trans (v1 i), ?_, ?_⟩ <;> rw [h.2]
    · exact v2
    · exact v3

/-- A strap of bus `d` associates engine 4d + k alone. -/
theorem strap_modules (s : State) (d k j : Nat) (hj : j < 4) : ((s.strap d k).module (4 * d + j)).associated = ((s.module (4 * d + j)).associated || k == j) := by
  unfold State.strap
  dsimp only
  split_ifs with h1 h2
  · have : k ≠ j := by omega
    simp [this]
  · unfold State.engineFault
    rw [State.module_congr (irq_kept _ _ _ (engPage_aligned _)).modules]
    by_cases hk : k = j
    · subst hk; simp [h2]
    · simp [hk]
  · rw [(associate_spec s (4 * d + k)).1]
    congr 1
    rw [beq_eq_beq]
    omega

theorem inputLow_moved (s : State) (e k : Nat) (he : e < 16) (hk : k < 8) : 
    RegKept (fun j => noPort j ∧ ¬isIrq (engPage e) j) s (s.inputLow e k) ∧ ∀ i, ((s.inputLow e k).module i).associated = (s.module i).associated := by
  unfold State.inputLow
  dsimp only
  have k1 := irq_kept s (engPage e) 4 (engPage_aligned e)
  have k2 := count_kept (s.irq (engPage e) 4) (engPage e) 0x80 k 1 (engPage_aligned e)
  have k3 : ∀ t : State, PortMoved t (t.each (lportsOf ((List.range 4).map fun j => 32 * e + 4 * k + j)) fun l s => s.stopSub l cLaserLow 0x1B .restart) := fun t =>
    PortMoved.each _ _ (fun l hl _ => stopSub_moved _ _ _ _ _ (lportsOf_lt (fun p hp => by
      simp only [List.mem_map, List.mem_range] at hp; omega) l hl)) t
  refine ⟨?_, ?_⟩
  · refine RegKept.trans ?_ ((k3 _).regs.mono fun _ h => h.1)
    refine RegKept.trans ?_ ((RegKept.of_kept k2).mono (fun _ h => h.1.1.1.ctr))
    exact (RegKept.of_kept k1).mono fun _ h => ⟨h.1.1.1, h.2⟩
  · intro i; rw [(k3 _).associated, State.module_congr k2.modules, State.module_congr k1.modules]

theorem clkPage_aligned (d : Nat) : clkPage d % 4096 = 0 := by unfold clkPage diePage; omega

/-- A field of a clock page away from the counters is one that changes of sub-ports keep. -/
theorem clk_noPort (f : Fld) (d i : Nat) (hd : d < 4) (h1 : f.offAt i < 0xF00) (h2 : f.loAt i < 64) : noPort (f.key (clkPage d) i) := by
  obtain ⟨ha, ho⟩ := key_place f (clkPage d) i (clkPage_aligned d) (by omega) h2
  have hr : clkPage d % 0x4000000 = 0x1000 ∧ clkPage d < 0xF000000 := by unfold clkPage diePage; omega
  refine ⟨⟨⟨?_, ?_⟩, ?_⟩, ?_⟩
  · simp only [isCtr, ho]; omega
  · simp only [isEvr, ha]; omega
  · simp only [isBufSwp, ha]; omega
  · rintro (h | ⟨j, h⟩)
    · simp only [isPort, ha] at h; omega
    · rw [h, (eng_key OPT_ENG_STATUS.cal_state j 0 (by decide) (by decide)).1] at ha
      unfold engPage clkPage diePage at ha; omega

theorem engIrqFree (f : Fld) (e i : Nat) (h0 : f.offAt i ≠ 0x18) (h1 : f.offAt i < 4096) (h2 : f.loAt i < 64) (e' : Nat) : ¬isIrq (engPage e') (f.key (engPage e) i) := by
  intro h
  rw [isIrq, (eng_key f e i h1 h2).2] at h
  exact h0 h.2

theorem tap_off (k : Nat) (hk : k < 8) : OPT_LASER_PWR.tap_dbm.offAt k = 0x118 ∧ OPT_LASER_PWR.tap_dbm.loAt k < 64 := by
  have : k = 0 ∨ k = 1 ∨ k = 2 ∨ k = 3 ∨ k = 4 ∨ k = 5 ∨ k = 6 ∨ k = 7 := by omega
  rcases this with rfl | rfl | rfl | rfl | rfl | rfl | rfl | rfl <;> decide

theorem eng_clk_ne (f g : Fld) (e d i j : Nat) (hf1 : f.offAt i < 4096) (hf2 : f.loAt i < 64) (hg1 : g.offAt j < 4096) (hg2 : g.loAt j < 64) :
    f.key (engPage e) i ≠ g.key (clkPage d) j := by
  intro h
  have h1 := (eng_key f e i hf1 hf2).1
  have h2 := (key_place g (clkPage d) j (clkPage_aligned d) hg1 hg2).1
  rw [h, h2] at h1
  unfold clkPage engPage diePage at h1
  omega

theorem readTaps_modules (s : State) (e : Nat) (taps : List Nat) : (s.readTaps e taps).modules = s.modules ∧ (s.readTaps e taps).now = s.now := by
  unfold State.readTaps
  dsimp only [State.wr_modules, State.wr_now]
  exact ⟨State.each_keeps State.modules (fun k t => t.wr OPT_LASER_PWR.tap_dbm (engPage e) (taps.getD k 0) k) _ (fun _ _ _ => rfl) s,
    State.each_keeps State.now (fun k t => t.wr OPT_LASER_PWR.tap_dbm (engPage e) (taps.getD k 0) k) _ (fun _ _ _ => rfl) s⟩

theorem readTaps_kept (s : State) (e : Nat) (taps : List Nat) :
    Kept (fun k => ¬(pageOf k = engPage e ∧ (offOf k = 0x118 ∨ k = OPT_ENG_STATUS.laser_ok.key (engPage e) 0))) s (s.readTaps e taps) := by
  unfold State.readTaps
  dsimp only
  refine Kept.trans (Kept.each _ _ (fun k hk t => Kept.wr _ _ _ _ _ ?_) s) (Kept.wr _ _ _ _ _ ?_)
  · have hk := List.mem_range.mp hk
    obtain ⟨h1, h2⟩ := tap_off k hk
    obtain ⟨ha, ho⟩ := eng_key OPT_LASER_PWR.tap_dbm e k (by omega) h2
    exact not_not.mpr ⟨ha, .inl (by rw [ho, h1])⟩
  · obtain ⟨ha, ho⟩ := eng_key OPT_ENG_STATUS.laser_ok e 0 (by decide) (by decide)
    exact not_not.mpr ⟨ha, .inr rfl⟩

theorem clk_noErrPkg (f : Fld) (d i : Nat) (hd : d < 4) (h0 : f.offAt i ≠ 0x18) (h1 : f.offAt i < 0xF00) (h2 : f.loAt i < 64) :
    noIrq pwrPkgPage (f.key (clkPage d) i) := by
  obtain ⟨ha, ho⟩ := key_place f (clkPage d) i (clkPage_aligned d) (by omega) h2
  exact ⟨(clk_noPort f d i hd h1 h2).1.1, fun h => h0 (ho ▸ h.2)⟩


theorem clk_key_ne (f g : Fld) (d e i j : Nat) (h : d ≠ e) (hf1 : f.offAt i < 4096) (hf2 : f.loAt i < 64) (hg1 : g.offAt j < 4096) (hg2 : g.loAt j < 64) :
    f.key (clkPage d) i ≠ g.key (clkPage e) j := by
  intro k
  have h1 := (key_place f (clkPage d) i (clkPage_aligned d) hf1 hf2).1
  have h2 := (key_place g (clkPage e) j (clkPage_aligned e) hg1 hg2).1
  rw [k, h2] at h1
  unfold clkPage diePage at h1
  omega

theorem goDark_dark (s : State) (l v k : Nat) (h : (s.sub k).tx = .dark) : ((s.goDark l v).sub k).tx = .dark := by
  unfold State.goDark
  by_cases e : k = l
  · subst e; simp
  · rw [State.sub_setSub_ne _ _ e]; exact h

/-- A sub-port that starts again is dark until its lasers are on, and dark ones stay so. -/
theorem startSub_dark (s : State) (l k : Nat) (h : (s.sub k).tx = .dark) : ((s.startSub l).sub k).tx = .dark := by
  have g := fun v => goDark_dark s l v k h
  unfold State.startSub
  split_ifs
  · exact h
  all_goals exact g _

theorem portDark_dark (s : State) (p k : Nat) (h : (s.sub k).tx = .dark) : ((s.portDark p).sub k).tx = .dark := by
  unfold State.portDark
  split_ifs
  · exact h
  · rw [State.sub_congr (State.lasersOff_subs _ _)]
    refine State.each_rel (R := fun s t => (s.sub k).tx = .dark → (t.sub k).tx = .dark) (fun _ h => h) (fun h g x => g (h x)) _ _ (fun l _ t => ?_) _ ?_
    · exact State.iff_rel (R := fun s t => (s.sub k).tx = .dark → (t.sub k).tx = .dark) (fun _ h => h) t _ _ (startSub_dark t l k)
    · refine State.iff_rel (R := fun s t => (s.sub k).tx = .dark → (t.sub k).tx = .dark) (fun _ h => h) s _ _ (fun x => ?_) h
      exact State.each_rel (R := fun s t => (s.sub k).tx = .dark → (t.sub k).tx = .dark) (fun _ h => h) (fun h g x => g (h x)) _ _ (fun l _ t => goDark_dark t l _ k) _ x

/-- A sub-port that is cut is dark, and a dark one stays so. -/
theorem cutSub_dark (s : State) (l c v : Nat) (hl : l < 2048) : ((s.cutSub l c v).sub l).tx = .dark ∧ ∀ k, (s.sub k).tx = .dark → ((s.cutSub l c v).sub k).tx = .dark := by
  unfold State.cutSub
  dsimp only
  generalize hu : s.iff (s.isUp l) (fun s => s.linkDown l c 0x1B) = u
  generalize hb : ((u.sub l).tx != TxMode.dark || u.linkState l == psTxOn || u.linkState l == psWaitEngine || u.linkState l == psDark) = b
  generalize hw : (u.iff b fun s => s.goDark l (if s.wanted l then v else s.restState l)) = w
  have hk : ∀ k, (u.sub k).tx = (s.sub k).tx := by
    intro k
    rw [← hu]
    cases s.isUp l
    · rfl
    · obtain ⟨h1, h2, _⟩ := linkDown_spec s l c 0x1B hl
      by_cases hkl : k = l
      · subst hkl; rw [State.iff_true, h1]
      · rw [State.iff_true, h2 k hkl]
  have h1 : (w.sub l).tx = .dark := by
    rw [← hw]
    cases b
    · simp only [Bool.or_eq_false_iff, bne_eq_false_iff_eq] at hb
      exact hb.1.1.1
    · simp
  have h2 : ∀ k, (s.sub k).tx = .dark → (w.sub k).tx = .dark := fun k h => by
    by_cases e : k = l
    · subst e; exact h1
    · rw [← hw]
      cases b
      · rw [State.iff_false, hk, h]
      · rw [State.iff_true]
        unfold State.goDark
        rw [State.sub_setSub_ne _ _ e, State.sub_setLink, hk, h]
  have h3 : ∀ (t : State) (k : Nat) (x : Bool) (y : AfterDark), (t.sub k).tx = .dark → ((t.iff x fun s => s.setSub l { s.sub l with after := y }).sub k).tx = .dark := by
    intro t k x y h
    cases x
    · exact h
    · rw [State.iff_true]
      by_cases e : k = l
      · subst e; simpa using h
      · rw [State.sub_setSub_ne _ _ e]; exact h
  exact ⟨portDark_dark _ _ _ (h3 _ _ _ _ h1), fun k h => portDark_dark _ _ _ (h3 _ _ _ _ (h2 k h))⟩

end Sys2Proof.Machine
end

