-- ==== Sys2Proof/Laws/PerInstr.lean ====
section
/-! SUPPORT. One lemma for each command: what stops it is its well-formedness alone. -/

namespace Sys2Proof.Laws.Admission

open Sys2Proof.Machine

/-- Command `i` is performed wherever its operands are well formed, and stops by name wherever they are not: no state stops it. -/
def Statement (i : Instr) : Prop := ∃ f : State → State, ∀ s, exec i s = s.commandIf i.wellFormed f

theorem powerOn (vin : BitVec 10) : Statement (.powerOn vin) := ⟨_, fun _ => rfl⟩
theorem railBoundMissed : Statement (.railBoundMissed) := ⟨_, fun _ => rfl⟩
theorem railRetry : Statement (.railRetry) := ⟨_, fun _ => rfl⟩
theorem vin48Trip (cause : Fin 3) : Statement (.vin48Trip cause) := ⟨_, fun _ => rfl⟩
theorem isolationLinkSilent (tenMs : Bool) : Statement (.isolationLinkSilent tenMs) := ⟨_, fun _ => rfl⟩
theorem coldBoot (pufOk : Bool) (trained : List Bool) : Statement (.coldBoot pufOk trained) := ⟨_, fun _ => rfl⟩
theorem warmRstPin : Statement (.warmRstPin) := ⟨_, fun _ => rfl⟩
theorem warmResetRegister (who : Fin 64) : Statement (.warmResetRegister who) := ⟨_, fun _ => rfl⟩
theorem warmResetRelease (trained : List Bool) (copyOk : Bool) : Statement (.warmResetRelease trained copyOk) := ⟨_, fun _ => rfl⟩
theorem dieReset (who : Fin 64) (die : Fin 4) : Statement (.dieReset who die) := ⟨_, fun _ => rfl⟩
theorem dieResetRelease (die : Fin 4) (trained : List Bool) : Statement (.dieResetRelease die trained) := ⟨_, fun _ => rfl⟩
theorem pageSoftReset (who : Fin 64) (page : Nat) : Statement (.pageSoftReset who page) := ⟨_, fun _ => rfl⟩
theorem pageConfigRestore (page : Nat) : Statement (.pageConfigRestore page) := ⟨_, fun _ => rfl⟩
theorem portReset (who : Fin 64) (port : Fin 512) : Statement (.portReset who port) := ⟨_, fun _ => rfl⟩
theorem sysclkLoss : Statement (.sysclkLoss) := ⟨_, fun _ => rfl⟩
theorem serdesRefLoss (die : Fin 4) : Statement (.serdesRefLoss die) := ⟨_, fun _ => rfl⟩
theorem serdesRefReturn (die : Fin 4) : Statement (.serdesRefReturn die) := ⟨_, fun _ => rfl⟩
theorem timeRefLoss (diff : Int) : Statement (.timeRefLoss diff) := ⟨_, fun _ => rfl⟩
theorem timeRefReturn : Statement (.timeRefReturn) := ⟨_, fun _ => rfl⟩
theorem ppsInEdge : Statement (.ppsInEdge) := ⟨_, fun _ => rfl⟩
theorem ppsMiss : Statement (.ppsMiss) := ⟨_, fun _ => rfl⟩
theorem meshLaneGroupFail (die : Fin 4) (link : Fin 3) (group : Fin 8) (flits : List Nat) : Statement (.meshLaneGroupFail die link group flits) := ⟨_, fun _ => rfl⟩
theorem meshCrossing (src : Fin 4) (dst : Fin 4) (pool : Machine.Pool) : Statement (.meshCrossing src dst pool) := ⟨_, fun _ => rfl⟩
theorem rdmaWrite (m : Fin 4) (qp : Fin 64) (rkey : BitVec 32) (addr : BitVec 64) (data : List Byte) (via : Machine.Via) : Statement (.rdmaWrite m qp rkey addr data via) := ⟨_, fun _ => rfl⟩
theorem rdmaRead (m : Fin 4) (qp : Fin 64) (rkey : BitVec 32) (addr : BitVec 64) (len : BitVec 32) (via : Machine.Via) (find : ReadFind) : Statement (.rdmaRead m qp rkey addr len via find) := ⟨_, fun _ => rfl⟩
theorem registerWrite (who : Fin 64) (addr : Nat) (value : BitVec 64) : Statement (.registerWrite who addr value) := ⟨_, fun _ => rfl⟩
theorem hostSend (m : Fin 4) (qp : Fin 64) (via : Machine.Via) : Statement (.hostSend m qp via) := ⟨_, fun _ => rfl⟩
theorem localAckTimeout (m : Fin 4) (qp : Fin 64) : Statement (.localAckTimeout m qp) := ⟨_, fun _ => rfl⟩
theorem rnrRetryTimer (m : Fin 4) (qp : Fin 64) : Statement (.rnrRetryTimer m qp) := ⟨_, fun _ => rfl⟩
theorem cmReq (m : Fin 4) (hostQpn : Nat) (priv : List Byte) (via : Machine.Via) : Statement (.cmReq m hostQpn priv via) := ⟨_, fun _ => rfl⟩
theorem cmRtu (m : Fin 4) (qp : Fin 64) (signature : List Byte) (via : Machine.Via) : Statement (.cmRtu m qp signature via) := ⟨_, fun _ => rfl⟩
theorem sessionIdleTimeout (session : Fin 64) : Statement (.sessionIdleTimeout session) := ⟨_, fun _ => rfl⟩
theorem ringOwnerRelease (session : Fin 64) : Statement (.ringOwnerRelease session) := ⟨_, fun _ => rfl⟩
theorem mkaKeyInstall (m : Fin 4) (an : Fin 4) : Statement (.mkaKeyInstall m an) := ⟨_, fun _ => rfl⟩
theorem mkaTimeout (m : Fin 4) : Statement (.mkaTimeout m) := ⟨_, fun _ => rfl⟩
theorem mgtLinkChange (m : Fin 4) (up : Bool) : Statement (.mgtLinkChange m up) := ⟨_, fun _ => rfl⟩
theorem pgCommitWrite (who : Fin 64) (page : Nat) (seq : BitVec 32) : Statement (.pgCommitWrite who page seq) := ⟨_, fun _ => rfl⟩
theorem pgCommitAbort (who : Fin 64) (page : Nat) : Statement (.pgCommitAbort who page) := ⟨_, fun _ => rfl⟩
theorem bankSwap (page : Nat) : Statement (.bankSwap page) := ⟨_, fun _ => rfl⟩
theorem dualTimeout (ticket : BitVec 32) : Statement (.dualTimeout ticket) := ⟨_, fun _ => rfl⟩
theorem pgGuardWrite (who : Fin 64) (page : Nat) (owner : BitVec 8) : Statement (.pgGuardWrite who page owner) := ⟨_, fun _ => rfl⟩
theorem ringDoorbell (who : Fin 64) (ring : Fin 4096) (producer : BitVec 32) : Statement (.ringDoorbell who ring producer) := ⟨_, fun _ => rfl⟩
theorem descriptorFetch (ring : Fin 4096) (find : ReadFind) : Statement (.descriptorFetch ring find) := ⟨_, fun _ => rfl⟩
theorem ringEnable (who : Fin 64) (ring : Fin 4096) : Statement (.ringEnable who ring) := ⟨_, fun _ => rfl⟩
theorem ringDisable (who : Fin 64) (ring : Fin 4096) : Statement (.ringDisable who ring) := ⟨_, fun _ => rfl⟩
theorem cqHeadWrite (who : Fin 64) (ring : Fin 4096) (consumed : BitVec 32) : Statement (.cqHeadWrite who ring consumed) := ⟨_, fun _ => rfl⟩
theorem evrEnable (who : Fin 64) (evr : Fin 256) : Statement (.evrEnable who evr) := ⟨_, fun _ => rfl⟩
theorem evrDisable (who : Fin 64) (evr : Fin 256) : Statement (.evrDisable who evr) := ⟨_, fun _ => rfl⟩
theorem evrHeadWrite (who : Fin 64) (evr : Fin 256) (consumed : BitVec 32) : Statement (.evrHeadWrite who evr consumed) := ⟨_, fun _ => rfl⟩
theorem coreWatchdogExpiry (core : Fin 4) (rings : List (Fin 4096)) : Statement (.coreWatchdogExpiry core rings) := ⟨_, fun _ => rfl⟩
theorem coreRestart (core : Fin 4) : Statement (.coreRestart core) := ⟨_, fun _ => rfl⟩
theorem nop (ring : Fin 4096) : Statement (.nop ring) := ⟨_, fun _ => rfl⟩
theorem bankCommit (ring : Fin 4096) : Statement (.bankCommit ring) := ⟨_, fun _ => rfl⟩
theorem tableSearch (ring : Fin 4096) : Statement (.tableSearch ring) := ⟨_, fun _ => rfl⟩
theorem tableNext (ring : Fin 4096) : Statement (.tableNext ring) := ⟨_, fun _ => rfl⟩
theorem tableInsert (ring : Fin 4096) (ecc : Bool) : Statement (.tableInsert ring ecc) := ⟨_, fun _ => rfl⟩
theorem tableDelete (ring : Fin 4096) : Statement (.tableDelete ring) := ⟨_, fun _ => rfl⟩
theorem flushByPort (ring : Fin 4096) : Statement (.flushByPort ring) := ⟨_, fun _ => rfl⟩
theorem routeDrain (ring : Fin 4096) : Statement (.routeDrain ring) := ⟨_, fun _ => rfl⟩
theorem routeDrainQueuesEmpty (table : Nat) : Statement (.routeDrainQueuesEmpty table) := ⟨_, fun _ => rfl⟩
theorem routeDrainExpiry (table : Nat) : Statement (.routeDrainExpiry table) := ⟨_, fun _ => rfl⟩
theorem portAccept (ring : Fin 4096) : Statement (.portAccept ring) := ⟨_, fun _ => rfl⟩
theorem bypassEnable (ring : Fin 4096) : Statement (.bypassEnable ring) := ⟨_, fun _ => rfl⟩
theorem bypassReset (ring : Fin 4096) : Statement (.bypassReset ring) := ⟨_, fun _ => rfl⟩
theorem bypassRead (ring : Fin 4096) : Statement (.bypassRead ring) := ⟨_, fun _ => rfl⟩
theorem groupWrite (ring : Fin 4096) (find : ReadFind) : Statement (.groupWrite ring find) := ⟨_, fun _ => rfl⟩
theorem groupDisable (ring : Fin 4096) : Statement (.groupDisable ring) := ⟨_, fun _ => rfl⟩
theorem flightLoad (ring : Fin 4096) (find : ReadFind) : Statement (.flightLoad ring find) := ⟨_, fun _ => rfl⟩
theorem triggerArm (ring : Fin 4096) : Statement (.triggerArm ring) := ⟨_, fun _ => rfl⟩
theorem quotaSet (ring : Fin 4096) : Statement (.quotaSet ring) := ⟨_, fun _ => rfl⟩
theorem planLoad (ring : Fin 4096) (find : ReadFind) : Statement (.planLoad ring find) := ⟨_, fun _ => rfl⟩
theorem configSave (ring : Fin 4096) (good : Bool) : Statement (.configSave ring good) := ⟨_, fun _ => rfl⟩
theorem configSaveAuto (good : Bool) : Statement (.configSaveAuto good) := ⟨_, fun _ => rfl⟩
theorem powerCapSet (ring : Fin 4096) : Statement (.powerCapSet ring) := ⟨_, fun _ => rfl⟩
theorem powerCapAboveDefault (ring : Fin 4096) : Statement (.powerCapAboveDefault ring) := ⟨_, fun _ => rfl⟩
theorem keyEnrol (ring : Fin 4096) (find : ReadFind) : Statement (.keyEnrol ring find) := ⟨_, fun _ => rfl⟩
theorem protectTableCommit (ring : Fin 4096) : Statement (.protectTableCommit ring) := ⟨_, fun _ => rfl⟩
theorem counterSnapshot (ring : Fin 4096) (find : ReadFind) : Statement (.counterSnapshot ring find) := ⟨_, fun _ => rfl⟩
theorem moduleAssociate (die : Fin 4) (straps : List (BitVec 8)) : Statement (.moduleAssociate die straps) := ⟨_, fun _ => rfl⟩
theorem i3cRetry (transfer : I3cTransfer) : Statement (.i3cRetry transfer) := ⟨_, fun _ => rfl⟩
theorem moduleRediscovery (engine : Fin 16) (answer : Option (BitVec 8)) : Statement (.moduleRediscovery engine answer) := ⟨_, fun _ => rfl⟩
theorem moduleIbi (engine : Fin 16) (faults : BitVec 8) : Statement (.moduleIbi engine faults) := ⟨_, fun _ => rfl⟩
theorem laserInputLow (engine : Fin 16) (input : Fin 8) (tap : BitVec 8) : Statement (.laserInputLow engine input tap) := ⟨_, fun _ => rfl⟩
theorem laserInputRestore (engine : Fin 16) (input : Fin 8) (tap : BitVec 8) : Statement (.laserInputRestore engine input tap) := ⟨_, fun _ => rfl⟩
theorem engineBringup (engine : Fin 16) : Statement (.engineBringup engine) := ⟨_, fun _ => rfl⟩
theorem laserInputsReady (engine : Fin 16) (taps : List (BitVec 8)) : Statement (.laserInputsReady engine taps) := ⟨_, fun _ => rfl⟩
theorem calibrationDone (engine : Fin 16) (taps : List (BitVec 8)) : Statement (.calibrationDone engine taps) := ⟨_, fun _ => rfl⟩
theorem engineStepTimeout (engine : Fin 16) : Statement (.engineStepTimeout engine) := ⟨_, fun _ => rfl⟩
theorem optRecal (who : Fin 64) (engine : Fin 16) : Statement (.optRecal who engine) := ⟨_, fun _ => rfl⟩
theorem portTxEnable (lport : Fin 2048) : Statement (.portTxEnable lport) := ⟨_, fun _ => rfl⟩
theorem partnerLightLock (lport : Fin 2048) : Statement (.partnerLightLock lport) := ⟨_, fun _ => rfl⟩
theorem alignmentLock (lport : Fin 2048) : Statement (.alignmentLock lport) := ⟨_, fun _ => rfl⟩
theorem linkHoldUpExpiry (lport : Fin 2048) : Statement (.linkHoldUpExpiry lport) := ⟨_, fun _ => rfl⟩
theorem linkDownDeclare (lport : Fin 2048) (cause : Nat) : Statement (.linkDownDeclare lport cause) := ⟨_, fun _ => rfl⟩
theorem rxFaultOrderedSet (lport : Fin 2048) (fault : Machine.RxFault) : Statement (.rxFaultOrderedSet lport fault) := ⟨_, fun _ => rfl⟩
theorem berWindow (port : Fin 512) (corrected : List (BitVec 32)) (errors : List LaneErrors) : Statement (.berWindow port corrected errors) := ⟨_, fun _ => rfl⟩
theorem portSleep (who : Fin 64) (port : Fin 512) : Statement (.portSleep who port) := ⟨_, fun _ => rfl⟩
theorem portWake (who : Fin 64) (port : Fin 512) : Statement (.portWake who port) := ⟨_, fun _ => rfl⟩
theorem subPortEnableWrite (who : Fin 64) (port : Fin 512) (enable : BitVec 4) : Statement (.subPortEnableWrite who port enable) := ⟨_, fun _ => rfl⟩
theorem shutterClose (lport : Fin 2048) : Statement (.shutterClose lport) := ⟨_, fun _ => rfl⟩
theorem bypassDrainExpiry (port : Fin 512) : Statement (.bypassDrainExpiry port) := ⟨_, fun _ => rfl⟩
theorem switchingStart (engine : Fin 16) : Statement (.switchingStart engine) := ⟨_, fun _ => rfl⟩
theorem switchingDone (engine : Fin 16) (bad : BitVec 4) : Statement (.switchingDone engine bad) := ⟨_, fun _ => rfl⟩
theorem periodicReadback (engine : Fin 16) : Statement (.periodicReadback engine) := ⟨_, fun _ => rfl⟩
theorem bypReadbackWrite (who : Fin 64) (engine : Fin 16) : Statement (.bypReadbackWrite who engine) := ⟨_, fun _ => rfl⟩
theorem frameReceive (lport : Fin 2048) (bytes : List Byte) (find : RxFind) : Statement (.frameReceive lport bytes find) := ⟨_, fun _ => rfl⟩
theorem pfcXoffRefresh (lport : Fin 2048) (cls : Fin 8) : Statement (.pfcXoffRefresh lport cls) := ⟨_, fun _ => rfl⟩
theorem pfcPauseExpiry (lport : Fin 2048) (cls : Fin 8) : Statement (.pfcPauseExpiry lport cls) := ⟨_, fun _ => rfl⟩
theorem heldFrameAdmit (src : Fin 4) (dst : Fin 4) : Statement (.heldFrameAdmit src dst) := ⟨_, fun _ => rfl⟩
theorem frameTransmit (lport : Fin 2048) (find : TxFind) : Statement (.frameTransmit lport find) := ⟨_, fun _ => rfl⟩
theorem mcResidencyExpiry (lport : Fin 2048) (cls : Fin 8) : Statement (.mcResidencyExpiry lport cls) := ⟨_, fun _ => rfl⟩
theorem helloSend (lport : Fin 2048) : Statement (.helloSend lport) := ⟨_, fun _ => rfl⟩
theorem neighbourLivenessTimeout (lport : Fin 2048) (silent : Bool) : Statement (.neighbourLivenessTimeout lport silent) := ⟨_, fun _ => rfl⟩
theorem lldpSend (lport : Fin 2048) : Statement (.lldpSend lport) := ⟨_, fun _ => rfl⟩
theorem discoveryCompare (lport : Fin 2048) : Statement (.discoveryCompare lport) := ⟨_, fun _ => rfl⟩
theorem learnApply (die : Fin 4) (ecc : Bool) : Statement (.learnApply die ecc) := ⟨_, fun _ => rfl⟩
theorem agingSweep : Statement (.agingSweep) := ⟨_, fun _ => rfl⟩
theorem lpmScrub (die : Fin 4) (bad : List (Nat × Bool)) : Statement (.lpmScrub die bad) := ⟨_, fun _ => rfl⟩
theorem escapeReevaluate (die : Fin 4) : Statement (.escapeReevaluate die) := ⟨_, fun _ => rfl⟩
theorem escapeTimer (lport : Fin 2048) (cls : Fin 8) : Statement (.escapeTimer lport cls) := ⟨_, fun _ => rfl⟩
theorem banisterContinue (lport : Fin 2048) (cls : Fin 8) : Statement (.banisterContinue lport cls) := ⟨_, fun _ => rfl⟩
theorem ringWaitAlarm (die : Fin 4) : Statement (.ringWaitAlarm die) := ⟨_, fun _ => rfl⟩
theorem sprayDecay (die : Fin 4) : Statement (.sprayDecay die) := ⟨_, fun _ => rfl⟩
theorem tokenBucketUpdate : Statement (.tokenBucketUpdate) := ⟨_, fun _ => rfl⟩
theorem gateEntryChange (port : Fin 512) : Statement (.gateEntryChange port) := ⟨_, fun _ => rfl⟩
theorem gateChangeRequest (who : Fin 64) (port : Fin 512) : Statement (.gateChangeRequest who port) := ⟨_, fun _ => rfl⟩
theorem gateChangeCancel (who : Fin 64) (port : Fin 512) : Statement (.gateChangeCancel who port) := ⟨_, fun _ => rfl⟩
theorem gateChangeTime (port : Fin 512) : Statement (.gateChangeTime port) := ⟨_, fun _ => rfl⟩
theorem queueSample (die : Fin 4) (late : Bool) : Statement (.queueSample die late) := ⟨_, fun _ => rfl⟩
theorem activationStart (core : Fin 32) : Statement (.activationStart core) := ⟨_, fun _ => rfl⟩
theorem flightNop (core : Fin 32) (ctx : Fin 4) : Statement (.flightNop core ctx) := ⟨_, fun _ => rfl⟩
theorem flightEnd (core : Fin 32) (ctx : Fin 4) : Statement (.flightEnd core ctx) := ⟨_, fun _ => rfl⟩
theorem sync (core : Fin 32) (ctx : Fin 4) : Statement (.sync core ctx) := ⟨_, fun _ => rfl⟩
theorem li (core : Fin 32) (ctx : Fin 4) : Statement (.li core ctx) := ⟨_, fun _ => rfl⟩
theorem lsi (core : Fin 32) (ctx : Fin 4) : Statement (.lsi core ctx) := ⟨_, fun _ => rfl⟩
theorem addi (core : Fin 32) (ctx : Fin 4) : Statement (.addi core ctx) := ⟨_, fun _ => rfl⟩
theorem shli (core : Fin 32) (ctx : Fin 4) : Statement (.shli core ctx) := ⟨_, fun _ => rfl⟩
theorem shri (core : Fin 32) (ctx : Fin 4) : Statement (.shri core ctx) := ⟨_, fun _ => rfl⟩
theorem alu (core : Fin 32) (ctx : Fin 4) : Statement (.alu core ctx) := ⟨_, fun _ => rfl⟩
theorem fld (core : Fin 32) (ctx : Fin 4) : Statement (.fld core ctx) := ⟨_, fun _ => rfl⟩
theorem fins (core : Fin 32) (ctx : Fin 4) : Statement (.fins core ctx) := ⟨_, fun _ => rfl⟩
theorem ldw (core : Fin 32) (ctx : Fin 4) (find : Find) : Statement (.ldw core ctx find) := ⟨_, fun _ => rfl⟩
theorem stw (core : Fin 32) (ctx : Fin 4) : Statement (.stw core ctx) := ⟨_, fun _ => rfl⟩
theorem beq (core : Fin 32) (ctx : Fin 4) : Statement (.beq core ctx) := ⟨_, fun _ => rfl⟩
theorem bne (core : Fin 32) (ctx : Fin 4) : Statement (.bne core ctx) := ⟨_, fun _ => rfl⟩
theorem bltu (core : Fin 32) (ctx : Fin 4) : Statement (.bltu core ctx) := ⟨_, fun _ => rfl⟩
theorem bgeu (core : Fin 32) (ctx : Fin 4) : Statement (.bgeu core ctx) := ⟨_, fun _ => rfl⟩
theorem beqi (core : Fin 32) (ctx : Fin 4) : Statement (.beqi core ctx) := ⟨_, fun _ => rfl⟩
theorem bnei (core : Fin 32) (ctx : Fin 4) : Statement (.bnei core ctx) := ⟨_, fun _ => rfl⟩
theorem jmp (core : Fin 32) (ctx : Fin 4) : Statement (.jmp core ctx) := ⟨_, fun _ => rfl⟩
theorem spcfg (core : Fin 32) (ctx : Fin 4) : Statement (.spcfg core ctx) := ⟨_, fun _ => rfl⟩
theorem tdef (core : Fin 32) (ctx : Fin 4) : Statement (.tdef core ctx) := ⟨_, fun _ => rfl⟩
theorem vld (core : Fin 32) (ctx : Fin 4) (find : Find) : Statement (.vld core ctx find) := ⟨_, fun _ => rfl⟩
theorem vst (core : Fin 32) (ctx : Fin 4) : Statement (.vst core ctx) := ⟨_, fun _ => rfl⟩
theorem vbin (core : Fin 32) (ctx : Fin 4) (find : Find) : Statement (.vbin core ctx find) := ⟨_, fun _ => rfl⟩
theorem vcvt (core : Fin 32) (ctx : Fin 4) (find : Find) : Statement (.vcvt core ctx find) := ⟨_, fun _ => rfl⟩
theorem vquant (core : Fin 32) (ctx : Fin 4) (find : Find) : Statement (.vquant core ctx find) := ⟨_, fun _ => rfl⟩
theorem xadd (core : Fin 32) (ctx : Fin 4) (find : Find) (eng : Fin 2) : Statement (.xadd core ctx find eng) := ⟨_, fun _ => rfl⟩
theorem xround (core : Fin 32) (ctx : Fin 4) (find : Find) (eng : Fin 2) : Statement (.xround core ctx find eng) := ⟨_, fun _ => rfl⟩
theorem pass (core : Fin 32) (ctx : Fin 4) : Statement (.pass core ctx) := ⟨_, fun _ => rfl⟩
theorem fsend (core : Fin 32) (ctx : Fin 4) : Statement (.fsend core ctx) := ⟨_, fun _ => rfl⟩
theorem arrayPassStart (core : Fin 32) (find : Find) : Statement (.arrayPassStart core find) := ⟨_, fun _ => rfl⟩
theorem arrayDrain (core : Fin 32) (find : Find) : Statement (.arrayDrain core find) := ⟨_, fun _ => rfl⟩
theorem fillerPass (core : Fin 32) (result : FillerEnd) : Statement (.fillerPass core result) := ⟨_, fun _ => rfl⟩
theorem dutyRamp (core : Fin 32) : Statement (.dutyRamp core) := ⟨_, fun _ => rfl⟩
theorem xseInject (who : Fin 64) (core : Fin 32) (value : BitVec 64) : Statement (.xseInject who core value) := ⟨_, fun _ => rfl⟩
theorem arrInject (who : Fin 64) (core : Fin 32) (value : BitVec 64) : Statement (.arrInject who core value) := ⟨_, fun _ => rfl⟩
theorem vecInject (who : Fin 64) (core : Fin 32) (value : BitVec 64) : Statement (.vecInject who core value) := ⟨_, fun _ => rfl⟩
theorem hallStageComplete (key : Machine.Key) : Statement (.hallStageComplete key) := ⟨_, fun _ => rfl⟩
theorem dieLandingMerge (key : Machine.Key) (die : Fin 4) : Statement (.dieLandingMerge key die) := ⟨_, fun _ => rfl⟩
theorem landingEmit (key : Machine.Key) : Statement (.landingEmit key) := ⟨_, fun _ => rfl⟩
theorem landingTimerCheck (die : Fin 4) : Statement (.landingTimerCheck die) := ⟨_, fun _ => rfl⟩
theorem tombstoneExpiry (die : Fin 4) : Statement (.tombstoneExpiry die) := ⟨_, fun _ => rfl⟩
theorem residualAreaHold (key : Machine.Key) : Statement (.residualAreaHold key) := ⟨_, fun _ => rfl⟩
theorem residualCopyDone (key : Machine.Key) (find : ReadFind) : Statement (.residualCopyDone key find) := ⟨_, fun _ => rfl⟩
theorem residualWriteBack (key : Machine.Key) : Statement (.residualWriteBack key) := ⟨_, fun _ => rfl⟩
theorem dramRefresh (die : Fin 4) (temp : BitVec 16) : Statement (.dramRefresh die temp) := ⟨_, fun _ => rfl⟩
theorem dramScrub (die : Fin 4) (finds : List MemFind) : Statement (.dramScrub die finds) := ⟨_, fun _ => rfl⟩
theorem lpddr6Refresh (device : Fin 12) : Statement (.lpddr6Refresh device) := ⟨_, fun _ => rfl⟩
theorem lpddr6TempRead (device : Fin 12) (temp : BitVec 16) (mult : BitVec 2) (ok : Bool) (us : BitVec 16) : Statement (.lpddr6TempRead device temp mult ok us) := ⟨_, fun _ => rfl⟩
theorem lpddr6Retrain (device : Fin 12) (ok : Bool) (us : BitVec 16) : Statement (.lpddr6Retrain device ok us) := ⟨_, fun _ => rfl⟩
theorem lpddr6Scrub (device : Fin 12) (finds : List MemFind) : Statement (.lpddr6Scrub device finds) := ⟨_, fun _ => rfl⟩
theorem sramScrub (die : Fin 4) (finds : List MemFind) : Statement (.sramScrub die finds) := ⟨_, fun _ => rfl⟩
theorem timSet (who : Fin 64) (counter : Fin 2) : Statement (.timSet who counter) := ⟨_, fun _ => rfl⟩
theorem timAdd (who : Fin 64) (counter : Fin 2) : Statement (.timAdd who counter) := ⟨_, fun _ => rfl⟩
theorem timOffsetWrite (who : Fin 64) (domain : Fin 2) (offset : BitVec 64) : Statement (.timOffsetWrite who domain offset) := ⟨_, fun _ => rfl⟩
theorem domainModeWrite (who : Fin 64) (domain : Fin 2) (mode : BitVec 2) : Statement (.domainModeWrite who domain mode) := ⟨_, fun _ => rfl⟩
theorem livenessCheck : Statement (.livenessCheck) := ⟨_, fun _ => rfl⟩
theorem t1FollowFeed : Statement (.t1FollowFeed) := ⟨_, fun _ => rfl⟩
theorem gptpSyncSend (lport : Fin 2048) (message : List Byte) : Statement (.gptpSyncSend lport message) := ⟨_, fun _ => rfl⟩
theorem txqPop (who : Fin 64) (die : Fin 4) : Statement (.txqPop who die) := ⟨_, fun _ => rfl⟩
theorem ppsOutRise : Statement (.ppsOutRise) := ⟨_, fun _ => rfl⟩
theorem ppsOutFall : Statement (.ppsOutFall) := ⟨_, fun _ => rfl⟩
theorem throttlePeriod (watts : BitVec 16) (current : BitVec 12) (vin : BitVec 10) : Statement (.throttlePeriod watts current vin) := ⟨_, fun _ => rfl⟩
theorem throttleRelease (watts : BitVec 16) : Statement (.throttleRelease watts) := ⟨_, fun _ => rfl⟩
theorem capExceeded (watts : BitVec 16) : Statement (.capExceeded watts) := ⟨_, fun _ => rfl⟩
theorem thermalSensorRead (die : Fin 4) (hot : BitVec 16) (engines : List (BitVec 16)) (stage : BitVec 10) (watts : BitVec 16) : Statement (.thermalSensorRead die hot engines stage watts) := ⟨_, fun _ => rfl⟩
theorem thermalNotch (die : Fin 4) : Statement (.thermalNotch die) := ⟨_, fun _ => rfl⟩
theorem thermNRelease : Statement (.thermNRelease) := ⟨_, fun _ => rfl⟩
theorem clusterGate (who : Fin 64) (die : Fin 4) (cluster : Fin 4) : Statement (.clusterGate who die cluster) := ⟨_, fun _ => rfl⟩
theorem clusterGateComplete (die : Fin 4) (cluster : Fin 4) : Statement (.clusterGateComplete die cluster) := ⟨_, fun _ => rfl⟩
theorem clusterUngate (who : Fin 64) (die : Fin 4) (cluster : Fin 4) : Statement (.clusterUngate who die cluster) := ⟨_, fun _ => rfl⟩
theorem dieStandbyEnter (who : Fin 64) (die : Fin 4) : Statement (.dieStandbyEnter who die) := ⟨_, fun _ => rfl⟩
theorem dieStandbyExit (who : Fin 64) (die : Fin 4) (trained : List Bool) : Statement (.dieStandbyExit who die trained) := ⟨_, fun _ => rfl⟩
theorem packageStandbyEnter (who : Fin 64) : Statement (.packageStandbyEnter who) := ⟨_, fun _ => rfl⟩
theorem packageStandbyExit (who : Fin 64) (trained : List Bool) : Statement (.packageStandbyExit who trained) := ⟨_, fun _ => rfl⟩
theorem grpReplLoad (who : Fin 64) (die : Fin 4) (set : Fin 16384) : Statement (.grpReplLoad who die set) := ⟨_, fun _ => rfl⟩
theorem grpReplStore (who : Fin 64) (die : Fin 4) (set : Fin 16384) : Statement (.grpReplStore who die set) := ⟨_, fun _ => rfl⟩
theorem quoteRequest (who : Fin 64) (offset : BitVec 26) : Statement (.quoteRequest who offset) := ⟨_, fun _ => rfl⟩
theorem errorCorrelation : Statement .errorCorrelation := ⟨_, fun _ => rfl⟩
theorem retireWrite (who : Fin 64) (retired : BitVec 32) : Statement (.retireWrite who retired) := ⟨_, fun _ => rfl⟩
theorem healthEvaluation : Statement (.healthEvaluation) := ⟨_, fun _ => rfl⟩
theorem counterSweep : Statement (.counterSweep) := ⟨_, fun _ => rfl⟩
theorem sweepOnce (who : Fin 64) : Statement (.sweepOnce who) := ⟨_, fun _ => rfl⟩
theorem sysclkReturn : Statement (.sysclkReturn) := ⟨_, fun _ => rfl⟩
theorem rocev2AckReceive (m : Fin 4) (qp : Fin 64) (answer : Machine.RoceAnswer) (via : Machine.Via) : Statement (.rocev2AckReceive m qp answer via) := ⟨_, fun _ => rfl⟩
theorem neighborDiscovery (m : Fin 4) (target : Nat) (via : Machine.Via) : Statement (.neighborDiscovery m target via) := ⟨_, fun _ => rfl⟩
theorem bypassTemperatureWaitExpiry (engine : Fin 16) : Statement (.bypassTemperatureWaitExpiry engine) := ⟨_, fun _ => rfl⟩

end Sys2Proof.Laws.Admission
end

