-- ==== Sys2Proof/Laws/Power.lean ====
section
/-! SUPPORT. What the power operations leave: rails, fault bits, and what the loss of power keeps. -/

namespace Sys2Proof.Machine

/-- Every rail of every die reads what was set. -/
theorem rails_rd (s : State) (v : List Nat) (d i : Nat) (hd : d < 4) (hi : i < 8) :
    (s.rails v).rd PWR_RAIL.rail (pwrDiePage d) i = v.getD i 0 % 2 ^ 8 := by
  have key : ∀ d' < 4, ∀ i' < 8, PWR_RAIL.rail.key (pwrDiePage d) i = PWR_RAIL.rail.key (pwrDiePage d') i' → d = d' ∧ i = i' := by
    intro d' hd' i' hi'
    simp only [Fld.key, Fld.offAt, Fld.loAt, PWR_RAIL.rail, pwrDiePage, diePage]
    omega
  have inner : ∀ (l : List Nat) (_ : ∀ x ∈ l, x < 8) (d' : Nat) (_ : d' < 4) (t : State),
      (t.each l fun i s => s.wr PWR_RAIL.rail (pwrDiePage d') (v.getD i 0) i).rd PWR_RAIL.rail (pwrDiePage d) i
        = if d = d' ∧ i ∈ l then v.getD i 0 % 2 ^ 8 else t.rd PWR_RAIL.rail (pwrDiePage d) i := by
    intro l
    induction l with
    | nil => simp
    | cons x l ih =>
      intro hl d' hd' t
      rw [State.each_cons, ih (fun y hy => hl y (by simp [hy])) d' hd']
      by_cases hx : d = d' ∧ i = x
      · obtain ⟨rfl, rfl⟩ := hx
        simp [PWR_RAIL.rail]
      · rw [State.rd_wr_ne _ _ fun e => hx (key d' hd' x (hl x (by simp)) e)]
        by_cases hd2 : d = d' <;> simp_all
  have hr : ∀ x ∈ List.range 8, x < 8 := fun x h => List.mem_range.mp h
  unfold State.rails
  simp only [State.each_cons, State.each_nil]
  rw [inner _ hr 3 (by decide), inner _ hr 2 (by decide), inner _ hr 1 (by decide), inner _ hr 0 (by decide)]
  have : d = 0 ∨ d = 1 ∨ d = 2 ∨ d = 3 := by omega
  rcases this with rfl | rfl | rfl | rfl <;> simp [hi]

/-- Keys of the rail readings. -/
def isRail (k : Nat) : Prop := offOf k = PWR_RAIL.rail.off ∧ 0x8000 ≤ pageOf k % 0x4000000 ∧ pageOf k % 0x4000000 < 0x9000

theorem rails_kept (s : State) (v : List Nat) : Kept (fun k => ¬ isRail k) s (s.rails v) := by
  unfold State.rails
  refine Kept.each _ _ (fun d hd s => Kept.each _ _ (fun i hi s => Kept.wr _ _ _ _ _ ?_) _) _
  rw [List.mem_range] at hi
  simp only [isRail, not_not, pageOf, offOf, Fld.key, Fld.offAt, Fld.loAt, PWR_RAIL.rail, pwrDiePage, diePage]
  simp only [List.mem_cons, List.not_mem_nil, or_false] at hd
  omega

/-- Keys of the pages of the cross-connects. -/
def isByp (k : Nat) : Prop := 0x18000 ≤ pageOf k % 0x4000000 ∧ pageOf k % 0x4000000 < 0x1C000

theorem byp_key (f : Fld) (e : Nat) (h1 : f.off < 4096) (h2 : f.stride = 0) (h3 : f.step = 0) (h4 : f.lo < 64) : isByp (f.key (bypPage e) 0) := by
  have hr : e % 4 < 4 := Nat.mod_lt _ (by decide)
  simp only [isByp, pageOf, Fld.key, Fld.offAt, Fld.loAt, bypPage, diePage, h2, h3, Nat.zero_mul, Nat.add_zero]
  generalize e / 4 = q at *
  generalize e % 4 = r at *
  omega

theorem setSwitchQueue_regs (s : State) (e : Nat) (q : List Switching) (b : Bool) : RegKept (fun k => ¬isByp k) s (s.setSwitchQueue e q b) := by
  unfold State.setSwitchQueue
  have h : RegKept (fun k => ¬isByp k) s
      { s with byp := { s.byp with queue := if q = [] then Sparse.del s.byp.queue e else Sparse.set s.byp.queue e q } } := RegKept.of_eq rfl
  exact (h.trans (RegKept.wr _ _ _ _ _ (not_not.mpr (byp_key _ e (by decide) rfl rfl (by decide))))).trans
    (RegKept.wr _ _ _ _ _ (not_not.mpr (byp_key _ e (by decide) rfl rfl (by decide))))

theorem breakSwitching_regs (s : State) (e : Nat) : RegKept (fun k => ¬isByp k) s (s.breakSwitching e) := by
  unfold State.breakSwitching
  split
  · exact (RegKept.of_eq rfl).trans (setSwitchQueue_regs _ _ _ _)
  · exact setSwitchQueue_regs _ _ _ _

theorem settleSwitching_regs (s : State) (e : Nat) : RegKept (fun k => ¬isByp k) s (s.settleSwitching e) := by
  unfold State.settleSwitching
  split
  · exact (RegKept.of_eq rfl).trans (setSwitchQueue_regs _ _ _ _)
  · exact setSwitchQueue_regs _ _ _ _

theorem switchingEnds_regs (s : State) (b : Bool) (e : Nat) :
    RegKept (fun k => ¬isByp k) s (if b then s.breakSwitching e else s.settleSwitching e) := by
  cases b
  · exact settleSwitching_regs s e
  · exact breakSwitching_regs s e

/-- The keys of PWR_FAULT. -/
theorem fault_key (f : Fld) (hf : f ∈ faultFields) : ∃ b, b < 9 ∧ f.key pwrPkgPage 0 = (pwrPkgPage + 0x120) * 64 + b ∧ f.w = 1 := by
  simp only [faultFields, List.mem_cons, List.not_mem_nil, or_false] at hf
  rcases hf with rfl | rfl | rfl | rfl | rfl | rfl | rfl | rfl | rfl <;> exact ⟨_, by decide, rfl, rfl⟩

theorem wipe_fault (s : State) (f : Fld) (hf : f ∈ faultFields) : (s.wipe true).rd f pwrPkgPage = s.rd f pwrPkgPage := by
  obtain ⟨b, hb, hk, _⟩ := fault_key f hf
  have hc : coldKept true (f.key pwrPkgPage 0) = true := by
    rw [hk]
    have : ((pwrPkgPage + 0x120) * 64 + b) / 64 = pwrPkgPage + 0x120 := by omega
    simp [coldKept, this, PWR_FAULT.boot_mem]
  have h : (s.wipe true).regs = s.regs.filter fun e => coldKept true e.1 := rfl
  simp only [State.rd, h]
  rw [Sparse.get_filter_of _ _ (coldKept true), if_pos hc]

/-- The registers that the loss of the rails leaves. -/
theorem railsOff_rd (s : State) (b : Bool) (f : Fld) (a i : Nat) : (s.railsOff b).rd f a i
    = ((((s.each (List.range 16) fun e s => if b then s.breakSwitching e else s.settleSwitching e).wipe true).rails []).wr PWR_PKG_STATUS.pwr_ok
        pwrPkgPage 0).rd f a i :=
  State.rd_congr (by simp only [State.railsOff]) f a i

/-- PWR_FAULT outlasts the loss of the rails (R393): a fault bit reads as before. -/
theorem railsOff_fault (s : State) (b : Bool) (f : Fld) (hf : f ∈ faultFields) : (s.railsOff b).rd f pwrPkgPage = s.rd f pwrPkgPage := by
  obtain ⟨k, hb, hk, _⟩ := fault_key f hf
  have hnb : ¬isByp (f.key pwrPkgPage 0) := by
    rw [hk]
    simp only [isByp, pageOf, pwrPkgPage, pkgPage]
    omega
  have hnr : ¬isRail (f.key pwrPkgPage 0) := by
    rw [hk]
    simp only [isRail, offOf, pageOf, pwrPkgPage, pkgPage, PWR_RAIL.rail]
    omega
  have hne : f.key pwrPkgPage 0 ≠ PWR_PKG_STATUS.pwr_ok.key pwrPkgPage 0 := by
    rw [hk]
    simp only [Fld.key, Fld.offAt, Fld.loAt, PWR_PKG_STATUS.pwr_ok]
    omega
  rw [railsOff_rd, State.rd_wr_ne _ _ hne, (rails_kept _ _).rd hnr, wipe_fault _ f hf]
  exact (RegKept.each _ _ (fun e _ s => switchingEnds_regs s b e) s).rd hnb

/-- A fault whose bit is read: it is set. -/
theorem fault_same (s : State) (f : Fld) (b : Nat) (hf : f ∈ faultFields) : (s.fault f b).rd f pwrPkgPage = 1 := by
  obtain ⟨c, hc, hk, hw⟩ := fault_key f hf
  have hn : noIrq pwrPkgPage (f.key pwrPkgPage 0) := by
    rw [hk]
    simp only [noIrq, noEvent, isCtr, isEvr, isIrq, offOf, pageOf, pwrPkgPage, pkgPage]
    omega
  unfold State.fault
  dsimp only
  rw [State.iff_keeps (fun t => t.rd f pwrPkgPage) _ _ _ ((irq_kept _ _ _ (by decide)).rd hn)]
  have h1 : ∀ (t : State) (p : Power), ({ t with power := p } : State).rd f pwrPkgPage = t.rd f pwrPkgPage := fun _ _ => rfl
  rw [h1, State.rd_wr_same, hw]
  rfl

theorem railsOff_power (s : State) (b : Bool) :
    (s.railsOff b).power.pwrOk = false ∧ (s.railsOff b).power.step = 0 ∧ (s.railsOff b).power.held = false := ⟨rfl, rfl, rfl⟩

theorem railsOff_pwrOk (s : State) (b : Bool) : (s.railsOff b).rd PWR_PKG_STATUS.pwr_ok pwrPkgPage = 0 := by
  rw [railsOff_rd, State.rd_wr_same]
  rfl

theorem railsOff_rail (s : State) (b : Bool) (d i : Nat) (hd : d < 4) (hi : i < 8) : (s.railsOff b).rd PWR_RAIL.rail (pwrDiePage d) i = 0 := by
  rw [railsOff_rd, State.rd_wr_ne, rails_rd _ _ _ _ hd hi]
  · simp
  · simp only [Fld.key, Fld.offAt, Fld.loAt, PWR_PKG_STATUS.pwr_ok, PWR_RAIL.rail, pwrPkgPage, pkgPage, pwrDiePage, diePage]
    omega

theorem faulted_of (t : State) (f : Fld) (hf : f ∈ faultFields) (h : t.rd f pwrPkgPage = 1) : t.faulted = true := by
  unfold State.faulted
  rw [List.any_eq_true]
  exact ⟨f, hf, by simp [State.flag, h]⟩

theorem rails_core (s : State) (v : List Nat) : SameCore s (s.rails v) := by
  have h := rails_kept s v
  exact ⟨h.mem, h.tables, h.sw, h.coll, h.cores, h.subs⟩

theorem railsUp_rail (s : State) (d i : Nat) (hd : d < 4) (hi : i < 8) : s.railsUp.rd PWR_RAIL.rail (pwrDiePage d) i = railNominal.getD i 0 := by
  have h1 : s.railsUp.rd PWR_RAIL.rail (pwrDiePage d) i = ((s.rails railNominal).wr PWR_PKG_STATUS.pwr_ok pwrPkgPage 1).rd PWR_RAIL.rail (pwrDiePage d) i :=
    State.rd_congr (by simp only [State.railsUp]) _ _ _
  rw [h1, State.rd_wr_ne, rails_rd _ _ _ _ hd hi]
  · have : i = 0 ∨ i = 1 ∨ i = 2 ∨ i = 3 ∨ i = 4 ∨ i = 5 ∨ i = 6 ∨ i = 7 := by omega
    rcases this with rfl | rfl | rfl | rfl | rfl | rfl | rfl | rfl <;> rfl
  · simp only [Fld.key, Fld.offAt, Fld.loAt, PWR_PKG_STATUS.pwr_ok, PWR_RAIL.rail, pwrPkgPage, pkgPage, pwrDiePage, diePage]
    omega

theorem railsUp_pwrOk (s : State) : s.railsUp.rd PWR_PKG_STATUS.pwr_ok pwrPkgPage = 1 := by
  have h1 : s.railsUp.rd PWR_PKG_STATUS.pwr_ok pwrPkgPage = ((s.rails railNominal).wr PWR_PKG_STATUS.pwr_ok pwrPkgPage 1).rd PWR_PKG_STATUS.pwr_ok pwrPkgPage :=
    State.rd_congr (by simp only [State.railsUp]) _ _ _
  rw [h1, State.rd_wr_same]; rfl

theorem railsUp_core (s : State) : SameCore s s.railsUp := by
  have h := rails_core s railNominal
  constructor <;> simp only [State.railsUp, State.wr_mem, State.wr_tables, State.wr_sw, State.wr_coll, State.wr_cores, State.wr_subs]
  exacts [h.mem, h.tables, h.sw, h.coll, h.cores, h.subs]


end Sys2Proof.Machine
end

