-- ==== Sys2Proof/Laws/Time.lean ====
section
/-! SUPPORT. The time base: what a step of a counter, a change of a domain and a new mode do. -/

namespace Sys2Proof.Machine

theorem gateResync_keeps (s : State) : s.gateResync.time = s.time ∧ s.gateResync.mem = s.mem ∧ s.gateResync.tables = s.tables := by
  unfold State.gateResync
  dsimp only
  have h : ∀ (p : Nat) (t : State), Kept noCtr t t := fun _ t => Kept.refl _ t
  have a : ∀ p, schPage p % 4096 = 0 := fun p => by unfold schPage diePage; omega
  refine ⟨?_, ?_, ?_⟩
  · exact State.each_keeps State.time (fun p s => ((s.applyGates p).irq (schPage p) 7).count (schPage p) 0x80) _ (fun p _ t => by
      rw [(count_kept _ _ _ _ _ (a p)).time, (irq_kept _ _ _ (a p)).time]; rfl) s
  · exact State.each_keeps State.mem (fun p s => ((s.applyGates p).irq (schPage p) 7).count (schPage p) 0x80) _ (fun p _ t => by
      rw [(count_kept _ _ _ _ _ (a p)).mem, (irq_kept _ _ _ (a p)).mem]; rfl) s
  · exact State.each_keeps State.tables (fun p s => ((s.applyGates p).irq (schPage p) 7).count (schPage p) 0x80) _ (fun p _ t => by
      rw [(count_kept _ _ _ _ _ (a p)).tables, (irq_kept _ _ _ (a p)).tables]; rfl) s

theorem timPage_aligned (d : Nat) : timPage d % 4096 = 0 := by unfold timPage diePage; omega

theorem stepCounter_spec (s : State) (n v : Nat) (hn : n < 2) : (s.stepCounter n v).counter n = v % timeWrap
    ∧ (∀ k < 2, k ≠ n → (s.stepCounter n v).counter k = s.counter k) ∧ (n = 0 → (s.stepCounter n v).time.ppsOut = false)
    ∧ (s.stepCounter n v).mem = s.mem ∧ (s.stepCounter n v).tables = s.tables := by
  by_cases h : n = 0
  · subst h
    generalize hu : (s.setCounter 0 v).ppsStepped = u
    generalize hw : (((u.count (timPage 0) 0x80).irq (timPage 0) 6).iff (((u.count (timPage 0) 0x80).irq (timPage 0) 6).sw.gates.any fun e => e.2.enable) fun s => s.count (timPage 0) 0x84) = w
    have hx : s.stepCounter 0 v = w.gateResync := by
      unfold State.stepCounter
      dsimp only
      rw [if_neg (by simp), hu, hw]
    have hk : Kept (noIrq (timPage 0)) u w := by
      rw [← hw]
      refine Kept.trans (Kept.trans ?_ (irq_kept _ _ _ (timPage_aligned 0))) (Kept.iff _ _ ?_)
      · exact (count_kept _ _ _ _ _ (timPage_aligned 0)).mono fun _ h => h.event.ctr
      · exact (count_kept _ _ _ _ _ (timPage_aligned 0)).mono fun _ h => h.event.ctr
    obtain ⟨g1, g2, g3⟩ := gateResync_keeps w
    have ht : w.gateResync.time = u.time := g1.trans hk.time
    rw [hx]
    refine ⟨?_, ?_, ?_, ?_, ?_⟩
    · unfold State.counter; rw [ht, ← hu]; rfl
    · intro k hk2 hk0
      have : k = 1 := by omega
      subst this
      unfold State.counter; rw [ht, ← hu]; rfl
    · intro _; rw [ht, ← hu]; rfl
    · rw [g2, hk.mem, ← hu]; rfl
    · rw [g3, hk.tables, ← hu]; rfl
  · have : n = 1 := by omega
    subst this
    refine ⟨rfl, ?_, by simp, rfl, rfl⟩
    intro k hk2 hk0
    have : k = 0 := by omega
    subst this; rfl

theorem dom_setDom (s : State) (n : Nat) (d : Domain) : (s.setDom n d).dom n = d := by
  unfold State.setDom State.dom; split_ifs <;> rfl

theorem counter_setDom (s : State) (n k : Nat) (d : Domain) : (s.setDom n d).counter k = s.counter k := by
  unfold State.setDom State.counter; split_ifs <;> rfl

theorem regs_setDom (s : State) (n : Nat) (d : Domain) : (s.setDom n d).regs = s.regs := by
  unfold State.setDom; split_ifs <;> rfl

theorem rd_setDom (s : State) (n : Nat) (d : Domain) (f : Fld) (a i : Nat) : (s.setDom n d).rd f a i = s.rd f a i := State.rd_congr (regs_setDom s n d) f a i

theorem domState_congr {s t : State} (h : t.regs = s.regs) (n : Nat) : t.domState n = s.domState n := by
  unfold State.domState; simp only [State.rd_congr h]

theorem modeWrite_spec (s : State) (n mode : Nat) (hn : n < 2) (hm : mode < 4) : (domainModeWrite n mode s).domMode n = mode
   ∧ (domainModeWrite n mode s).domState n = (if mode = 0 then 3 else 0) ∧ ((domainModeWrite n mode s).dom n).lastAt = none ∧ ((domainModeWrite n mode s).dom n).lockRun = 0
   ∧ ∀ k < 2, k ≠ n → (domainModeWrite n mode s).domMode k = s.domMode k := by
  have h3 : mode % 4 = mode := Nat.mod_eq_of_lt hm
  have h4 : (if mode = 0 then 3 else 0) % 4 = if mode = 0 then 3 else 0 := by split_ifs <;> rfl
  interval_cases n
  · refine ⟨?_, ?_, rfl, rfl, ?_⟩
    · show State.rd ((State.setDom (s.wr TIM_CFG.dom0_mode (timPage 0) mode) 0 _).wr TIM_STATUS.dom0_state (timPage 0) (if mode = 0 then 3 else 0)) TIM_CFG.dom0_mode (timPage 0) 0 = _
      rw [State.rd_wr_ne _ _ (by decide), rd_setDom, State.rd_wr_same]; exact h3
    · show State.rd ((State.setDom (s.wr TIM_CFG.dom0_mode (timPage 0) mode) 0 _).wr TIM_STATUS.dom0_state (timPage 0) (if mode = 0 then 3 else 0)) TIM_STATUS.dom0_state (timPage 0) 0 = _
      rw [State.rd_wr_same]; exact h4
    · intro k hk hk0
      have : k = 1 := by omega
      subst this
      show State.rd ((State.setDom (s.wr TIM_CFG.dom0_mode (timPage 0) mode) 0 _).wr TIM_STATUS.dom0_state (timPage 0) (if mode = 0 then 3 else 0)) TIM_CFG.dom1_mode (timPage 0) 0 = _
      rw [State.rd_wr_ne _ _ (by decide), rd_setDom, State.rd_wr_ne _ _ (by decide)]; rfl
  · refine ⟨?_, ?_, rfl, rfl, ?_⟩
    · show State.rd ((State.setDom (s.wr TIM_CFG.dom1_mode (timPage 0) mode) 1 _).wr TIM_STATUS.dom1_state (timPage 0) (if mode = 0 then 3 else 0)) TIM_CFG.dom1_mode (timPage 0) 0 = _
      rw [State.rd_wr_ne _ _ (by decide), rd_setDom, State.rd_wr_same]; exact h3
    · show State.rd ((State.setDom (s.wr TIM_CFG.dom1_mode (timPage 0) mode) 1 _).wr TIM_STATUS.dom1_state (timPage 0) (if mode = 0 then 3 else 0)) TIM_STATUS.dom1_state (timPage 0) 0 = _
      rw [State.rd_wr_same]; exact h4
    · intro k hk hk0
      have : k = 0 := by omega
      subst this
      show State.rd ((State.setDom (s.wr TIM_CFG.dom1_mode (timPage 0) mode) 1 _).wr TIM_STATUS.dom1_state (timPage 0) (if mode = 0 then 3 else 0)) TIM_CFG.dom0_mode (timPage 0) 0 = _
      rw [State.rd_wr_ne _ _ (by decide), rd_setDom, State.rd_wr_ne _ _ (by decide)]; rfl

@[simp] theorem State.dom_run (s : State) (f : State → State) (n : Nat) : (s.run f).dom n = (f s.cleared).dom n := rfl
@[simp] theorem State.counter_run (s : State) (f : State → State) (n : Nat) : (s.run f).counter n = (f s.cleared).counter n := rfl
@[simp] theorem State.domState_run (s : State) (f : State → State) (n : Nat) : (s.run f).domState n = (f s.cleared).domState n := rfl
@[simp] theorem State.domMode_run (s : State) (f : State → State) (n : Nat) : (s.run f).domMode n = (f s.cleared).domMode n := rfl
@[simp] theorem State.t0Source_run (s : State) (f : State → State) : (s.run f).t0Source = (f s.cleared).t0Source := rfl

end Sys2Proof.Machine
end

