-- ==== Sys2Proof/Laws/Writes.lean ====
section
/-! SUPPORT. A write of a session: which block a page holds, and what a write that the session may make comes to: the effect that the
register's section gives it. -/

namespace Sys2Proof.Machine

/-! ### Pages and what they hold -/

theorem blk_ctlDie (d : Nat) (hd : d < 4) : blkOfPage (ctlDiePage d) = some .ctlDie := by interval_cases d <;> rfl
theorem blk_tim (d : Nat) (hd : d < 4) : blkOfPage (timPage d) = some .tim := by interval_cases d <;> rfl
theorem blk_pwrDie (d : Nat) (hd : d < 4) : blkOfPage (pwrDiePage d) = some .pwrDie := by interval_cases d <;> rfl
theorem blk_grp (d : Nat) (hd : d < 4) : blkOfPage (grpPage d) = some .grp := by interval_cases d <;> rfl
theorem blk_optEng (e : Nat) (he : e < 16) : blkOfPage (engPage e) = some .optEng := by interval_cases e <;> rfl
theorem blk_byp (e : Nat) (he : e < 16) : blkOfPage (bypPage e) = some .byp := by interval_cases e <;> rfl
theorem blk_arr (c : Nat) (hc : c < 32) : blkOfPage (arrPage c) = some .arr := by interval_cases c <;> rfl
theorem blk_vec (c : Nat) (hc : c < 32) : blkOfPage (vecPage c) = some .vec := by interval_cases c <;> rfl
theorem blk_xse (c : Nat) (hc : c < 32) : blkOfPage (xsePage c) = some .xse := by interval_cases c <;> rfl

theorem blk_optPort (p : Nat) (hp : p < 512) : blkOfPage (portPage p) = some .optPort := by
  have h1 : portPage p / 0x1000 = p / 128 * 0x4000 + (0x100 + p % 128) := by unfold portPage diePage; omega
  have h2 : (p / 128 * 0x4000 + (0x100 + p % 128)) % 0x4000 = 0x100 + p % 128 := by omega
  have h3 : p / 128 * 0x4000 + (0x100 + p % 128) < 0xF000 := by omega
  have h4 : p % 128 < 128 := by omega
  unfold blkOfPage
  dsimp only
  rw [h1, if_neg (by omega), if_neg (by omega), h2]
  generalize p % 128 = q at *
  repeat rw [if_neg (by omega)]
  rw [if_pos (by omega)]

theorem blk_schPort (p : Nat) (hp : p < 512) : blkOfPage (schPage p) = some .schPort := by
  have h1 : schPage p / 0x1000 = p / 128 * 0x4000 + (0x200 + p % 128) := by unfold schPage diePage; omega
  have h2 : (p / 128 * 0x4000 + (0x200 + p % 128)) % 0x4000 = 0x200 + p % 128 := by omega
  have h3 : p / 128 * 0x4000 + (0x200 + p % 128) < 0xF000 := by omega
  have h4 : p % 128 < 128 := by omega
  unfold blkOfPage
  dsimp only
  rw [h1, if_neg (by omega), if_neg (by omega), h2]
  generalize p % 128 = q at *
  repeat rw [if_neg (by omega)]
  rw [if_pos (by omega)]

theorem blk_ctlRing (r : Nat) (hr : r < 4096) : blkOfPage (ringPage r) = some .ctlRing := by
  have h1 : ringPage r / 0x1000 = 0xF100 + r / 32 := by unfold ringPage pkgPage; omega
  have h4 : r / 32 < 128 := by omega
  unfold blkOfPage
  dsimp only
  rw [h1]
  generalize r / 32 = q at *
  rw [if_neg (by omega), if_pos (by omega), show 0xF100 + q - 0xF000 = 0x100 + q by omega]
  repeat rw [if_neg (by omega)]
  rw [if_pos (by omega)]

theorem blk_ctlEvr (e : Nat) (he : e < 256) : blkOfPage (evrPage e) = some .ctlEvr := by
  have h1 : evrPage e / 0x1000 = 0xF010 + e / 32 := by unfold evrPage pkgPage; omega
  have h4 : e / 32 < 8 := by omega
  unfold blkOfPage
  dsimp only
  rw [h1]
  generalize e / 32 = q at *
  rw [if_neg (by omega), if_pos (by omega), show 0xF010 + q - 0xF000 = 0x010 + q by omega]
  repeat rw [if_neg (by omega)]
  rw [if_pos (by omega)]

/-! ### A write that the session may make -/

theorem State.writes.cleared {s : State} {who a off : Nat} (h : s.writes who a off) : s.cleared.writes who a off := h

/-- A write that the session may make stores in its register. -/
theorem registerWrite_stores {s : State} {who a off v : Nat} {b : Blk} (hb : blkOfPage a = some b) (ha : a % 0x1000 = 0) (h2 : off < 0x1000)
    (h3 : off % 8 = 0) (hw : s.writes who a off) : registerWrite who (a + off) v s = s.regStore who (a + off) v := by
  have h4 : (a + off) / 0x1000 * 0x1000 = a := by omega
  have h5 : (a + off) % 0x1000 = off := by omega
  have h : s.writeRefused who (a + off) = none := by simp [State.writeRefused, h4, h5, hb, hw.2]
  unfold registerWrite State.regWrite
  rw [if_pos hw.1, show (a + off) / 8 * 8 = a + off by omega, h]

/-- A register of the block of a page. -/
theorem registerWrite_blk {s : State} {who a off v : Nat} {b : Blk} (hb : blkOfPage a = some b) (ha : a % 0x1000 = 0) (h1 : 0x100 ≤ off)
    (h2 : off < 0xF00) (h3 : off % 8 = 0) (hw : s.writes who a off) :
    registerWrite who (a + off) v s = s.writeBlk who a off v b := by
  rw [registerWrite_stores hb ha (by omega) h3 hw]
  unfold State.regStore
  dsimp only
  rw [show (a + off) / 0x1000 * 0x1000 = a by omega, show (a + off) % 0x1000 = off by omega, hb]
  dsimp only
  rw [if_neg (by omega), if_neg (by omega)]

/-- A register of the header of a page. -/
theorem registerWrite_hdr {s : State} {who a off v : Nat} {b : Blk} (hb : blkOfPage a = some b) (ha : a % 0x1000 = 0) (h2 : off < 0x100)
    (h3 : off % 8 = 0) (hw : s.writes who a off) :
    registerWrite who (a + off) v s = s.writeHdr who a off v := by
  rw [registerWrite_stores hb ha (by omega) h3 hw]
  unfold State.regStore
  dsimp only
  rw [show (a + off) / 0x1000 * 0x1000 = a by omega, show (a + off) % 0x1000 = off by omega, hb]
  dsimp only
  rw [if_pos h2]

/-- A write that the session may not make is refused and counted. -/
theorem registerWrite_refused {s : State} {who a off v : Nat} {b : Blk} (hb : blkOfPage a = some b) (ha : a % 0x1000 = 0) (h2 : off < 0x1000)
    (h3 : off % 8 = 0) (hs : (s.session who).active = true) (hm : s.mayWrite who a off = false) :
    registerWrite who (a + off) v s = s.refuseAccess who true off := by
  have h4 : (a + off) / 0x1000 * 0x1000 = a := by omega
  have h5 : (a + off) % 0x1000 = off := by omega
  have h : s.writeRefused who (a + off) = some true := by simp [State.writeRefused, h4, h5, hb, hm]
  unfold registerWrite State.regWrite
  rw [if_pos hs, show (a + off) / 8 * 8 = a + off by omega, h]
  dsimp only
  rw [h5]

/-! ### Fields of a word -/

theorem bits_setBits (n lo w v : Nat) : bits (setBits n lo w v) lo w = v % 2 ^ w := by
  unfold bits setBits
  have h1 : n % 2 ^ lo < 2 ^ lo := Nat.mod_lt _ (Nat.two_pow_pos _)
  have h2 : v % 2 ^ w < 2 ^ w := Nat.mod_lt _ (Nat.two_pow_pos _)
  have h3 : n % 2 ^ lo + v % 2 ^ w * 2 ^ lo + n / 2 ^ (lo + w) * 2 ^ (lo + w)
      = n % 2 ^ lo + 2 ^ lo * (v % 2 ^ w + 2 ^ w * (n / 2 ^ (lo + w))) := by
    rw [Nat.pow_add]; ring
  rw [h3, Nat.add_mul_div_left _ _ (Nat.two_pow_pos _), Nat.div_eq_of_lt h1, Nat.zero_add, Nat.add_mul_mod_self_left, Nat.mod_eq_of_lt h2]

/-- The field that a word is made for holds its value. -/
theorem of_wordWith (s : State) (f : Fld) (a v i : Nat) : f.of (s.wordWith f a v i) i = v % 2 ^ f.w := by
  unfold Fld.of State.wordWith
  dsimp only
  exact bits_setBits _ _ _ _

/-- A word with no field beside its own in the register is that field alone. -/
theorem wordWith_alone (s : State) (f : Fld) (a v i : Nat)
    (h : ((placesAt ((a + f.offAt i) / 0x1000 * 0x1000) ((a + f.offAt i) % 0x1000)).filter fun p =>
      p.fld.acc == .rw || p.fld.acc == .rws || p.fld.acc == .rwp) = []) : s.wordWith f a v i = v % 2 ^ f.w * 2 ^ f.loAt i := by
  unfold State.wordWith
  dsimp only
  rw [h]
  simp [setBits]

/-- The places of a register of a block. -/
theorem placesAt_blk {a off : Nat} {b : Blk} (hb : blkOfPage a = some b) (h1 : 0x100 ≤ off) (h2 : off < 0xF00)
    (h3 : b ≠ .ctlRing) (h4 : b ≠ .ctlEvr) : placesAt a off = b.fields.flatMap fun f => (f.instsAt off).map fun i => ⟨f, a, i⟩ := by
  unfold placesAt blockAt
  rw [hb]
  dsimp only
  rw [if_neg (by omega), if_neg (by omega), if_neg (by simp [h3, h4])]
  simp only [Nat.add_sub_cancel_left]

/-- The places of a header register. -/
theorem placesAt_hdr {a off : Nat} {b : Blk} (hb : blkOfPage a = some b) (h2 : off < 0x100) :
    placesAt a off = Blk.hdr.fields.flatMap fun f => (f.instsAt off).map fun i => ⟨f, a, i⟩ := by
  unfold placesAt blockAt
  rw [hb]
  dsimp only
  rw [if_pos h2]
  simp only [Nat.add_sub_cancel_left]

end Sys2Proof.Machine
end

