-- ==== Sys2Proof/Tests/Slice0.lean ====
section
/-! SUPPORT. The model's own tests: an ill-formed term for each check of WellFormed, single steps on small states with results taken from
the rules, and for each obligation with hypotheses a state and operands that meet them, at the ends of their ranges. -/

namespace Sys2Proof.Tests

open Sys2Proof.Machine

set_option Elab.async false

/-! ### Small states -/

/-- A state with fields set: field, page or block, value, instance. -/
def put (s : State) (l : List (Fld × Nat × Nat × Nat)) : State := l.foldl (fun s x => s.wr x.1 x.2.1 x.2.2.1 x.2.2.2) s

/-- The first port records of a plan: two uplinks of leaf 5, a gallery port of link group 0, two bypass ports that name each other. -/
def portRecs : List PortRec := [⟨roleDown, 0, 0, 5, 0, 0, 0, 0, 0⟩, ⟨roleDown, 0, 0, 5, 1, 0, 0, 0, 0⟩, ⟨roleGallery, 0, 0, 0, 0, 0, 2, 0, 0⟩,
  ⟨roleBypass, 0, 0, 0, 0, 0, 0, 4, 0⟩, ⟨roleBypass, 0, 0, 0, 0, 0, 0, 3, 0⟩]

/-- A plan of two halls. -/
def plan : Plan := ⟨1, 0, 0, 0, 0, 1, 0, 0, portRecs⟩

/-- Power is good, four cores run, the plan is active, sessions 0 and 1 are admitted with different keys, and queue pair 0 of port 0 is
session 0's. -/
def on : State := { State.reset with
  power := { Power.off with supplied := true, step := 6, pwrOk := true }
  boot := { State.reset.boot with cores := 15, plan := some plan }
  mgmt := { Mgmt.fresh with
    sessions := [(0, ⟨true, false, true, 0, 7, [1, 2, 3, 4], 0⟩), (1, ⟨true, false, true, 0, 8, [1, 2, 3, 4], 0⟩)]
    qps := [(0, { Qp.none with mode := .ready, session := 0 })] } }

/-- Sub-port 0 of port 0 with this link state and this record. -/
def linked (v : Nat) (x : SubPort) : State := (put on [(OPT_PORT_STATE.state, portPage 0, v, 0), (OPT_PORT_CFG.sub_enable, portPage 0, 1, 0)]).setSub 0 x

/-- A descriptor of opcode `op` with D1 on, fetched for session 0. -/
def desc (op : Nat) (l : List Nat) : Descriptor := ⟨0, op * 2 ^ 52 :: l, 0, true, on.rolesWord 0, on.credential 0, false, false⟩

/-- `s` with command ring 0 session 0's and `e` its only command. -/
def withFront (s : State) (e : Descriptor) : State :=
  { put s [(CTL_RING_CFG.owner, ringBlock 0, 0, 0), (CTL_RING_CFG.enable, ringBlock 0, 1, 0)] with
    mgmt := { s.mgmt with rings := [(0, { Ring.fresh with inflight := [e] })] } }

/-- What makes a command the oldest of ring 0 and ready to run. -/
theorem met_front {s : State} {r op : Nat} {fw : Bool} {e : Descriptor} (h : (s.ring r).inflight.head? = some e ∧ e.bad = false ∧ e.opcode = op
    ∧ (s.ring r).waiting = false ∧ e.allowed = true ∧ s.boot.cores ≠ 0) : s.atFront r op fw e :=
  ⟨h.1, h.2.1, h.2.2.1, h.2.2.2.1, h.2.2.2.2.1, fun _ => h.2.2.2.2.2⟩

/-! ### Well-formed commands -/

/-- One ill-formed term for each check. -/
theorem test_ill_formed_terms_are_refused : (∀ c ∈ [Instr.coldBoot true [], .warmResetRelease [] true, .dieResetRelease 1 [], .pageSoftReset 0 1,
    .pageConfigRestore 1, .meshLaneGroupFail 0 0 0 [], .meshCrossing 2 2 .forward, .registerWrite 0 4 0, .registerWrite 0 0x10000000 0,
    .cmReq 0 (2 ^ 24) [] .plain, .pgCommitWrite 0 1 0, .pgCommitAbort 0 1, .bankSwap 1, .pgGuardWrite 0 1 0, .routeDrainQueuesEmpty 1,
    .routeDrainExpiry 4, .laserInputsReady 0 [], .calibrationDone 0 [], .linkDownDeclare 0 0, .linkDownDeclare 0 7, .berWindow 0 [] (List.replicate 4 ⟨0, 0⟩),
    .berWindow 0 [0, 0, 0, 0] [], .thermalSensorRead 0 0 [] 0 0, .dieStandbyExit 0 1 [], .packageStandbyExit 0 [],
    .neighborDiscovery 0 (2 ^ 128) .plain], c.wellFormed = false) := by decide +kernel

/-- Their neighbours are well formed. -/
theorem test_well_formed_terms_pass : (∀ c ∈ [Instr.coldBoot true (List.replicate 24 true), .pageSoftReset 0 pwrPkgPage, .meshCrossing 2 1 .forward,
    .registerWrite 0 0xFFFFFF8 0, .cmReq 0 (2 ^ 24 - 1) [] .plain, .routeDrainExpiry 3, .linkDownDeclare 0 6,
    .neighborDiscovery 0 (2 ^ 128 - 1) .plain], c.wellFormed = true) := by decide +kernel

/-- An ill-formed command stops with its fault at every state. -/
theorem test_ill_formed_command_faults (s : State) : exec (.meshCrossing 2 2 .forward) s = .fault .illFormed := rfl

/-- The table gives no row bits, so a word spells no command. -/
theorem test_no_word_spells_a_command : decodeTableWord 32 0 = none := rfl

/-- A step takes the command at the front of the queue. -/
theorem test_step_takes_the_front : step { on with pending := [.ppsOutFall, .ppsInEdge] } = exec .ppsOutFall { on with pending := [.ppsInEdge] } := rfl

/-- The clock of an idle block goes on. -/
theorem test_idle_step_ticks : ∃ t, step on = .next t ∧ t.now = 1 := ⟨_, rfl, by decide +kernel⟩

/-! ### Power (statements PowerUpRaisesPwrOk to StandbyEntersAndLeaves) -/

theorem met_PowerUpRaisesPwrOk : let s := State.reset
    (s.power.pwrOk = false ∧ s.power.lockedOff = false ∧ s.power.failures = 0 ∧ 410 ≤ (410 : BitVec 10).toNat ∧ (409 : BitVec 10).toNat < 410)
      ∧ (let s := { s with power := { s.power with failures := 1 } }
        s.power.pwrOk = false ∧ s.power.lockedOff = false ∧ s.power.failures ≠ 0) := by decide +kernel

/-- POWER_ON at 41.0 V raises PWR_OK, and at 40.9 V does not (R385). -/
theorem test_power_on_threshold : (∃ t, exec (.powerOn 410) State.reset = .next t ∧ t.power.pwrOk = true)
    ∧ ∃ t, exec (.powerOn 409) State.reset = .next t ∧ t.power.pwrOk = false := ⟨⟨_, rfl, by decide +kernel⟩, ⟨_, rfl, by decide +kernel⟩⟩

theorem met_RailsGoOffOnATrip : on.power.pwrOk = true ∧ on.power.lockedOff = false ∧ State.reset.power.pwrOk = false
    ∧ ({ on with power := { on.power with lockedOff := true } }).power.lockedOff = true := by decide +kernel

/-- The notches of the package. -/
def notches (r n a : Nat) : State := put on [(PWR_THROTTLE.array_ratio, pwrPkgPage, r, 0), (PWR_THROTTLE.cmb_notch, pwrPkgPage, n, 0),
  (PWR_THROTTLE.admission, pwrPkgPage, a, 0)]

theorem met_ThrottleMovesOneNotch :
    (∀ s ∈ [notches 16 0 8, notches 9 0 8, notches 8 23 8, notches 8 24 1, notches 8 24 0], s.power.pwrOk = true ∧ s.cap = 3000)
      ∧ (∀ s ∈ [notches 16 0 8, notches 9 0 8, notches 8 23 8, notches 8 24 1], s.atFloor = false) ∧ (notches 8 24 0).atFloor = true
      ∧ (∀ d < 4, ∀ i < 4, on.rd CLK_CMB_FREQ.mhz (clkPage d) i = on.rd CLK_CMB_FREQ.mhz (clkPage d) 0)
      ∧ (∀ s ∈ [notches 8 24 7, notches 8 1 8, notches 15 0 8], s.pkgNotch ≠ 0 ∧ (2700 : Nat) * 100 < s.cap * (100 - s.rd PWR_THROTTLE_CFG.hyst_pct pwrPkgPage)) := by
  decide +kernel

/-- A period above the cap takes CK_CMB down once the arrays are at 8/16 (R391). -/
theorem test_throttle_order : ∃ t, exec (.throttlePeriod 3001 0 480) (notches 8 3 8) = .next t
    ∧ t.rd PWR_THROTTLE.cmb_notch pwrPkgPage = 4 ∧ t.rd PWR_THROTTLE.array_ratio pwrPkgPage = 8 := ⟨_, rfl, by decide +kernel⟩

/-- Die 2 with this hot temperature. -/
def hot (d c : Nat) : State := put on [(PWR_DIE_STATUS.hot_temp, pwrDiePage d, c, 0)]

theorem met_ThermalActions : on.power.pwrOk = true ∧ ([0, 0, 0, 849] : List (BitVec 16)).length = 4
    ∧ (let c := 10 * on.rd PWR_THERM_CFG.crit_c pwrPkgPage
      let h := 10 * on.rd PWR_THERM_CFG.therm_c pwrPkgPage
      let w := 10 * on.rd PWR_THERM_CFG.warn_c pwrPkgPage
      w < h ∧ h < c ∧ c < 2 ^ 16 ∧ (hot 2 w).rd PWR_DIE_STATUS.hot_temp (pwrDiePage 2) = w
        ∧ (hot 2 (w - 1)).rd PWR_DIE_STATUS.hot_temp (pwrDiePage 2) < w ∧ (hot 2 (w - 50)).rd PWR_DIE_STATUS.hot_temp (pwrDiePage 2) + 50 ≤ w
        ∧ (hot 3 (h - 50)).rd PWR_DIE_STATUS.hot_temp (pwrDiePage 3) + 50 ≤ h
        ∧ ¬(hot 3 (h - 49)).rd PWR_DIE_STATUS.hot_temp (pwrDiePage 3) + 50 ≤ h) := by decide +kernel

theorem met_ClustersGateAndReturn : on.writes 0 (pwrDiePage 3) 0x100 ∧ (put on [(PWR_DIE_CTRL.gate_mask, pwrDiePage 3, 8, 0)]).gateAsked 3 3 = true
    ∧ (put on [(PWR_DIE_CTRL.gate_mask, pwrDiePage 3, 8, 0)]).mayGate 3 3 = true
    ∧ on.gateAsked 3 3 = false ∧ { on with power := { on.power with held := true } }.mayGate 3 3 = false
    ∧ (∀ k < 4, on.rd PWR_DIE_STATUS.state (pwrDiePage k) ≠ 1) ∧ on.rd PWR_DIE_STATUS.state (pwrDiePage 3) = 0
    ∧ on.flag PWR_PKG_CTRL.standby_req pwrPkgPage = false ∧ bit ((put on [(PWR_DIE_STATUS.gated, pwrDiePage 3, 8, 0)]).rd PWR_DIE_STATUS.gated (pwrDiePage 3)) 3 = true := by
  unfold State.writes; decide +kernel

theorem met_StandbyEntersAndLeaves : on.writes 0 (pwrDiePage 0) 0x100 ∧ on.writes 0 (pwrDiePage 3) 0x100
    ∧ on.flag PWR_DIE_CTRL.standby_req (pwrDiePage 3) = false ∧ on.rd PWR_DIE_STATUS.state (pwrDiePage 3) = 0
    ∧ on.writes 0 pwrPkgPage 0x130 ∧ on.flag PWR_PKG_CTRL.standby_req pwrPkgPage = false
    ∧ (let s := put on [(PWR_DIE_CTRL.standby_req, pwrDiePage 3, 1, 0), (PWR_DIE_STATUS.state, pwrDiePage 3, 2, 0)]
      s.writes 0 (pwrDiePage 3) 0x100 ∧ s.flag PWR_DIE_CTRL.standby_req (pwrDiePage 3) = true ∧ s.rd PWR_DIE_STATUS.state (pwrDiePage 3) = 2
        ∧ s.flag PWR_PKG_CTRL.standby_req pwrPkgPage = false)
    ∧ (let s := put on [(PWR_PKG_CTRL.standby_req, pwrPkgPage, 1, 0), (PWR_PKG_STATUS.pkg_standby, pwrPkgPage, 1, 0)]
      s.writes 0 pwrPkgPage 0x130 ∧ s.flag PWR_PKG_CTRL.standby_req pwrPkgPage = true ∧ s.pkgStandbyLeft = true
        ∧ (put s [(PWR_DIE_STATUS.state, pwrDiePage 3, 2, 0)]).rd PWR_DIE_STATUS.state (pwrDiePage 3) ≠ 0
        ∧ s.flag PWR_DIE_CTRL.standby_req (pwrDiePage 3) = false ∧ s.flag MGT_PORT_STATUS.link_up (mgtPage 3) = false) := by
  unfold State.writes; decide +kernel

/-! ### Optics (statements PortBringUpSteps to EnginesComeUp) -/

/-- A state with engine 0 READY and its laser inputs good. -/
def served (s : State) : State := put s [(CLK_REF_STATUS.serdes_ref_present, clkPage 0, 1, 0), (OPT_ENG_STATUS.cal_state, engPage 0, calReady, 0),
  (OPT_ENG_STATUS.laser_ok, engPage 0, 255, 0)]

/-- A sub-port that sends idle and receives. -/
def lit : SubPort := { SubPort.fresh with tx := .idle, rxValid := true }

theorem met_PortBringUpSteps : (served (linked psTxOn SubPort.fresh)).linkState 0 = psTxOn ∧ (served (linked psTxOn SubPort.fresh)).wanted 0 = true
    ∧ (served (linked psTxOn SubPort.fresh)).engineServes 0 = true ∧ (linked psTxOn SubPort.fresh).engineServes 0 = false
    ∧ (linked psRxLock lit).linkState 0 = psRxLock ∧ (linked psPcsLock lit).linkState 0 = psPcsLock ∧ on.rd OPT_BER_CFG.fault (portPage 0) ≠ 0
    ∧ (let s := linked psUpHold lit
      s.linkState 0 = psUpHold ∧ (s.sub 0).rxFault = .none ∧ s.rd OPT_PORT_CFG.loopback (portPage 0) = 0 ∧ s.wanted 0 = true) := by decide +kernel

/-- Hold-up ends with the sub-port UP and UNACCEPTED (R86). -/
theorem test_hold_up_ends_up : ∃ t, exec (.linkHoldUpExpiry 0) (linked psUpHold lit) = .next t ∧ t.isUp 0 = true ∧ (t.sub 0).disc = .unaccepted :=
  ⟨_, rfl, by decide +kernel⟩

theorem met_LinkLossAndReceivedFaults : (linked psUp lit).isUp 0 = true
    ∧ ((linked psUp { lit with rxFault := .remoteFault }).sub 0).rxFault = .remoteFault
    ∧ ((linked psUp { lit with rxFault := .localFault }).sub 0).rxFault = .localFault
    ∧ ((linked psUp lit).sub 0).rxValid = true ∧ ((linked psUp lit).sub 0).rxFault ≠ .localFault
    ∧ (linked psPcsLock lit).linkState 0 = psPcsLock ∧ (linked psUpHold lit).linkState 0 = psUpHold ∧ (linked psRxLock lit).isUp 0 = false
    ∧ (0 = 4 * 0 + laneSub ((linked psUp lit).portRec 0).breakout 0)
    ∧ (linked psUp lit).rd OPT_BER_CFG.fault (portPage 0) ≤ (0xFFFFFFFF : BitVec 32).toNat := by decide +kernel

theorem met_PortTransmitChanges : on.writes 0 (portPage 511) 0x100 ∧ on.flag OPT_PORT_CFG.sleep (portPage 511) = false
    ∧ (put on [(OPT_PORT_CFG.sleep, portPage 511, 1, 0)]).writes 0 (portPage 511) 0x100
    ∧ (put on [(OPT_PORT_CFG.sleep, portPage 511, 1, 0)]).flag OPT_PORT_CFG.sleep (portPage 511) = true
    ∧ (∀ x ∈ [AfterDark.stay, .restart, .rejoin], let s := put (linked psFaultTx { lit with tx := .localFault, after := x }) [(PG_STATUS.ready, portPage 0, 1, 0)]
      s.linkState 0 = psFaultTx ∧ (s.sub 0).after = x ∧ s.flag PG_STATUS.ready (portPage 0) = true ∧ s.dieHeld 0 = false ∧ s.closing 0 = false
        ∧ s.wanted 0 = true ∧ s.linkState 1 ≠ psFaultTx ∧ s.linkState 2 ≠ psFaultTx ∧ s.linkState 3 ≠ psFaultTx)
    ∧ (put (linked psFaultTx { lit with after := .rejoin }) [(OPT_PORT_STATE.state, portPage 0, psFaultTx, 3)]).linkState 3 = psFaultTx
    ∧ (linked psFaultTx lit).flag PG_STATUS.ready (portPage 1) = false
    ∧ (let s := { linked psFaultTx { lit with tx := .localFault } with byp := { on.byp with draining := [(0, ⟨plan.port 0, true⟩)] } }
      s.linkState 0 = psFaultTx ∧ s.closing 0 = true ∧ s.dieHeld 0 = false ∧ s.linkState 1 ≠ psFaultTx ∧ s.linkState 2 ≠ psFaultTx ∧ s.linkState 3 ≠ psFaultTx)
    ∧ (on.sub 0).tx = .dark ∧ (linked psUp lit).wanted 0 = true ∧ ((linked psUp lit).sub 0).tx ≠ .dark := by
  unfold State.writes; decide +kernel

/-- The module of engine 0. -/
def moduled (x : Module) : State := on.setModule 0 x

theorem met_LaserModulesComeAndGo : on.engineAlive 12 = true ∧ (∃ b ∈ ([3] : List (BitVec 8)), b.toNat = 3) ∧ (on.module 15).associated = false
    ∧ ((moduled { Module.absent with associated := true, failed := 1 }).module 0).associated = true
    ∧ ((moduled { Module.absent with associated := true, failed := 1 }).module 0).failed < 2
    ∧ 2 ≤ ((moduled { Module.absent with associated := true, failed := 2 }).module 0).failed
    ∧ (3 : BitVec 8).toNat = (15 : Fin 16).val % 4 ∧ on.engineAlive 15 = true ∧ 4 ≤ (4 : BitVec 8).toNat ∧ State.reset.engineAlive 12 = false
    ∧ ((moduled { Module.absent with associated := true }).module 0).associated = true ∧ on.module 1 = Module.absent
    ∧ (moduled { Module.absent with associated := true }).rd OPT_ENG_STATUS.lsm_fault (engPage 0) ≠ (1 : BitVec 8).toNat := by decide +kernel

theorem met_LaserInputsGateTheirPorts : (let n := on.rd OPT_LSM_CFG.laser_low_dbm (engPage 15)
      (BitVec.ofNat 8 (n - 1)).toNat < n ∧ n ≤ (BitVec.ofNat 8 n).toNat) ∧ bit (on.rd OPT_ENG_STATUS.lsm_fault (engPage 15)) 7 = false
    ∧ (linked psWaitEngine SubPort.fresh).linkState 0 = psWaitEngine := by decide +kernel

theorem met_EnginesComeUp : (let s := put on [(CLK_REF_STATUS.serdes_ref_present, clkPage 3, 1, 0)]
      s.engineAlive 15 = true ∧ s.flag CLK_REF_STATUS.serdes_ref_present (clkPage 3) = true ∧ s.calState 15 = calIdle)
    ∧ (let s := put (moduled { Module.absent with associated := true, coeffs := true, outEn := on.rd OPT_ENG_CTRL.laser_enable (engPage 0) }) [(CLK_REF_STATUS.serdes_ref_present, clkPage 0, 1, 0)]
      s.calState 0 = calIdle ∧ (s.module 0).coeffs = true ∧ (s.module 0).outEn = s.rd OPT_ENG_CTRL.laser_enable (engPage 0) ∧ (s.module 0).associated = true
        ∧ (put s [(OPT_ENG_CTRL.laser_enable, engPage 0, 1, 0)]).rd OPT_ENG_CTRL.laser_enable (engPage 0) ≠ (s.module 0).outEn)
    ∧ on.calState 15 < calCalibrating ∧ on.writes 0 (engPage 15) 0x108
    ∧ (let s := put on [(OPT_ENG_STATUS.cal_state, engPage 15, calLaserWait, 0)]
      s.calState 15 = calLaserWait ∧ s.flag PWR_PKG_CTRL.standby_req pwrPkgPage = false ∧ (List.replicate 8 (255 : BitVec 8)).length = 8
        ∧ (∀ k, k < 8 → bit (s.rd OPT_ENG_CTRL.laser_enable (engPage 15)) k = true →
            s.rd OPT_LSM_CFG.laser_low_dbm (engPage 15) ≤ ((List.replicate 8 (255 : BitVec 8)).getD k 0).toNat))
    ∧ (let s := put on [(OPT_ENG_STATUS.cal_state, engPage 15, calCalibrating, 0)]
      s.calState 15 = calCalibrating ∧ s.writes 0 (engPage 15) 0x108 ∧ calCalibrating ≤ s.calState 15) := by
  unfold State.writes; decide +kernel

/-! ### Time (statements ReferenceClocksComeAndGo to PpsEdgesAndStampQueues) -/

theorem met_ReferenceClocksComeAndGo : on.flag CLK_REF_STATUS.sysclk_present (clkPage 0) = true
    ∧ (put on [(CLK_REF_STATUS.sysclk_present, clkPage 0, 0, 0)]).flag CLK_REF_STATUS.sysclk_present (clkPage 0) = false
    ∧ (put on [(CLK_REF_STATUS.serdes_ref_present, clkPage 3, 1, 0)]).flag CLK_REF_STATUS.serdes_ref_present (clkPage 3) = true
    ∧ on.flag CLK_REF_STATUS.serdes_ref_present (clkPage 3) = false ∧ on.dieHeld 3 = false ∧ on.rd PWR_DIE_STATUS.state (pwrDiePage 3) ≠ 2 ∧ on.time.refApplied = false
    ∧ on.power.pwrOk = true ∧ (put on [(CTL_DIE_STATE.state, ctlDiePage 3, 2, 0)]).dieHeld 3 = true
    ∧ (put on [(CTL_DIE_STATE.state, ctlDiePage 3, 2, 0)]).flag CLK_REF_STATUS.serdes_ref_present (clkPage 3) = false
    ∧ ({ on with time := { on.time with refApplied := true } }).time.refApplied = true := by decide +kernel

theorem met_CountersAreSetAndAdded : on.writes 0 (timPage 0) TIM_SET_CTRL.op.off ∧ (put on [(TIM_SET_NS.negative, timPage 0, 1, 0)]).flag TIM_SET_NS.negative (timPage 0) = true
    ∧ on.ppsSecond = some 0 ∧ (0 : Int) * 1000000000 ≤ on.ppsTime := by
  unfold State.writes; decide +kernel

/-- A negative addition wraps below zero (R369). -/
theorem test_tim_add_wraps : ∃ t, exec (.timAdd 0 1) (put on [(TIM_SET_NS.negative, timPage 0, 1, 0), (TIM_SET_NS.nanoseconds, timPage 0, 1, 0)]) = .next t
    ∧ t.counter 1 = timeWrap - 2 ^ 32 ∧ t.counter 0 = 0 := ⟨_, rfl, by decide +kernel⟩

/-- Domain 1 in GPTP mode and state `v`. -/
def gptp (v : Nat) : State := put on [(TIM_CFG.dom1_mode, timPage 0, 1, 0), (TIM_STATUS.dom1_state, timPage 0, v, 0)]

theorem met_OffsetsFeedTheServo : (∀ v ∈ [0, 1, 2], (gptp v).writes 0 (timPage 0) (TIM_OFFSET.offset.off + 8 * 1) ∧ (gptp v).domMode 1 = 1 ∧ (gptp v).domState 1 = v)
    ∧ (∀ v ∈ [2, 3], let s := put on [(TIM_STATUS.t0_source, timPage 0, v, 0), (TIM_CFG.dom0_mode, timPage 0, 1, 0), (TIM_STATUS.dom0_state, timPage 0, 0, 0)]
      s.t0Source = v ∧ s.domMode 0 = 1 ∧ s.domState 0 = 0 ∧ s.writes 0 (timPage 0) (TIM_OFFSET.offset.off + 8 * 0))
    ∧ (let n := (gptp 0).rd TIM_SERVO_CFG.step_ns (timPage 0) 1 * 65536
      n ≤ (sgn 64 (BitVec.ofNat 64 n).toNat).natAbs ∧ (sgn 64 (BitVec.ofNat 64 (n - 1)).toNat).natAbs < n)
    ∧ on.writes 0 (timPage 0) (TIM_OFFSET.offset.off + 8 * 0) ∧ on.domMode 0 = 0 ∧ on.writes 0 (timPage 0) TIM_CFG.gptp_enable.off
    ∧ on.domMode 0 ≠ 2 ∧ on.domMode 1 < 3 ∧ (put on [(TIM_CFG.dom0_mode, timPage 0, 2, 0)]).domMode 0 = 2 := by unfold State.writes; decide +kernel

/-- Domain 0 locked, its last offset at time 0. -/
def locked : State := { put on [(TIM_CFG.dom0_mode, timPage 0, 1, 0), (TIM_STATUS.dom0_state, timPage 0, 1, 0)] with
  time := { on.time with dom0 := { Domain.fresh with lastAt := some 0 } } }

theorem met_LivenessMovesTheSourceOfT0 : (locked.t0Source = 0 ∧ locked.domState 0 = 1 ∧ locked.live 0 = true)
    ∧ (let s := { locked with now := locked.rd TIM_SWITCH_CFG.timeout_ms (timPage 0) * 1000000 }
      s.t0Source = 0 ∧ s.domState 0 = 1 ∧ s.live 0 = false)
    ∧ (∀ v < 4, (put locked [(TIM_STATUS.t0_source, timPage 0, v, 0)]).t0Source = v)
    ∧ (let s := { put locked [(TIM_STATUS.dom0_state, timPage 0, 2, 0)] with time := { locked.time with dom0 := { locked.time.dom0 with succRun := 8 } } }
      s.domState 0 = 2 ∧ (s.dom 0).succRun = 8 ∧ (s.setDomState 0 1).live 0 = true) := by decide +kernel

/-- A LOST domain 0 with eight offsets in succession is LOCKED again, and T0 leaves HOLDOVER for RETURNING (R375, R376). -/
theorem test_holdover_returns : ∃ t, exec .livenessCheck { put locked [(TIM_STATUS.t0_source, timPage 0, 2, 0), (TIM_STATUS.dom0_state, timPage 0, 2, 0)] with
      time := { locked.time with dom0 := { locked.time.dom0 with succRun := 8 } } } = .next t
    ∧ t.domState 0 = 1 ∧ t.t0Source = 3 := ⟨_, rfl, by decide +kernel⟩

/-- A Pdelay_Req message of domain 0, 34 bytes long. -/
def pdelay : List Byte := [0x12, 0x02, 0, 34, 0] ++ List.replicate 29 0

/-- A sub-port that is UP, accepted and two-way. -/
def good : SubPort := { lit with disc := .accepted, twoWay := true }

/-- Port 2 is a banister port with ring queues of `n` treads, and its sub-port 0 is good. -/
def onRing (n : Nat) : State :=
  let s := (put on [(TIM_CFG.gptp_enable, timPage 0, 1, 0), (OPT_PORT_STATE.state, portPage 2, psUp, 0)]).setSub 8 good
  { s with tables := { s.tables with up := [(7 * 128, 2 ^ 63 + 64 * 2 ^ 16 + 2)] }, sw := { s.sw with ringTreads := [(0, n)] } }

/-- A state whose FORWARD pool of die 0 has no tread free. -/
def full (s : State) : State := put s [(BUF_POOL_USE1.forward_used, bufPage 0, 2 ^ 20 - 1, 0)]

theorem met_PpsEdgesAndStampQueues : (put on [(CLK_REF_STATUS.pps_in_present, clkPage 0, 1, 0)]).flag CLK_REF_STATUS.pps_in_present (clkPage 0) = true
    ∧ (put on [(TIM_PPS_CFG.out_enable, timPage 0, 1, 0)]).flag TIM_PPS_CFG.out_enable (timPage 0) = true
    ∧ on.ppsSecond = some 0 ∧ on.time.ppsLast ≠ some 0 ∧ { on with time := { on.time with t0 := 6 * nsUnit } }.ppsSecond = none
    ∧ { on with time := { on.time with ppsLast := some 0 } }.time.ppsLast = on.ppsSecond
    ∧ on.now < on.time.ppsRise + on.rd TIM_PPS_CFG.width_ns (timPage 0)
    ∧ (let s := { on with now := on.rd TIM_PPS_CFG.width_ns (timPage 0) }
      s.time.ppsRise + s.rd TIM_PPS_CFG.width_ns (timPage 0) ≤ s.now)
    ∧ on.writes 0 (timPage 3) TIM_TXQ_SEL.pop.off
    ∧ (let s := put (linked psUp good) [(TIM_CFG.gptp_enable, timPage 0, 1, 0)]
      s.flag TIM_CFG.gptp_enable (timPage 0) = true ∧ s.isUp 0 = true ∧ (s.sub 0).twoWay = true ∧ s.boot.cores ≠ 0 ∧ s.ptpOk pdelay = true
        ∧ treadsOf (wireLen (ipFrame ptpGroup (s.fabricAddr (s.ownFea 0)) 6 255 17 (udpHdr 319 34 ++ pdelay))) ≤ s.poolFree 0 .forward
        ∧ s.ringOut 0 = false ∧ ¬1 ≤ (full s).poolFree 0 .forward)
    ∧ (∀ n ∈ [71, 72], let s := onRing n
      s.flag TIM_CFG.gptp_enable (timPage 0) = true ∧ s.isUp 8 = true ∧ (s.sub 8).twoWay = true ∧ s.boot.cores ≠ 0 ∧ s.ptpOk pdelay = true
        ∧ s.ringOut 8 = true ∧ 1 ≤ s.poolFree 0 .forward ∧ (s.ringRoom 8 pdelay false ↔ n = 72))
    ∧ on.flag CLK_REF_STATUS.pps_in_present (clkPage 0) = false ∧ on.flag TIM_PPS_CFG.out_enable (timPage 0) = false := by
  unfold State.writes State.ringRoom; decide +kernel

/-! ### Resets and boot (statements ColdBootReachesItsStage to MeshLaneGroupsFail, DieResetRefusalsRecordTheirCause) -/

/-- Power is good and boot has not begun. -/
def cold : State := { State.reset with power := on.power }

theorem met_ColdBootReachesItsStage : ¬on.rd BOOT_STATUS.stage bootPage ≠ 0 ∧ State.reset.power.pwrOk = false ∧ cold.power.pwrOk = true ∧ cold.rd BOOT_STATUS.stage bootPage = 0 ∧ cold.boot.warm = false
    ∧ (List.replicate 24 true).length = 24 ∧ (∀ i, i < 6 → (List.replicate 24 true).getD i true = true)
    ∧ ¬(∀ i, i < 6 → (List.replicate 5 true ++ List.replicate 19 false).getD i true = true)
    ∧ cold.boot.fwA.accepted 0 = true ∧ cold.boot.fwA.accepted 1 = false ∧ cold.boot.fwB.accepted 0 = false := by decide +kernel

theorem met_WarmResetsBeginAndEnd : (let s := put on [(BOOT_STATUS.stage, bootPage, 5, 0)]
      s.power.pwrOk = true ∧ s.boot.warm = false ∧ s.rd BOOT_STATUS.stage bootPage ≠ 0 ∧ s.warmRunning = false ∧ s.writes 0 (ctlDiePage 0) 0x100)
    ∧ (put on [(BOOT_STATUS.stage, bootPage, 5, 0), (BOOT_STATUS.reset_cause, bootPage, 1, 0)]).warmRunning = true
    ∧ { on with boot := { on.boot with warm := true } }.boot.warm = true := by unfold State.writes; decide +kernel

/-- Die 3 in this reset state and this standby state. -/
def dieIn (r p : Nat) : State := put on [(CTL_DIE_STATE.state, ctlDiePage 3, r, 0), (PWR_DIE_STATUS.state, pwrDiePage 3, p, 0)]

theorem met_DieResetsBeginAndEnd : on.writes 0 (ctlDiePage 0) 0x100 ∧ (dieIn 0 1).writes 0 (ctlDiePage 3) 0x100
    ∧ (dieIn 0 1).rd PWR_DIE_STATUS.state (pwrDiePage 3) ≠ 0 ∧ (dieIn 0 0).writes 0 (ctlDiePage 3) 0x100 ∧ (dieIn 0 0).rd PWR_DIE_STATUS.state (pwrDiePage 3) = 0
    ∧ (dieIn 0 0).rd CTL_DIE_STATE.state (ctlDiePage 3) = 0 ∧ (dieIn 2 0).rd CTL_DIE_STATE.state (ctlDiePage 3) = 2 ∧ (dieIn 2 0).boot.warm = false
    ∧ (dieIn 2 0).writes 0 (ctlDiePage 3) 0x100 ∧ (dieIn 2 0).rd PWR_DIE_STATUS.state (pwrDiePage 3) = 0
    ∧ (dieIn 0 0).flag PG_ERR_FIRST.valid (ctlDiePage 3) = false := by unfold State.writes; decide +kernel

theorem met_DieResetRefusalsRecordTheirCause : on.writes 0 (ctlDiePage 0) 0x100 ∧ (dieIn 0 3).writes 0 (ctlDiePage 3) 0x100
    ∧ (dieIn 0 3).rd PWR_DIE_STATUS.state (pwrDiePage 3) ≠ 0 := by unfold State.writes; decide +kernel

/-- DIE0_RESET is latched with the session that asked (R398). -/
theorem test_die0_reset_refused : ∃ t, exec (.dieReset 1 0) on = .next t ∧ t.rd PG_ERR_FIRST.code (ctlDiePage 0) = 0x000B
    ∧ t.rd PG_ERR_FIRST.session (ctlDiePage 0) = 1 ∧ t.rd CTL_DIE_STATE.state (ctlDiePage 0) = 0 := ⟨_, rfl, by decide +kernel⟩

theorem met_PageResetsAndTheirRestore : isPage pwrPkgPage = true ∧ on.writes 0 pwrPkgPage PG_CTRL.soft_reset.off
    ∧ on.writes 0 (portPage 511) PG_CTRL.soft_reset.off ∧ on.flag PG_STATUS.ready pwrPkgPage = false ∧ on.boot.cores ≠ 0
    ∧ Sparse.sorted on.boot.copy.fields = true ∧ (put on [(PG_STATUS.ready, pwrPkgPage, 1, 0)]).flag PG_STATUS.ready pwrPkgPage = true := by unfold State.writes; decide +kernel

theorem met_MeshLaneGroupsFail : bit (on.rd MSH_LINK.rx_failed (mshPage 3) 2) 7 = false ∧ ([0, 0, 0, 0] : List Nat).length = 4
    ∧ bit ((put on [(MSH_LINK.rx_failed, mshPage 3, 1, 2)]).rd MSH_LINK.rx_failed (mshPage 3) 2) 7 = false
    ∧ bit ((put on [(MSH_LINK.rx_failed, mshPage 3, 128, 2)]).rd MSH_LINK.rx_failed (mshPage 3) 2) 7 = true := by decide +kernel

/-- The first failed lane group takes the spare: the rate stays (R37). -/
theorem test_first_lane_group_takes_the_spare : ∃ t, exec (.meshLaneGroupFail 0 0 7 [0, 0, 0, 0]) on = .next t
    ∧ t.rd MSH_LINK.rx_failed (mshPage 0) 0 = 128 ∧ t.rd MSH_LINK.rx_tbps (mshPage 0) 0 = 112 := ⟨_, rfl, by decide +kernel⟩

/-! ### Management (statements RdmaAccessesReachMemoryAndRegisters to GuardsAreTakenAndCommitsSwapTheBanks) -/

/-- Port 0's link is up, ring 0 is session 0's, and queue pair 0 of port 0 is `x`. -/
def linkUp (x : Qp) : State := (put on [(MGT_PORT_STATUS.link_up, mgtPage 0, 1, 0), (CTL_RING_CFG.owner, ringBlock 0, 0, 0)]).setQp 0 0 x

/-- Session 0's queue pair, ready. -/
def ready : Qp := { Qp.none with mode := .ready, session := 0 }

/-- Port 0's MACsec is live under policy REQUIRED, packet number `n` expected next. -/
def secured (n : Nat) : State := let s := put (linkUp ready) [(MGT_MACSEC_CFG.policy, mgtPage 0, 1, 0), (MGT_MACSEC_CFG.replay_window, mgtPage 0, 0, 0), (MGT_MACSEC_STATUS.mka_live, mgtPage 0, 1, 0)]
  { s with mgmt := { s.mgmt with nextPn := [(0, n)] } }

theorem met_RdmaAccessesReachMemoryAndRegisters : let s := linkUp ready
    s.hears 0 .plain ∧ ({ s with mgmt := { s.mgmt with relayed := [[]] } }).hears 0 .relayed ∧ ¬s.hears 0 .relayed ∧ ¬s.hears 1 .plain
      ∧ (secured 4).hears 0 (.secured 5) ∧ ¬(secured 4).hears 0 .plain ∧ ¬(secured 4).hears 0 (.secured 3)
      ∧ (s.qp 0 0).mode = .ready ∧ Memory.wf s.mem = true
      ∧ (regionOf 0x1003FFFF8 8 = some .rings ∧ s.rkeyOk 0 .rings 2 = true ∧ s.ownsRings 0 0x1003FFFF8 8 = true)
      ∧ (regionOf 0x803FFFFF8 8 = some .staging ∧ s.rkeyOk 0 .staging 3 = true ∧ ownStaging 0 0x803FFFFF8 8 = true)
      ∧ (regionOf 0x100400000 8 = some .rings ∧ s.ownsRings 0 0x100400000 8 = false)
      ∧ (regionOf 0x804000000 8 = some .staging ∧ ownStaging 0 0x804000000 8 = false)
      ∧ (regionOf pwrPkgPage 8 = some .pages ∧ s.rkeyOk 0 .pages 1 = true ∧ pageAccessOk pwrPkgPage 8 = true ∧ s.mayRead 0 pwrPkgPage 0 = true)
      ∧ (regionOf 0x500000000 8 = none ∧ regionOf 0xC00000000 8 = some .telemetry) ∧ pageAccessOk (pwrPkgPage + 4) 8 = false
      ∧ s.mayRead 0 (ctlDiePage 0) 0 = true := by unfold State.hears; decide +kernel

theorem met_unprotected_frames : ¬(secured 4).unheard 0 0 .plain ∧ (let s := (secured 4).setQp 0 0 { ready with plain := true }
    s.unheard 0 0 .plain ∧ ¬s.hears 0 .plain ∧ Sparse.sorted s.mgmt.qps = true) ∧ ¬((linkUp ready).unheard 0 0 .plain) := by
  unfold State.hears State.unheard; decide +kernel

/-- A write to the own staging window is acknowledged and read back. -/
theorem test_rdma_write_staging : ∃ t, exec (.rdmaWrite 0 0 3 0x803FFFFFF [0xAB] .plain) (linkUp ready) = .next t ∧ t.out = [.ack 0 0]
    ∧ Memory.read t.mem 0x803FFFFFF = 0xAB ∧ Memory.wf t.mem = true := ⟨_, rfl, by decide +kernel⟩

/-- A request that waits for its answer. -/
def sent : Request := ⟨false, 5, 0x1000, [1]⟩

theorem met_HostAnswersAndErrorsOfQueuePairs : Sparse.sorted (linkUp ready).mgmt.qps = true
    ∧ (∀ x ∈ [{ ready with unacked := [sent], retries := 6, rnrRetries := 6, rnrWait := true },
        { ready with unacked := [sent], retries := 7, rnrRetries := 7, rnrWait := true }],
      let s := linkUp x
      s.hears 0 .plain ∧ (s.qp 0 0).mode = .ready ∧ (s.qp 0 0).unacked ≠ [] ∧ (s.qp 0 0).rnrWait = true)
    ∧ (let s := linkUp ready
      (s.qp 0 0).mode = .ready ∧ (s.qp 0 0).unacked = [] ∧ (s.qp 0 0).rnrWait = false ∧ (s.qp 0 1).mode ≠ .ready) := by
  unfold State.hears; decide +kernel

/-- The seventh retry repeats, the eighth ends the queue pair (R49). -/
theorem test_ack_timeout_bound : (∃ t, exec (.localAckTimeout 0 0) (linkUp { ready with unacked := [sent], retries := 6 }) = .next t
      ∧ t.out = [.rdmaWrite 0 0 5 0x1000 [1]] ∧ (t.qp 0 0).retries = 7)
    ∧ ∃ t, exec (.localAckTimeout 0 0) (linkUp { ready with unacked := [sent], retries := 7 }) = .next t ∧ (t.qp 0 0).mode ≠ .ready :=
  ⟨⟨_, rfl, by decide +kernel⟩, ⟨_, rfl, by decide +kernel⟩⟩

/-- Private data of a REQ: magic, credential, session asked, key. -/
def reqData (slot n key : Nat) : List Byte := natLe 4 0x57584144 ++ natLe 1 slot ++ natLe 1 n ++ List.replicate 18 0 ++ natBe 64 key

/-- The identity key is present. -/
def keyed : State := put (linkUp ready) [(SEC_STATE.identity_ok, secPage, 1, 0)]

theorem met_SessionsAreAdmittedAndEnd : (keyed.hears 0 .plain ∧ ¬keyed.hears 1 .plain ∧ keyed.recentFails 0 < 16)
    ∧ (leAt (reqData 0xFF 0xFF 9) 0 4 = 0x57584144 ∧ keyed.flag SEC_STATE.identity_ok secPage = true ∧ keyed.owned = false
      ∧ leAt (reqData 0xFF 0xFF 9) 4 1 = 0xFF ∧ leAt (reqData 0xFF 0xFF 9) 5 1 = 0xFF ∧ keyed.freeSession = some 2 ∧ keyed.freeQp 0 = some 1)
    ∧ (leAt (reqData 0xFF 0 7) 5 1 = 0 ∧ (keyed.session 0).active = true ∧ (keyed.qpsOf 0).length < 16
      ∧ sameCred (keyed.session 0).ephemeral (keyed.credOf 0) (!keyed.owned) (beAt (reqData 0xFF 0 7) 24 64) = true)
    ∧ (leAt (reqData 0xFF 64 7) 5 1 ≠ 0xFF ∧ 64 ≤ leAt (reqData 0xFF 64 7) 5 1) ∧ leAt [] 0 4 ≠ 0x57584144
    ∧ { keyed with mgmt := { keyed.mgmt with failTimes := [(0, List.replicate 16 0)] } }.recentFails 0 = 16
    ∧ ((linkUp { ready with mode := .connecting }).qp 0 0).mode = .connecting
    ∧ (keyed.session 0).ephemeral ≠ keyed.owned
    ∧ ((linkUp ready).qp 0 0).mode ≠ .connecting ∧ (on.session 0).active = true
    ∧ (put on [(CTL_RING_CFG.owner, ringBlock 63, 0, 0)]).rd CTL_RING_CFG.owner (ringBlock (64 * 0 + 63)) = 0
    ∧ (on.session 63).active = false ∧ (on.session 63).reserved = false ∧ on.boot.cores ≠ 0 := by unfold State.hears; decide +kernel

/-- A REQ for a new session is answered REP and takes session 2 (R427). -/
theorem test_cm_req_admits : ∃ t, exec (.cmReq 0 77 (reqData 0xFF 0xFF 9) .plain) keyed = .next t ∧ (t.session 2).reserved = true
    ∧ (t.qp 0 1).mode = .connecting ∧ t.rd CTL_RING_CFG.owner (ringBlock 128) = 2 := ⟨_, rfl, by decide +kernel⟩

/-- The public key of the example that GB/T 32918 gives for its curve, and the hash, r and s of its signature. -/
def exampleKey : Nat :=
  0x09F9DF311E5421A150DD7D161E4BC5C672179FAD1833FC076BB08FF356F35020CCEA490CE26775A52DC6EA718CC1AA600AED05FBF35E084A6632F6072DA9AD13
def exampleE : Nat := 0xF0B43E94BA45ACCAACE692ED534382EB17E6AB5A19CE7B31F4486FDFC0D28640
def exampleR : Nat := 0xF5A03B0648D2C4630EEAC513E1BB81A15944DA3827D5B74143AC7EACEEE720B3
def exampleS : Nat := 0xB1B6AA29DF212FD8763182BC0D421CA1BB9038FD1F7F42D4840B69C485BBC1AA

/-- That signature holds, and over another hash it does not; the key's Z value is the example's (R418; the values are the standard's). A REQ's
queue pair whose digest a holder of the key has signed meets the RTU's condition in the same way; the digest holds the device's serial. -/
theorem test_sm2_example : sm2Relation (exampleKey / 2 ^ 256) (exampleKey % 2 ^ 256) exampleE exampleR exampleS = true
    ∧ sm2Relation (exampleKey / 2 ^ 256) (exampleKey % 2 ^ 256) (exampleE + 1) exampleR exampleS = false
    ∧ sm2Z exampleKey = 0xB2E14C5C79C6DF5B85F4FE7ED8DB7A262B9DA7E07CCB0EA9F4747B8CCDA8A4F3 := by decide +kernel

theorem met_ManagementLinksAndKeys : on.power.pwrOk = true
    ∧ (put on [(MGT_PORT_STATUS.training, mgtPage 3, 1, 0)]).flag MGT_PORT_STATUS.training (mgtPage 3) = true
    ∧ (let s := put on [(MGT_PORT_STATUS.link_up, mgtPage 3, 1, 0), (MGT_MACSEC_CFG.policy, mgtPage 3, 1, 0)]
      s.flag MGT_PORT_STATUS.link_up (mgtPage 3) = true ∧ s.flag MGT_MACSEC_CFG.policy (mgtPage 3) = true ∧ s.boot.cores ≠ 0
        ∧ s.flag MGT_MACSEC_STATUS.mka_live (mgtPage 3) = false)
    ∧ on.flag MGT_MACSEC_CFG.policy (mgtPage 3) = false ∧ (secured 1).flag MGT_MACSEC_STATUS.mka_live (mgtPage 0) = true
    ∧ State.reset.power.pwrOk = false ∧ State.reset.boot.cores = 0 := by decide +kernel

theorem met_RegisterWritesObeyTheirAccessCodes : (on.session 0).active = true ∧ blkOfPage (clkPage 3) = some .clk ∧ on.mayWrite 0 (clkPage 3) 0x100 = true
    ∧ clkPage 3 % 4096 = 0 ∧ clkPage 3 + 0x100 < 0x10000000 ∧ clkPage 3 + 0xEF8 < 0x10000000 ∧ on.mayWrite 0 (clkPage 3) 0xEF8 = true
    ∧ isPage 0xFFFF000 = false ∧ isPage (ringPage 4095) = true ∧ (on.session 63).active = false ∧ on.mayWrite 0 (ringPage 4095) 0x100 = false := by decide +kernel

/-- The package PWR page with this guard, shadow bank, pending items and shadow_seq, and active_seq 4. -/
def banked (guard : Nat) (sh : Sparse Nat) (l : List DualItem) (q : Nat) : State := { put on [(PG_GUARD.owner, pwrPkgPage, guard, 0),
    (PG_SHADOW_SEQ.shadow_seq, pwrPkgPage, q, 0), (PG_SEQ.active_seq, pwrPkgPage, 4, 0)] with
  shadow := sh, mgmt := { on.mgmt with dual := l } }

/-- An item of session `n` that waits for page PWR's commit. -/
def item (n : Nat) : DualItem := ⟨3, pwrPkgPage, 5, 0, [], 0, n, true, n + 7, 0x1000⟩

/-- A shadow bank with warn_c changed. -/
def cooler : Sparse Nat := [(PWR_THERM_CFG.warn_c.key pwrPkgPage 0, 90)]

theorem met_GuardsAreTakenAndCommitsSwapTheBanks :
    (isPage pwrPkgPage = true ∧ on.writes 0 pwrPkgPage PG_GUARD.owner.off ∧ on.rd PG_GUARD.owner pwrPkgPage = 0xFF
      ∧ (put on [(PG_GUARD.owner, pwrPkgPage, 0, 0)]).rd PG_GUARD.owner pwrPkgPage = 0
      ∧ isPage (clkPage 3) = true ∧ clkPage 3 ≠ pwrPkgPage ∧ on.writes 0 (clkPage 3) PG_COMMIT.commit_seq.off ∧ on.guarded (clkPage 3) 0 = false
      ∧ (put on [(PG_GUARD.owner, clkPage 3, 1, 0)]).guarded (clkPage 3) 0 = true
      ∧ (put on [(PG_GUARD.owner, clkPage 3, 1, 0)]).writes 0 (clkPage 3) PG_COMMIT.commit_seq.off)
    ∧ (∀ s ∈ [banked 0xFF [] [] 5, banked 0 cooler [] 5, banked 0xFF cooler (List.replicate 16 { item 1 with page := 0 }) 5, banked 0xFF [] [] 4,
        banked 1 [] [] 5, banked 0xFF cooler [item 0] 5], s.writes 0 pwrPkgPage PG_COMMIT.commit_seq.off)
    ∧ (∀ s ∈ [banked 0xFF [] [] 5, banked 0 cooler [] 5, banked 0xFF cooler (List.replicate 16 { item 1 with page := 0 }) 5],
        s.dualPage? pwrPkgPage = none ∧ s.guarded pwrPkgPage 0 = false ∧ s.rd PG_SHADOW_SEQ.shadow_seq pwrPkgPage = 5 ∧ s.rd PG_SEQ.active_seq pwrPkgPage < 5)
    ∧ (banked 0xFF [] [] 5).rwpChanged = false ∧ (banked 0 cooler [] 5).rwpChanged = true ∧ (banked 1 [] [] 5).guarded pwrPkgPage 0 = true
    ∧ (let s := banked 0xFF cooler [item 0] 5
      s.dualPage? pwrPkgPage = some (item 0) ∧ s.guarded pwrPkgPage 0 = false ∧ s.flag PG_STATUS.commit_busy pwrPkgPage = false ∧ s.otherCred (item 0) 1 = true ∧ s.otherCred (item 0) 0 = false ∧ s.guarded pwrPkgPage 1 = false)
    ∧ (let s := put (banked 0xFF cooler [] 5) [(PG_STATUS.commit_busy, pwrPkgPage, 1, 0)]
      s.flag PG_STATUS.commit_busy pwrPkgPage = true ∧ Sparse.sorted s.shadow = true)
    ∧ item 1 ∈ (banked 0xFF [] [item 1] 5).mgmt.dual := by unfold State.writes; decide +kernel

/-- A changed RWP field waits for a second credential, which starts the swap (R58). -/
theorem test_dual_commit : (∃ t, exec (.pgCommitWrite 0 pwrPkgPage 5) (banked 0xFF cooler [] 5) = .next t ∧ t.flag PG_STATUS.dual_pending pwrPkgPage = true
      ∧ t.flag PG_STATUS.commit_busy pwrPkgPage = false)
    ∧ ∃ t, exec (.pgCommitWrite 1 pwrPkgPage 5) (banked 0xFF cooler [item 0] 5) = .next t ∧ t.flag PG_STATUS.commit_busy pwrPkgPage = true :=
  ⟨⟨_, rfl, by decide +kernel⟩, ⟨_, rfl, by decide +kernel⟩⟩

/-! ### Rings and cores (statements RingRegistersAct to ControlCoresStopAndReturn) -/

/-- Ring 4095 and event ring 255 are session 0's. -/
def owned (l : List (Fld × Nat × Nat × Nat)) : State := put on ([(CTL_RING_CFG.owner, ringBlock 4095, 0, 0), (CTL_EVR_CFG.owner, evrBlock 255, 0, 0)] ++ l)

theorem met_RingRegistersAct : (on.session 0).active = true
    ∧ (let s := owned [(CTL_RING_CFG.enable, ringBlock 4095, 1, 0), (CTL_RING_STATE.head, ringBlock 4095, 2 ^ 32 - 1, 0)]
      s.rd CTL_RING_CFG.owner (ringBlock 4095) = 0 ∧ s.flag CTL_RING_CFG.enable (ringBlock 4095) = true ∧ s.rd CTL_RING_STATE.state (ringBlock 4095) ≠ 2
        ∧ sub32 63 (s.rd CTL_RING_STATE.head (ringBlock 4095)) ≤ s.ringSize 4095 ∧ s.ringSize 4095 < sub32 64 (s.rd CTL_RING_STATE.head (ringBlock 4095)))
    ∧ (let s := owned [(CTL_RING_STATE.state, ringBlock 4095, 2, 0)]
      s.flag CTL_RING_CFG.enable (ringBlock 4095) = false ∧ s.rd CTL_RING_STATE.state (ringBlock 4095) = 2)
    ∧ (owned []).rd CTL_EVR_CFG.owner (evrBlock 255) = 0 ∧ (owned []).flag CTL_EVR_CFG.enable (evrBlock 255) = false
    ∧ (owned []).rd CTL_RING_CFG.log2_entries (ringBlock 4095) ≤ 10 ∧ (owned []).rd CTL_EVR_CFG.log2_entries (evrBlock 255) ≤ 10
    ∧ (owned []).qpHeld 0 ((owned []).rd CTL_EVR_CFG.qp (evrBlock 255)) = true
    ∧ (owned [(CTL_EVR_CFG.qp, evrBlock 255, 255, 0)]).qpHeld 0 ((owned [(CTL_EVR_CFG.qp, evrBlock 255, 255, 0)]).rd CTL_EVR_CFG.qp (evrBlock 255)) = false
    ∧ (let s := owned [(CTL_EVR_CFG.enable, evrBlock 255, 1, 0), (CTL_EVR_STATE.dropped, evrBlock 255, 1, 0), (CTL_EVR_STATE.producer, evrBlock 255, 64, 0)]
      s.flag CTL_EVR_CFG.enable (evrBlock 255) = true ∧ s.rd CTL_EVR_STATE.dropped (evrBlock 255) ≠ 0 ∧ s.evrQpOk 255 = true
        ∧ sub32 (s.rd CTL_EVR_STATE.producer (evrBlock 255)) (1 : BitVec 32).toNat < s.evrSize 255) := by decide +kernel

/-- A doorbell one past the ring's size stops the ring with OVERRUN (R60). -/
theorem test_doorbell_overrun : ∃ t, exec (.ringDoorbell 0 4095 65) (owned [(CTL_RING_CFG.enable, ringBlock 4095, 1, 0)]) = .next t
    ∧ t.rd CTL_RING_STATE.state (ringBlock 4095) = 2 ∧ t.rd CTL_RING_STATE.stop_reason (ringBlock 4095) = 1 := ⟨_, rfl, by decide +kernel⟩

/-- Ring 0 may fetch. -/
def fetching : State := (withFront on (desc 0 [])).setRing 0 { Ring.fresh with producer := 1 }

theorem met_DescriptorsAreFetchedInOrder : (fetching.cleared.settled 0).mayFetch 0 = true ∧ ((fetching.cleared.settled 0).descriptor 0).fence = false
    ∧ knownOpcodes.contains ((fetching.cleared.settled 0).descriptor 0).opcode = true ∧ ((fetching.cleared.settled 0).ring 0).inflight = []
    ∧ readLost .ok = false ∧ readLost (.corrected 0 1) = false ∧ readLost (.bad 0) = true ∧ (on.cleared.settled 0).mayFetch 0 = false ∧ knownOpcodes.contains 0xFFF = false := by decide +kernel

theorem met_ControlCoresStopAndReturn : bit on.boot.cores 3 = true ∧ bit State.reset.boot.cores 3 = false ∧ on.boot.cores ≠ 0 ∧ ([0, 4095] : List (Fin 4096)).Nodup
    ∧ ((on.setRing 0 { Ring.fresh with waiting := true, inflight := [desc 0x030 []] }).ring 0).waiting = true
    ∧ ((on.setRing 0 { Ring.fresh with waiting := true, inflight := [desc 0x030 []] }).ring 0).inflight ≠ [] := by decide +kernel

/-! ### Tables and routes (statements TableOpcodesReadAndChangeTheTables, RouteDrainsSwapTheBanks) -/

/-- An FEA of leaf 5 of the own hall, and a dynamic entry for it. -/
def fea : Nat := 5 * 2 ^ 14 + 0x101
def entry : EpEntry := ⟨true, fea, false, false, false, true, 5, 0, 0, 0⟩

/-- `e` in the slot that an insertion would take, in every copy. -/
def tabled (e : EpEntry) : State := on.epSetAll ((on.epPlace (homeDie fea) fea).getD 0) e

/-- Both buckets of the FEA full with other entries. -/
def crowded : State := (bucketSlots (epBuckets fea).1 ++ bucketSlots (epBuckets fea).2).foldl (fun s i => s.epSetAll i { entry with fea := 1 }) on

/-- An LPM entry of ten bits. -/
def lpmed : State := on.setLpm [(0, ⟨2 ^ 118, 10, 2 ^ 63, 0, []⟩)]

/-- An up-route and a gallery route in the shadow banks. -/
def routed : State := { on with tables := { on.tables with up := [(1024, 2 ^ 63 + 2 ^ 16)], gr := [(65, 2 ^ 63 + 1)] } }

theorem met_TableOpcodesReadAndChangeTheTables :
    (∀ s ∈ [on, tabled entry, crowded, lpmed, routed], ∀ op ∈ [0x020, 0x021, 0x022, 0x023, 0x024], ∀ t < 4,
      let e := desc op [t, fea]
      ((withFront s e).ring 0).inflight.head? = some e ∧ e.bad = false ∧ e.opcode = op ∧ ((withFront s e).ring 0).waiting = false ∧ e.allowed = true
        ∧ (withFront s e).tableBusy e.owner t = false)
    ∧ (keyOk 0 (desc 0 [0, fea]).key = true ∧ keyOk 0 (desc 0 [0, 2 ^ 32]).key = false ∧ keyOk 1 (desc 0 [1, 0, 2 ^ 54, 10]).key = true
      ∧ keyOk 1 (desc 0 [1, 1, 2 ^ 54, 10]).key = false ∧ keyOk 2 (desc 0 [2, 0x7F07]).key = true ∧ keyOk 3 (desc 0 [3, 63]).key = true
      ∧ keyOk 3 (desc 0 [3, 64]).key = false)
    ∧ ((tabled entry).epFind 0 fea).isSome = true ∧ on.epFind 0 fea = none ∧ (on.epPlace (homeDie fea) fea).isSome = true
    ∧ crowded.epFind (homeDie fea) fea = none ∧ crowded.epPlace (homeDie fea) fea = none
    ∧ (∀ i, (tabled entry).epFind (homeDie fea) fea = some i → (tabled entry).ep? (homeDie fea) i = some entry)
    ∧ lpmed.lpmSlot (2 ^ 118) 10 = some 0 ∧ lpmed.lpmSlot (2 ^ 118) 11 = none ∧ lpmed.tables.lpm.length < 16384
    ∧ (bit (2 ^ 63) 63 = true ∧ bits (2 ^ 63) 48 2 ≠ 3 ∧ bits (2 ^ 63 + 3 * 2 ^ 48) 48 2 = 3)
    ∧ (routed.tableSearch 2 0 1 [0, 0, 0, 0]).isSome = true ∧ (routed.tableSearch 3 0 1 [1, 0, 0, 0]).isSome = true
    ∧ on.tableSearch 2 0 1 [0, 0, 0, 0] = none
    ∧ ((tabled entry).tableNext 0 (homeDie fea) 0 0 1).isSome = true ∧ stagingOk (stagingSize - 48) 48 = true ∧ Memory.wf on.mem = true
      ∧ stagingOk (stagingSize - 47) 48 = false ∧ on.tableNext 0 0 0 (2 ^ 32) 1 = none
      ∧ on.shadowWaits 2 = false ∧ on.shadowWaits 3 = false
      ∧ (put on [(PG_GUARD.owner, fwdPage 0, 1, 0)]).tableBusy 0 2 = true
      ∧ (put on [(PWR_DIE_STATUS.state, pwrDiePage 3, 1, 0)]).tableBusy 0 1 = true := by
  refine ⟨?_, ?_, ?_, ?_, ?_, ?_, ?_, fun i hi => ?_, ?_⟩
  case refine_8 =>
    have h : ((tabled entry).epFind (homeDie fea) fea).map (fun i => (tabled entry).ep? (homeDie fea) i) = some (some entry) := by decide +kernel
    rw [hi] at h
    simpa using h
  all_goals decide +kernel

/-- No LPM slot free: a new prefix has no room. -/
theorem met_lpm_full (n : Nat) : let s := { on with tables := { on.tables with lpm := List.replicate n (0, ⟨0, 1, 0, 0, []⟩) } }
    n ≤ s.tables.lpm.length ∧ s.lpmSlot (2 ^ 118) 10 = none := by
  refine ⟨Nat.le_of_eq (List.length_replicate ..).symm, ?_⟩
  show Option.map _ (List.find? _ (List.replicate n _)) = none
  rw [Option.map_eq_none_iff, List.find?_eq_none]
  intro x hx
  rw [List.eq_of_mem_replicate hx]
  decide

/-- A started drain of table `t` for ring 0 that affects the single queue of port 0. -/
def drain (t : Nat) : Drain := ⟨t, 1, 0, true, [0], [], false, 0⟩

/-- A drain in progress, with these queues. -/
def draining (t : Nat) (q : Sparse (List QEntry)) : State :=
  { withFront on (desc 0x030 [t, 1]) with sw := { on.sw with drains := [drain t], queues := q } }

/-- An insertion that waits for the drain of its table (R159). -/
theorem met_shadow_waits : (let s := withFront (draining 2 []) (desc 0x022 [2, 0])
    (s.ring 0).inflight.head? = some (desc 0x022 [2, 0]) ∧ s.shadowWaits 2 = true ∧ s.tableBusy 0 2 = false) := by decide +kernel

/-- A search of an entry answers OK with its value (R156). -/
theorem test_table_search_finds : ∃ t, exec (.tableSearch 0) (withFront (tabled entry) (desc 0x020 [0, fea])) = .next t
    ∧ (t.ring 0).inflight = [] := ⟨_, rfl, by decide +kernel⟩

/-- A gallery route to hall 1 that conforms, in the shadow bank. -/
def galleried : State := { on with tables := { on.tables with gr := [(65, 2 ^ 63 + 2 ^ 48 + 2 ^ 40)] } }

theorem met_RouteDrainsSwapTheBanks :
    (∀ t ∈ [1, 2, 3, 4], ∀ s ∈ [on, routed, draining 2 [], draining 3 [], put on [(PG_GUARD.owner, fwdPage 0, 1, 0)]],
      let e := desc 0x030 [t, 1]
      let s := withFront s e
      (s.ring 0).inflight.head? = some e ∧ e.bad = false ∧ e.opcode = 0x030 ∧ (s.ring 0).waiting = false ∧ e.allowed = true ∧ s.boot.cores ≠ 0
        ∧ bits (e.q 1) 0 8 = t ∧ bits (e.q 2) 0 32 = 1)
    ∧ (∀ t ∈ [2, 3], on.tableBusy 0 t = false ∧ on.sw.drains = [] ∧ on.routeSeq t = 0 ∧ galleried.routeCheck t = none
      ∧ (put on [(PG_GUARD.owner, fwdPage 0, 1, 0)]).tableBusy 0 t = true ∧ (routed.routeCheck t).isSome = true
      ∧ (draining t []).drainOf t = some (drain t) ∧ (draining t []).drained (drain t) = true
      ∧ ¬(∀ y ∈ (draining t []).sw.drains, y.table ≠ t) ∧ (draining t []).sw.drains.filter (fun y => y.table == t) = [drain t])
    ∧ (let s := draining 2 [(qKey 0 1 64, [⟨0, 0, false, false, false, 0, none⟩])]
      s.drainOf 2 = some (drain 2) ∧ s.drained (drain 2) = false ∧ (∀ w ∈ s.sw.waits, w.kind ≠ .held ∧ w.kind ≠ .ring)) := by decide +kernel

/-- At the end of a drain the banks swap in every die (R199). -/
theorem test_drain_end_swaps : ∃ t, exec (.routeDrainQueuesEmpty 2) (draining 2 []) = .next t
    ∧ (∀ d < 4, t.rd FWD_UR_SEQ.active_bank (fwdPage d) = 1 ∧ t.rd FWD_UR_SEQ.active_seq (fwdPage d) = 1) := ⟨_, rfl, by decide +kernel⟩

/-! ### Bypass (statements BypassCommandsQueueSwitchings to SwitchingsSetFourCells) -/

/-- D1 that names ports 3 and 4 of engine 0. -/
def pairWord : Nat := 3 + 4 * 2 ^ 16

/-- The item that session 1 submitted first. -/
def bypItem (w : Nat) : DualItem := ⟨1, 0, 0, 0x040, [w], 0, 1, true, 8, 0x1000⟩

/-- BYPASS_ENABLE, or a reset, at the front, with this crossbar and this engine temperature. -/
def bypassed (op w : Nat) (b : Bypass) (temp : Nat) : State :=
  let s := withFront (put on [(OPT_ENG_STATUS.temp, engPage 0, temp, 0)]) (desc op [w])
  { s with byp := b, mgmt := { s.mgmt with dual := [bypItem w] } }

/-- Sixteen switchings wait; ports 3 and 4 are joined. -/
def fullQueue : Bypass := { on.byp with queue := [(0, List.replicate 16 ⟨true, 8, 9, 5⟩)] }
def joined : Bypass := { on.byp with cells := [(6, 1), (7, 1), (8, 1), (9, 1)], paths := [(3, 5), (4, 4)] }

theorem met_BypassCommandsQueueSwitchings :
    (∀ s ∈ [bypassed 0x040 pairWord on.byp 849, bypassed 0x040 pairWord on.byp 850, bypassed 0x040 pairWord fullQueue 849,
        bypassed 0x040 pairWord { on.byp with draining := [(3, ⟨PortRec.unused, false⟩)] } 849],
      let e := desc 0x040 [pairWord]
      (s.ring 0).inflight.head? = some e ∧ e.bad = false ∧ e.opcode = 0x040 ∧ (s.ring 0).waiting = false ∧ e.allowed = true ∧ s.boot.cores ≠ 0
        ∧ s.dualOpcode? 0x040 e.d = some (bypItem pairWord) ∧ sameCred true 8 e.cred.1 e.cred.2 = false
        ∧ s.plannedPair 0 3 4 = true)
    ∧ (bypassed 0x040 pairWord on.byp 849).rd OPT_ENG_STATUS.temp (engPage 0) < 850 ∧ ¬(bypassed 0x040 pairWord on.byp 850).rd OPT_ENG_STATUS.temp (engPage 0) < 850
    ∧ 16 ≤ ((bypassed 0x040 pairWord fullQueue 849).switchQueue 0).length - b2n ((bypassed 0x040 pairWord fullQueue 849).switching 0)
    ∧ Sparse.has (bypassed 0x040 pairWord { on.byp with draining := [(3, ⟨PortRec.unused, false⟩)] } 849).byp.draining 3 = true
    ∧ (bypassed 0x040 (3 + 5 * 2 ^ 16) on.byp 849).plannedPair 0 3 5 = false
    ∧ (∀ s ∈ [bypassed 0x041 pairWord joined 0, bypassed 0x041 pairWord { joined with queue := fullQueue.queue } 0, bypassed 0x041 pairWord on.byp 0],
      (s.ring 0).inflight.head? = some (desc 0x041 [pairWord]) ∧ (desc 0x041 [pairWord]).opcode = 0x041)
    ∧ (bypassed 0x041 pairWord joined 0).isCircuit 0 3 4 = true ∧ (bypassed 0x041 pairWord on.byp 0).isCircuit 0 3 4 = false
    ∧ (bypassed 0x041 pairWord on.byp 0).path 0 3 = none
    ∧ (bypassed 0x041 pairWord joined 0).cell 0 3 0 ≠ 0 ∧ (bypassed 0x040 pairWord joined 849).partnerCode 0 3 = 4 ∧ on.partnerCode 0 3 = 0xFF
    ∧ (bypassed 0x040 pairWord { joined with paths := [(3, 10), (9, 4)], cells := joined.cells ++ [(18, 1), (19, 1)] } 849).partnerCode 0 3 = 9
    ∧ (∀ l < 128, on.cellsBar (l / 4) = true) ∧ (let s := { put on [(OPT_PORT_STATE.state, portPage 3, psDisabled, 0)] with byp := joined }
      s.cellsBar 3 = false ∧ Sparse.has s.byp.draining 3 = false ∧ (s.sub 12).tx = .dark ∧ s.linkState 12 = psDisabled)
    ∧ State.reset.bypAlive 15 = false ∧ (put on [(BYP_CTRL.readback_hours, bypPage 15, 0, 0)]).rd BYP_CTRL.readback_hours (bypPage 15) = 0
    ∧ on.rd OPT_ENG_STATUS.temp (engPage 15) < 850 ∧ (∀ y ∈ on.byp.hot, y.engine ≠ 15)
    ∧ on.rd BYP_CTRL.readback_hours (bypPage 15) ≠ 0 ∧ on.bypAlive 15 = true ∧ on.mayWrite 0 (bypPage 15) 0x150 = true ∧ (on.session 0).active = true
    ∧ (let s := put { on with byp := { on.byp with hot := [⟨15, 3, 4, 0⟩] } } [(OPT_ENG_STATUS.temp, engPage 15, 850, 0)]
      850 ≤ s.rd OPT_ENG_STATUS.temp (engPage 15) ∧ (s.byp.hot.find? fun y => y.engine == 15) = some ⟨15, 3, 4, 0⟩) := by decide +kernel

theorem met_BypassReadGivesThePartners : (let e := desc 0x042 [0, stagingSize - 32]
      (withFront on e).atFront 0 0x042 true e ∧ Memory.wf (withFront on e).mem = true ∧ stagingOk (e.q 2) 32 = true)
    ∧ (let e := desc 0x042 [0, stagingSize - 31]
      (withFront on e).atFront 0 0x042 true e ∧ stagingOk (e.q 2) 32 = false)
    ∧ (let s := { on with byp := joined }
      (∀ x ∈ [(3, 0), (3, 1), (4, 0), (4, 1)], s.cell 0 x.1 x.2 = 1) ∧ s.path 0 3 = some 4 ∧ s.path 0 4 = some 3) :=
  ⟨⟨met_front (by decide +kernel), by decide +kernel, by decide +kernel⟩, ⟨met_front (by decide +kernel), by decide +kernel⟩, by decide +kernel⟩

/-- The readback shows the partners, 0xFF elsewhere and 0xFE for an uncertain cell (R106). -/
theorem test_bypass_read : ∃ t, exec (.bypassRead 0) { withFront on (desc 0x042 [0, 0]) with byp := { joined with cells := joined.cells ++ [(11, 2)] } } = .next t
    ∧ Memory.readN t.mem (stagingBase 0 + 3) 3 = [4, 3, 0xFE] ∧ Memory.read t.mem (stagingBase 0) = 0xFF := ⟨_, rfl, by decide +kernel⟩

/-- Engine 15 with a switching of ports 30 and 31 queued, in progress or not. -/
def switched (busy : Nat) : State := put { on with byp := { on.byp with queue := [(15, [⟨true, 30, 31, 0⟩])] } }
  [(BYP_STATUS.switching, bypPage 15, busy, 0), (PWR_PKG_STATUS.vin, pwrPkgPage, 420, 0)]

theorem met_SwitchingsSetFourCells : ((switched 0).switching 15 = false ∧ (switched 0).switchQueue 15 ≠ [] ∧ 420 ≤ (switched 0).rd PWR_PKG_STATUS.vin pwrPkgPage
      ∧ (switched 0).bypAlive 15 = true ∧ (switched 0).switchDrains 15 = false
      ∧ ({ switched 0 with byp := { (switched 0).byp with draining := [(510, ⟨plan.port 0, false⟩)] } } : State).switchDrains 15 = true)
    ∧ ((switched 1).switching 15 = true ∧ (switched 1).switchQueue 15 = ⟨true, 30, 31, 0⟩ :: [])
    ∧ (switched 0).rd PWR_PKG_STATUS.vin pwrPkgPage < 421
    ∧ (let b := { on.byp with draining := [(511, ⟨plan.port 0, false⟩)] }
      Sparse.get ⟨plan.port 0, true⟩ b.draining 511 = ⟨plan.port 0, false⟩)
    ∧ (on.planRec 3).role = roleBypass ∧ on.flag PWR_PKG_CTRL.standby_req pwrPkgPage = false := by decide +kernel

/-- The cells of a done switching, one of them uncertain (R103). -/
theorem test_switching_done : ∃ t, exec (.switchingDone 15 8) (switched 1) = .next t ∧ t.cell 15 30 0 = 1 ∧ t.cell 15 30 1 = 1 ∧ t.cell 15 31 0 = 1
    ∧ t.cell 15 31 1 = 2 ∧ t.path 15 30 = some 31 := ⟨_, rfl, by decide +kernel⟩


/-! ### Opcodes (statements RingCommandsCompleteOnce to PlansSavesCapsAndSnapshots) -/

/-- A command that is read without error and ready, for what the conjunctions below say of it. -/
def isFront (s : State) (op : Nat) (e : Descriptor) : Bool :=
  (s.ring 0).inflight.head? == some e && !e.bad && e.opcode == op && !(s.ring 0).waiting && e.allowed && s.boot.cores != 0

/-- A completion queue of ring 0 on queue pair `q` of port 0, a SEND after each completion. -/
def replying (q : Nat) : State := put (withFront on (desc 0 [])) [(CTL_RING_CQ_CFG.qp, ringBlock 0, q, 0), (CTL_RING_CQ_CFG.notify_every, ringBlock 0, 1, 0)]

/-- BANK_COMMIT of a page, on a state. -/
def committing (s : State) (page q : Nat) : State := withFront s (desc 0x010 [page, q])

theorem met_RingCommandsCompleteOnce :
    (∀ q < 2, isFront (replying q) 0 (desc 0 []) = true ∧ ((replying q).ring 0).inflight = [desc 0 []] ∧ bit ((desc 0 []).q 0) 50 = false
      ∧ (replying q).qpUsable ((replying q).rd CTL_RING_CQ_CFG.qp (ringBlock 0)) ((replying q).rd CTL_RING_CFG.owner (ringBlock 0)) = decide (q = 0)
      ∧ (replying q).rd CTL_RING_STATE.state (ringBlock 0) ≠ 2)
    ∧ bit (({ desc 0 [] with d := [2 ^ 50] } : Descriptor).q 0) 50 = true
    ∧ (let e := { desc 0 [] with mute := true }
      isFront (withFront on e) 0 e = true ∧ (put (replying 1) [(CTL_RING_STATE.state, ringBlock 0, 2, 0)]).rd CTL_RING_STATE.state (ringBlock 0) = 2)
    ∧ (∀ op ∈ knownOpcodes, let e := { desc op [] with allowed := false }
      ((withFront on e).ring 0).inflight.head? = some e ∧ e.bad = false ∧ e.opcode = op ∧ ((withFront on e).ring 0).waiting = false ∧ (withFront on e).boot.cores ≠ 0)
    ∧ (∀ op ∈ [0x050, 0x052, 0x060, 0x072, 0x080], isFront (withFront on (desc op [])) op (desc op []) = true)
    ∧ (∀ s ∈ [on, banked 0xFF [] [] 5, banked 0 cooler [] 5, banked 0xFF cooler (List.replicate 16 { item 1 with page := 0 }) 5, banked 1 [] [] 5, banked 0xFF [] [] 4],
        isFront (committing s pwrPkgPage 5) 0x010 (desc 0x010 [pwrPkgPage, 5]) = true
          ∧ (committing s pwrPkgPage 5).mayWriteAs (on.rolesWord 0) 0 pwrPkgPage PG_COMMIT.commit_seq.off = true)
    ∧ isPage pwrPkgPage = true ∧ isPage 1 = false
    ∧ (let y := fun s : State => ((committing s pwrPkgPage 5).cleared.commit pwrPkgPage 0 0 5 (on.credential 0)).1
      y (banked 0xFF [] [] 5) = .accepted ∧ y (banked 1 [] [] 5) = .denied ∧ y (banked 0xFF [] [] 4) = .refused ∧ y (banked 0 cooler [] 5) = .pending 1
        ∧ y (banked 0xFF cooler (List.replicate 16 { item 1 with page := 0 }) 5) = .full)
    ∧ ({ on with sec := { on.sec with keys := [(0, 1)] } }).mayWriteAs 0 0 pwrPkgPage PG_COMMIT.commit_seq.off = false := by decide +kernel

/-- A NOP completes once, with a SEND (R66). -/
theorem test_nop_completes : ∃ t, exec (.nop 0) (replying 0) = .next t ∧ t.out.length = 2 ∧ (t.ring 0).cplIndex = 1 ∧ (t.ring 0).inflight = [] :=
  ⟨_, rfl, by decide +kernel⟩

/-- A command of session 0 whose first submission came from session `n`. -/
def pended (s : State) (op : Nat) (l : List Nat) (digest n : Nat) : State :=
  let s := withFront s (desc op l)
  { s with mgmt := { s.mgmt with dual := [⟨3, 0, 0, op, l, digest, n, true, n + 7, 0x1000⟩] } }

/-- A key record for slot `k` at the start of session 0's staging window: slot 0 takes 32 bytes, others 64. -/
def keyRec (k v : Nat) : List Byte := natLe 4 0x57584B45 ++ natLe 1 (if k = 0 then 1 else 2) ++ List.replicate 3 0
  ++ (if k = 0 then List.replicate 64 0 ++ natBe 32 v ++ List.replicate 24 0 else natBe 64 v ++ List.replicate 56 0)

/-- The record staged, with an identity key. -/
def enrolling (k v : Nat) : State := (put on [(SEC_STATE.identity_ok, secPage, 1, 0)]).stage 0 0 (keyRec k v)

theorem met_DualControlledOpcodes :
    (∀ x ∈ [(0x040, [pairWord]), (0x071, [3001]), (0x071, [3400]), (0x073, [0, 1]), (0x073, [1, 1]), (0x072, [1, 0, 128]), (0x072, [0, stagingSize - 128, 128])],
      isFront (withFront on (desc x.1 x.2)) x.1 (desc x.1 x.2) = true ∧ (withFront on (desc x.1 x.2)).dualOpcode? x.1 (desc x.1 x.2).d = none
        ∧ (withFront on (desc x.1 x.2)).mgmt.dual.length < 16 ∧ isFront (pended on x.1 x.2 0 1) x.1 (desc x.1 x.2) = true
        ∧ (pended on x.1 x.2 0 1).dualOpcode? x.1 (desc x.1 x.2).d = some ⟨3, 0, 0, x.1, x.2, 0, 1, true, 8, 0x1000⟩)
    ∧ (let c := (desc 0 []).cred
      sameCred true 8 c.1 c.2 = false ∧ sameCred true 7 c.1 c.2 = true)
    ∧ (let s := withFront { on with mgmt := { on.mgmt with dual := List.replicate 16 { item 1 with page := 0 } } } (desc 0x071 [3001])
      16 ≤ s.mgmt.dual.length ∧ s.dualOpcode? 0x071 (desc 0x071 [3001]).d = none)
    ∧ stagingOk (stagingSize - 128) 128 = true ∧ stagingOk (stagingSize - 127) 128 = false
    ∧ (∀ k < 2, keyRecord k ((enrolling k 9).staged 0 0 128) = some 9) ∧ keyRecord 1 ((enrolling 0 9).staged 0 0 128) = none
    ∧ (enrolling 1 9).owned = false ∧ (enrolling 1 9).twoAdmins = false ∧ (enrolling 1 9).flag SEC_STATE.identity_ok secPage = true
    ∧ on.flag SEC_STATE.identity_ok secPage = false
    ∧ on.rd SEC_PT_SEQ.table0_seq secPage < 1 ∧ on.rd SEC_PT_SEQ.table1_seq secPage < 1 ∧ 0 ≤ on.rd SEC_PT_SEQ.table0_seq secPage := by decide +kernel

/-- The pending item of a key record holds its digest, so the second submission enrols it (R430). -/
theorem met_key_enrol_second : let l := [1, 0, 128]
    let d := sm3 ((enrolling 1 9).staged 0 0 128)
    (pended (enrolling 1 9) 0x072 l d 1).dualOpcode? 0x072 (desc 0x072 l).d = some ⟨3, 0, 0, 0x072, l, d, 1, true, 8, 0x1000⟩ := by
  intro l d
  generalize d = x
  rfl

/-- The staged entry of a group of one member in hall 0: SUM of format 1, EXACT, job 0. -/
def groupRec (members : Nat) : List Byte := natLe 8 (1024 + members * 2 ^ 20) ++ natLe 8 1 ++ natLe 8 (2 ^ 60 + 2 ^ 55) ++ List.replicate 40 0
  ++ natLe 4 1 ++ List.replicate 252 0 ++ natLe 8 (0x100 * 2 ^ 32) ++ List.replicate 8 0

/-- A group write of that entry to group 65535. -/
def writing (members : Nat) : State := withFront (on.stage 0 0 (groupRec members)) (desc 0x050 [0xFFFF, 0, 64, 272])

/-- A group of job 0 with one member. -/
def grp (job : Nat) : Group := { Group.none with q := [2 ^ 20 + 1024 + job * 2 ^ 48, 1, 2 ^ 60 + 2 ^ 55, 0, 0, 0, 0, 0], halls := 1 :: List.replicate 63 0 }

/-- A directory entry of group 0's chunk 0 with one landing of core 31. -/
def landing : Landing := ⟨.head, 3, 31, .open_, 1, 1, 0, 0, true, false, [], 8192, 0, [], [], 0, .none⟩
def live : Entry := ⟨⟨0, 0, 0, 0⟩, 0, 0, 1, some 1024, [], [], false, false, false, [landing], [], true, false, false, none⟩

/-- Group 0 with its landing, and a slot 0 of core 31 with an END program. -/
def grouped : State := { (on.setGroup 0 (grp 0)) with coll := { (on.setGroup 0 (grp 0)).coll with dir := [live] } }

/-- A load of a two-instruction image, NOP and END, into slot 63 of core 31. -/
def loading (len : Nat) : State := withFront (grouped.stage 0 0 (natLe 4 0 ++ natLe 4 (2 ^ 26))) (desc 0x052 [31 + 63 * 256, 0, len])

theorem met_GroupsFlightsTriggersAndQuotas :
    (let s := writing 1
      let x := s.stagedGroup 0 0 64 272 0
      isFront s 0x050 (desc 0x050 [0xFFFF, 0, 64, 272]) = true ∧ stagingOk 0 64 = true ∧ stagingOk 64 272 = true ∧ stagingOk (stagingSize - 63) 64 = false
        ∧ s.boot.plan = some plan ∧ x.valid plan 0 272 = true ∧ s.groupBusy 0xFFFF = false ∧ s.dieReloading = false
        ∧ listBytes x.members.length ≤ 1073741824 ∧ (∀ i < 4, (s.placeAreas 0xFFFF x i).isSome = true))
    ∧ ((writing 2).stagedGroup 0 0 64 272 0).valid plan 0 272 = false ∧ grouped.groupBusy 0 = true
    ∧ { on with boot := { on.boot with plan := none } }.boot.plan = none
    ∧ (∀ op ∈ [0x051, 0x053, 0x054], isFront (withFront grouped (desc op [0])) op (desc op [0]) = true)
    ∧ (grouped.group 0).memberCount ≠ 0 ∧ (grouped.group 0).job = (desc 0x051 [0]).job ∧ (grouped.group 1).memberCount = 0
    ∧ ((on.setGroup 0 (grp 1)).group 0).job ≠ (desc 0x051 [0]).job
    ∧ (isFront (loading 2) 0x052 (desc 0x052 [31 + 63 * 256, 0, 2]) = true ∧ stagingOk 0 8 = true ∧ (loading 2).slotBound 31 63 = false
      ∧ grouped.slotBound 31 0 = true ∧ imageOk ((List.range 2).map fun k => leAt ((loading 2).staged 0 0 8) (4 * k) 4) = true
      ∧ imageOk ((List.range 1).map fun k => leAt ((loading 1).staged 0 0 4) (4 * k) 4) = false)
    ∧ ((bits (desc 0x053 [0, 2 ^ 60, 0, 0]).d.length 0 8 = 5) ∧ (bits (2 ^ 60) 60 4 = 1 ∧ ((on.setGroup 0 (grp 1)).group (bits (2 ^ 60) 32 16)).job ≠ 0))
    ∧ on.mayWrite 0 (grpPage 3) 0x148 = true := by decide +kernel

/-- A group write takes the staged entry with the session as owner (R265). -/
theorem test_group_write : ∃ t, exec (.groupWrite 0 .ok) (writing 1) = .next t ∧ (t.group 0xFFFF).memberCount = 1 ∧ (t.group 0xFFFF).members.length = 1 :=
  ⟨_, rfl, by decide +kernel⟩

/-- Port 511's last sub-port HELD. -/
def held : State := on.setSub 2047 { SubPort.fresh with disc := .held }

/-- COUNTER_SNAPSHOT of the clock page of die 3. -/
def snapping (cnt : Nat) : State := withFront (on.stage 0 0 (natLe 8 (clkPage 3))) (desc 0x080 [0, cnt, 64])

theorem met_PlansSavesCapsAndSnapshots :
    (∀ x ∈ [(0x060, [0, planBytes, 1]), (0x061, []), (0x070, [1499]), (0x070, [1500]), (0x070, [3000]), (0x070, [3001]), (0x031, [511]), (0x031, [0])],
      isFront (withFront held (desc x.1 x.2)) x.1 (desc x.1 x.2) = true)
    ∧ stagingOk (stagingSize - planBytes) planBytes = true ∧ stagingOk (stagingSize - planBytes + 1) planBytes = false
    ∧ (dieIn 0 1).dieAway 3 = true ∧ (∀ d < 4, on.dieAway d = false)
    ∧ (∃ st, on.planCheck (on.staged 0 0 planBytes) planBytes 1 = .error st) ∧ on.boot.copy.seq ≠ 0xFFFFFFFF
    ∧ on.saveFree 0 = true ∧ on.saveFree ownSave = true ∧ (let s := { on with boot := { on.boot with writing := some (true, ownSave) } }
      s.saveFree 0 = false ∧ s.saveFree ownSave = true ∧ (s.boot.writing.any fun w => w.2 == ownSave) = true)
    ∧ (blkOfPage 0xFFFF000).isNone = true
    ∧ { on with boot := { on.boot with saveDue := true } }.boot.saveDue = true ∧ on.boot.cores ≠ 0
    ∧ (held.sub (4 * 511 + 3)).disc = .held ∧ (∀ j < 4, (held.sub j).disc ≠ .held)
    ∧ (let s := snapping 1
      isFront s 0x080 (desc 0x080 [0, 1, 64]) = true ∧ s.readerOn = true ∧ stagingOk 0 8 = true ∧ stagingOk 64 512 = true ∧ (blkOfPage (clkPage 3)).isSome = true
        ∧ leAt (s.staged 0 0 8) 0 4 / 4096 * 4096 = clkPage 3 ∧ s.mayReadAs (on.rolesWord 0) 0 (clkPage 3) CTR_VALUE.count.off = true ∧ Memory.wf s.mem = true
        ∧ s.readerSkips (clkPage 3) = false) ∧ stagingOk 0 (8 * 4097) = true ∧ stagingOk (8 * 4097) (256 * 4098) = true := by
  refine ⟨?_, ?_, ?_, ?_, ?_, ⟨_, rfl⟩, ?_⟩
  all_goals decide +kernel

/-- A snapshot of one page counts one page read (R459). -/
theorem test_snapshot : ∃ t, exec (.counterSnapshot 0 .ok) (snapping 1) = .next t ∧ (t.ring 0).inflight = [] ∧ Memory.wf t.mem = true := ⟨_, rfl, by decide +kernel⟩

/-! ### The switch (statements ReceivedFramesAreCheckedAndForwarded to NeighboursAndPauses) -/

/-- A sub-port that is UP, accepted, two-way, with a neighbour's MAC. -/
def mated : SubPort := { good with nbrMac := 0x020000000001 }

/-- Ports 0 (leaf 5), 1 (leaf 5), 2 (gallery) and 511 are UP with their first sub-port. -/
def links : State := ((put on ([0, 1, 2, 511].flatMap fun p => [(OPT_PORT_STATE.state, portPage p, psUp, 0), (OPT_PORT_CFG.sub_enable, portPage p, 1, 0)])).setSub 0 mated
  |>.setSub 4 mated |>.setSub 8 mated)

/-- An entry for leaf 5's address in every copy. -/
def routedTo : State := links.epSetAll ((links.epPlace (homeDie fea) fea).getD 0) entry

/-- An IPv6 frame for leaf 5 from hall 1, class `cls`, as it arrives on the gallery port. -/
def plain (cls hop : Nat) : List Byte := wire (ethHdr 8 1 0x86DD ++ (ipFrame fea (2 ^ 26 + 0x101) cls hop 59 (List.replicate 10 7)).drop 14)

/-- An HJT frame to `dst` with destination MAC `mac`, of type `t`, as it arrives. -/
def hjtIn (mac dst hop : Nat) (h : Hjt) (p : List Byte) : List Byte := wire (patch (hjtFrame dst (2 ^ 26 + 0x101) 6 hop 0xB3C4 h p) 0 (natBe 6 mac ++ natBe 6 0x020000000001))

/-- A valid HELLO of a leaf. -/
def helloIn : List Byte := hjtIn macHello allNodes 255 (Hjt.zero tHello) ([1, 1] ++ List.replicate 32 0 ++ natBe 2 1000 ++ List.replicate 12 0)

/-- A CONTRIB to the own spine. -/
def contribIn : List Byte := hjtIn 8 (spineFea 0 0 0 1) 8 { Hjt.zero tContrib with format := 1, job := 1 } (List.replicate 64 0)

/-- Group 0 of job 1 with that member. -/
def member1 : State := routedTo.setGroup 0 { grp 1 with members := [⟨0, 2 ^ 26 + 0x101, 0⟩] }

/-- A pool of port 2's die without a free tread, and with no headroom left for the port. -/
def choked : State := put { routedTo with sw := { routedTo.sw with headUse := [(8, 4096)] } } [(BUF_POOL_USE1.forward_used, bufPage 0, 2 ^ 20 - 1, 0)]

/-- `b` stored from port 2 of `s`, and whether it is an HJT frame. -/
def arrived (s : State) (b : List Byte) : State × Bool :=
  let v := s.cleared.received 8 b.length
  let hjt := match v.rxCheck plan 8 b false with
    | .ok hjt => hjt
    | .error _ => false
  ((v.stored 8 b hjt .forward).2.iff (isHold (v.rxClass 8 (unwire b)) && decide (b.length < 108)) fun s =>
    (s.count (swpPage (pipeOfPort 2)) 0x80).irq (swpPage (pipeOfPort 2)) 5, hjt)

/-- What stages S0 to S5 find for `b` on port 2 of `s`: S3's answer, S4's state and the stored frame's. -/
def found (s : State) (b : List Byte) : S3 × State :=
  let x := arrived s b
  let r := x.1.stage3 plan 8 (parsed b) x.2 .ok
  (r.1, r.2.stage4 plan 8 (parsed b))

/-- A frame of class `cls` for hall 1 and one of RoCEv2 for the spine's management service, as they arrive on port 2. -/
def afar (cls : Nat) : List Byte := wire (ethHdr 8 1 0x86DD ++ (ipFrame (2 ^ 26 + 5 * 2 ^ 14 + 0x101) fea cls 8 59 (List.replicate 10 7)).drop 14)
def relayIn : List Byte := wire (ethHdr 8 1 0x86DD ++ (ipFrame (spineFea 0 0 0 2) fea 1 8 17 (natBe 2 9 ++ natBe 2 4791 ++ natBe 2 20 ++ List.replicate 14 0)).drop 14)

/-- The gallery route leads to port 2, whose class 2 is paused; a frame of port 2 and class 2 for hall 1 may wait already. -/
def stalled (ahead : Bool) : State := { routedTo with
  tables := { routedTo.tables with gr := [(1, 2 ^ 63 + 2 ^ 48 + 2 ^ 40)], up := [(0, 2 ^ 63 + 64 * 2 ^ 16 + 2)] }
  sw := { routedTo.sw with paused := [(8 * 8 + 2, true)], nextId := 9
                           frames := [(0, ⟨parsed (afar 2), 8, 0, .forward, 1, 2, 0xFFFF, 1, false, false, false, false⟩)]
                           waits := if ahead then [⟨0, .ring, 0, [], 1, none, false, false⟩] else [] } }

theorem met_receives (s : State) (h : s.boot.plan = some plan ∧ s.isUp 8 = true ∧ (s.role 2 = roleDown ∨ s.role 2 = roleGallery)
    ∧ s.power.stopped = false ∧ s.loopsBack 8 = false) :
    s.receives plan 8 := ⟨h.1, h.2.1, h.2.2.1, h.2.2.2.1, h.2.2.2.2⟩

theorem met_ReceivedFramesAreCheckedAndForwarded : (∀ s ∈ [routedTo, member1, choked], s.receives plan 8)
    ∧ (let ok := fun (b : List Byte) (hjt : Bool) => let v := routedTo.cleared.received 8 b.length
        v.rxPool 8 (v.rxClass 8 (unwire b)) (treadsOf b.length) = .ok .forward ∧ v.rxCheck plan 8 b false = .ok hjt
      ok (plain 0 8) false ∧ ok (plain 2 2) false ∧ ok helloIn true ∧ ok contribIn true ∧ ok (wire (pfcFrame 1 2 5)) false
        ∧ ok (wire (ethHdr macLldp 1 0x88CC)) false)
    ∧ (choked.cleared.received 8 64).rxPool 8 0 1 = .error 0x02 ∧ (choked.cleared.received 8 64).rxPool 8 2 1 = .error 0x17
    ∧ (routedTo.cleared.received 8 68).rxCheck plan 8 (plain 2 1) false = .error 0x0A
    ∧ (routedTo.cleared.received 8 68).rxCheck plan 8 (plain 2 8) true = .error 0x04
    ∧ (found routedTo (plain 0 8)).1 = .forward [.leaf 5] ∧ (found routedTo helloIn).1 = .done ∧ (found routedTo contribIn).1 = .contrib
    ∧ (found routedTo (hjtIn 8 (spineFea 0 0 0 3) 8 { Hjt.zero tContrib with format := 1, job := 1 } (List.replicate 64 0))).1 = .drop (swpPage (pipeOfPort 2)) 0x13
    ∧ ((found routedTo contribIn).2.acceptContrib routedTo.sw.nextId 0 (engOfPort 2) (parsed contribIn)).1 = some 31
    ∧ ((found member1 contribIn).2.acceptContrib routedTo.sw.nextId 0 (engOfPort 2) (parsed contribIn)).1 = none
    ∧ (let s := put routedTo [(SCH_POLICER.enable, schPage 2, 1, 0), (SCH_POLICER.rate_mbps, schPage 2, 0, 0)]
      (arrived s (plain 0 8)).1.policed 8 0 (parsed (plain 0 8)) = true ∧ (arrived s (plain 0 8)).1.conforms (policerKey 8 0) = false
        ∧ (arrived s (plain 2 8)).1.policed 8 2 (parsed (plain 2 8)) = false ∧ (arrived s (wire (pfcFrame 1 2 5))).1.policed 8 0 (parsed (wire (pfcFrame 1 2 5))) = false)
    ∧ (∀ c ∈ [0, 2], let z := (found routedTo (plain c 8)).2
      ((z.frame? routedTo.sw.nextId).map fun f => ((z.choose routedTo.sw.nextId z.sw.waits f ⟨.leaf 5, false, none, false⟩).1, isHold f.cls,
          z.behind f (qKey 0 c 64), z.mustSpill 0 f, z.underAlpha f.die f.cls (z.depth 0 f.cls + f.treads) (z.dropFree f.die f.pool)))
        = some (.queue ⟨qKey 0 c 64, false, 0, none⟩, decide (c = 2), false, false, true)) ∧ routedTo.inService 0 = true := by
  refine ⟨fun s hs => met_receives s ?_, by decide +kernel⟩
  revert s hs
  decide +kernel

theorem met_frames_terminated_or_held :
    State.reset.boot.plan = none ∧ (on.isUp 8 = false ∧ on.loopsBack 8 = false)
    ∧ (put routedTo [(OPT_PORT_CFG.loopback, portPage 2, 2, 0)]).loopsBack 8 = true
    ∧ (found routedTo relayIn).1 = .relay ∧ (found routedTo (wire (ethHdr macLldp 1 0x88CC))).1 = .done
    ∧ (let v := routedTo.cleared.received 8 relayIn.length
      v.rxPool 8 (v.rxClass 8 (unwire relayIn)) (treadsOf relayIn.length) = .ok .forward ∧ v.rxCheck plan 8 relayIn false = .ok false)
    ∧ (∀ b : Bool, (found (stalled b) (afar 2)).1 = .forward [.hall 1]
      ∧ ((found (stalled b) (afar 2)).2.frame? 9).map (fun f => ((found (stalled b) (afar 2)).2.choose 9 (stalled b).sw.waits f ⟨.hall 1, false, none, false⟩).1) = if b then some (.wait .ring false) else some (.wait .eligible true))
    ∧ (let m := wire (ethHdr 8 1 0x86DD ++ (ipFrame ptpGroup (2 ^ 26 + 0x101) 6 255 17 (udpHdr 319 34 ++ pdelay)).drop 14)
      let s := put routedTo [(TIM_CFG.gptp_enable, timPage 0, 1, 0)]
      (found s m).1 = .done ∧ etype (parsed m) = 0x86DD ∧ s.isTimeMessage 8 (parsed m) = true)
    ∧ (∀ again : Bool, ((arrived (stalled false) (afar 2)).1.stage3 plan 8 (parsed (afar 2)) false (.routeEcc again)).1 = .forward [.hall 1]) := by
  decide +kernel

/-- A frame that needs a route whose bank entry reads uncorrectable is discarded under NO_ROUTE (R433). -/
theorem test_route_ecc : ∃ t, exec (.frameReceive 8 (afar 2) (.routeEcc false)) (stalled false) = .next t ∧ t.frame? 9 = none
    ∧ t.sw.queues = [] := ⟨_, rfl, by decide +kernel⟩

/-- A plain frame from port 0 enters the queue of the other leaf port's sub-port (R163), and is held once. -/
theorem test_receive_forwards : ∃ t, exec (.frameReceive 8 (plain 0 8) .ok) routedTo = .next t ∧ (t.queue (qKey 0 0 64)).length = 1
    ∧ (t.frame? routedTo.sw.nextId).map (fun f => f.refs) = some 1 := ⟨_, rfl, by decide +kernel⟩

/-- A frame of class `cls` of port `p`, held by `n` queues. -/
def stored (p cls n : Nat) : Frame := ⟨trimIp (unwire (plain cls 8)), 4 * p, 0, .forward, 1, cls, 0xFFFF, n, false, false, isHold cls, false⟩

/-- Frames, queues and waits. -/
def holding (s : State) (f : Sparse Frame) (q : Sparse (List QEntry)) (w : List Wait) : State :=
  { s with sw := { s.sw with nextId := 9, frames := f, queues := q, waits := w, ringTreads := [(0, 200)] } }

/-- One frame of class 6 in the job slot 63 of port 2, bound for hall 1; the second queue holds another copy of it. -/
def waitingOut (mc : Bool) : State := holding links [(0, stored 0 6 2)] [(qKey 0 6 64, [⟨0, 0, mc, false, false, 0, none⟩]), (qKey 8 6 63, [⟨0, 0, mc, false, false, 1, none⟩])] []

theorem met_FramesLeaveInOrder : (let s := waitingOut false
      let v := s.cleared.dropOversize 8
      s.isUp 8 = true ∧ s.power.stopped = false ∧ (v.pickClass 8).1 = some 6 ∧ ((v.pickClass 8).2.pickQueue 8 6).1 = some (qKey 8 6 63)
        ∧ ((v.pickClass 8).2.pickQueue 8 6).2.head (qKey 8 6 63) = some (⟨0, 0, false, false, false, 1, none⟩, stored 0 6 2)
        ∧ 22 ≤ (stored 0 6 2).bytes.length ∧ etype (stored 0 6 2).bytes = 0x86DD)
    ∧ ((links.cleared.dropOversize 8).pickClass 8).1 = none
    ∧ (let s := waitingOut true
      oldestOf (s.entriesOf 8 6 fun _ y => y.mc) = some (qKey 8 6 63, ⟨0, 0, true, false, false, 1, none⟩) ∧ s.frame? 0 = some (stored 0 6 2)) := by decide +kernel

/-- The frame leaves with its Hop Limit one lower (R114), and one reference stays. -/
theorem test_transmit : ∃ t, exec (.frameTransmit 8 .ok) (waitingOut false) = .next t ∧ t.queue (qKey 8 6 63) = [] ∧ t.out.length = 1
    ∧ (t.frame? 0).map (fun f => f.refs) = some 1 := ⟨_, rfl, by decide +kernel⟩

/-- A gallery route to hall 1 by group 0, which port 2 serves; with `b`, port 2 is the banister. -/
def galleryOn (b : Bool) : State := { links with tables := { links.tables with
  gr := [(1, 2 ^ 63 + 2 ^ 48 + 2 ^ 40)]
  up := (0, 2 ^ 63 + 64 * 2 ^ 16 + 2) :: (if b then [(7 * 128, 2 ^ 63 + 64 * 2 ^ 16 + 2)] else []) } }

/-- A wait of frame 0. -/
def wait (k : WaitKind) (ts : List Target) : Wait := ⟨0, k, 0, ts, 1, none, false, false⟩
def toLeaf : Target := ⟨qKey 0 6 64, false, 0, none⟩

/-- A frame of class 6 in the job slot of port 2; a banister frame of port 2; one that waits at S5. -/
def slotted (b : Bool) : State := holding (galleryOn b) [(0, stored 0 6 1)] [(qKey 8 6 63, [⟨0, 0, false, false, false, 1, none⟩])] []
def ringed (b : Bool) : State := let s := holding (galleryOn true) [(0, stored 2 6 1)] [] [wait .ring []]
  if b then { s with sw := { s.sw with ringTreads := [(0, 36)] } } else { s with sw := { s.sw with ringTreads := [(0, 35)] } }
def escaping : State := holding (galleryOn false) [(0, stored 0 6 1)] [] [wait .eligible []]

/-- A frame of another die that awaits the mesh, with its copy in the egress die. -/
def crossingIn : State := holding links [(0, { stored 0 6 1 with die := 1 }), (1, stored 0 6 1)] [] [wait (.mesh 1) [toLeaf]]

/-- A frame held at S6 for port `l / 4`. -/
def intake (l : Nat) (f : Frame) : State := holding links [(0, f)] [] [wait .intake [⟨qKey l 6 64, false, 0, none⟩]]

theorem met_frames_cross_the_mesh :
    (let s := crossingIn
      let w := wait (.mesh 1) [toLeaf]
      s.sw.waits.find? (s.meshWaits 1 0 (meshIndex .forward)) = some w ∧ s.meshReady 1 0 .forward = true ∧ s.power.stopped = false
        ∧ s.frame? 1 = some (stored 0 6 1) ∧ (stored 0 6 1).refs = 1 ∧ (stored 0 6 1).die = qKey 0 6 64 / 66 / 8 / 512 ∧ s.inService 0 = true
        ∧ qKey 0 6 64 % 66 ≠ 65 ∧ (s.cleared.dropWait w).behind (stored 0 6 1) (qKey 0 6 64) = false ∧ (s.cleared.dropWait w).mustSpill 0 (stored 0 6 1) = false)
    ∧ (put crossingIn [(CTL_DIE_STATE.state, ctlDiePage 0, 2, 0)]).meshReady 1 0 .forward = false
    ∧ crossingIn.sw.waits.find? (crossingIn.meshWaits 2 0 (meshIndex .forward)) = none := by decide +kernel

theorem met_held_frames_are_admitted :
    (∀ x ∈ [(0, stored 0 6 1, false), (8, { stored 0 6 1 with pool := .headroom }, true)],
      let s := intake x.1 x.2.1
      let w := wait .intake [⟨qKey x.1 6 64, false, 0, none⟩]
      ((s.sw.waits.filter (s.waitsOn 0 .intake)).filter fun y => y.die == 0).head? = some w ∧ (∀ y ∈ s.sw.waits.erase w, y.id ≠ w.id)
        ∧ isHold x.2.1.cls = true ∧ w.die = x.2.1.die ∧ qKey x.1 6 64 / 66 / 8 / 512 = 0 ∧ s.inService x.1 = true
        ∧ (s.cleared.dropWait w).mustSpill x.1 x.2.1 = x.2.2 ∧ x.2.1.treads ≤ s.poolFree 0 .overflow)
    ∧ (let f := { stored 0 6 1 with die := 1 }
      let s := intake 0 f
      ((s.sw.waits.filter (s.waitsOn 1 .intake)).filter fun y => y.die == 0).head? = some (wait .intake [toLeaf]) ∧ s.sw.nextId ≠ 0
        ∧ f.treads ≤ s.poolFree 0 (meshPool f) ∧ (s.cleared.dropWait (wait .intake [toLeaf])).mustSpill 0 f = false)
    ∧ links.sw.waits.filter (links.waitsOn 0 .intake) = [] := by decide +kernel

theorem met_frames_escape :
    (let s := escaping
      let w := wait .eligible []
      let u := s.cleared.dropWait w
      let sel := u.choose 0 (s.aheadOf w) (stored 0 6 1) ⟨.hall 1, false, none, false⟩
      s.sw.waits.filter (s.waitsOn 0 .eligible) = [w] ∧ s.sw.queues = []
        ∧ sel.1 = .queue ⟨qKey 8 6 63, false, 1, none⟩ ∧ sel.2.inService 8 = true ∧ sel.2.behind (stored 0 6 1) (qKey 8 6 63) = false
        ∧ sel.2.mustSpill 8 (stored 0 6 1) = false)
    ∧ (∀ b : Bool, oldestOf ((slotted b).entriesOf 8 6 fun key y => decide (key % 66 < 64) && !y.eligible) = some (qKey 8 6 63, ⟨0, 0, false, false, false, 1, none⟩)
      ∧ (slotted b).ringId (stored 0 6 1) 0 = 9)
    ∧ (let go := fun b => ((slotted b).cleared.setQueue (qKey 8 6 63) [⟨0, 0, false, true, false, 1, none⟩]).enterRing 0 1 (stored 0 6 1) false none
      (go false).1 = .wait .eligible true ∧ (go true).1 = .queue ⟨qKey 8 6 65, false, 1, none⟩ ∧ (go true).2.inService 8 = true)
    ∧ (let f := { stored 0 6 1 with die := 1, src := 2047 }
      let go := ((holding (galleryOn true) [(0, f)] [(qKey 8 6 63, [⟨0, 0, false, false, false, 1, none⟩])] []).cleared.setQueue (qKey 8 6 63)
        [⟨0, 0, false, true, false, 1, none⟩]).enterRing 1 1 f false none
      go.1 = .queue ⟨qKey 8 6 65, false, 1, none⟩ ∧ go.2.inService 8 = true)
    ∧ oldestOf (links.entriesOf 8 6 fun key y => decide (key % 66 < 64) && !y.eligible) = none ∧ links.sw.waits.filter (links.waitsOn 3 .eligible) = []
    ∧ (let s := holding links [(0, stored 0 6 1)] [(qKey 8 6 63, [⟨0, 0, false, true, false, 1, none⟩])] []
      ∃ q ∈ s.sw.queues.filter (fun q => q.1 / 66 / 8 / 512 == 0 && decide (q.1 % 66 < 64)), ∃ x ∈ q.2, x.eligible = true) := by decide +kernel

theorem met_frames_continue_on_the_banister :
    (∀ b : Bool, (ringed b).sw.waits.find? (fun x => decide (x.kind = .ring) && match (ringed b).frame? x.id with
          | some f => f.src == 8 && f.cls == 6
          | none => false) = some (wait .ring [])
      ∧ (ringed b).ringId (stored 2 6 1) 0 ≠ 0)
    ∧ (let sel := fun b => ((ringed b).cleared.dropWait (wait .ring [])).choose 0 ((ringed b).aheadOf (wait .ring [])) (stored 2 6 1) ⟨.hall 1, false, none, true⟩
      (sel false).1 = .wait .ring false ∧ (sel true).1 = .queue ⟨qKey 8 6 65, false, 1, none⟩ ∧ (sel true).2.inService 8 = true) := by decide +kernel

/-- With 36 treads free the frame continues on the banister, with 35 it waits on (R192). -/
theorem test_banister_continue : ∀ b : Bool, ∃ t, exec (.banisterContinue 8 6) (ringed b) = .next t ∧ (t.queue (qKey 8 6 65)).length = b2n b
    ∧ t.sw.waits.length = 1 - b2n b := by
  intro b
  cases b <;> exact ⟨_, rfl, by decide +kernel⟩

/-- A two-way neighbour of port 0's sub-port 0 of leaf `leaf`, to be compared. -/
def neighbour (leaf : Nat) : State := linked psUp { lit with disc := .unaccepted, twoWay := true, nbr := ⟨1, 0, 0, 0, 0, leaf, 0, 0, 7⟩ }

theorem met_NeighboursAndPauses : (links.boot.plan = some plan ∧ links.isUp 8 = true ∧ links.role 2 = roleGallery ∧ links.power.stopped = false
      ∧ treadsOf 9216 ≤ links.poolFree 0 .forward ∧ links.boot.cores ≠ 0)
    ∧ (∀ n ∈ [5, 6], ((neighbour n).sub 0).twoWay = true ∧ ((neighbour n).sub 0).disc = .unaccepted ∧ ((neighbour n).sub 0).byCommand = false
      ∧ (neighbour n).boot.plan = some plan ∧ (neighbour n).isUp 0 = true ∧ (neighbour n).role 0 = roleDown)
    ∧ (neighbour 5).discoveryReason plan 0 = 0 ∧ (neighbour 6).discoveryReason plan 0 = 3
    ∧ (links.sub 2047).twoWay = false ∧ (links.sub 8).twoWay = true
    ∧ (let s := { on with sw := { on.sw with xoff := [(8 * 8 + 6, true)] } }
      s.xoff 8 6 = true ∧ s.xoff 8 7 = false)
    ∧ ¬(treadsOf 64 ≤ choked.poolFree 0 .forward) := by decide +kernel

/-- Port 2 is the banister and `n` treads of its ring queue are free. -/
def banisterPort (n : Nat) : State := let s := galleryOn true
  { s with sw := { s.sw with ringTreads := [(0, n)] } }

theorem met_device_frames_on_a_banister : (∀ n ∈ [71, 72], (banisterPort n).ringOut 8 = true ∧ (banisterPort n).isUp 8 = true)
    ∧ links.ringOut 8 = false ∧ (∀ hjt : Bool, (banisterPort 72).ringRoom 8 (ethHdr macLldp 0 0x88CC) hjt)
    ∧ (∀ hjt : Bool, ¬(banisterPort 71).ringRoom 8 (ethHdr macLldp 0 0x88CC) hjt) := by
  unfold State.ringRoom
  decide +kernel

/-- A leaf that the plan does not name there is HELD with reason 3 (R410). -/
theorem test_discovery_holds : ∃ t, exec (.discoveryCompare 0) (neighbour 6) = .next t ∧ (t.sub 0).disc = .held ∧ (t.sub 0).holdReason = 3 := ⟨_, rfl, by decide +kernel⟩

/-- A queue of learn actions of die 0, with flooding enabled there or not. -/
def learning (s : State) (l : List LearnAct) (flood : Nat) : State :=
  { put s [(FWD_LEARN_CFG.flood_enable, fwdPage 0, flood, 0)] with tables := { s.tables with learnQ := [(0, l)] } }

/-- An arrival of leaf 5's address at leaf `leaf`. -/
def arrival (leaf : Nat) : LearnAct := ⟨fea, leaf, 0⟩

theorem met_LearningAgingAndScrubs :
    (∀ s ∈ [on, tabled entry, tabled { entry with static := true }, tabled { entry with leaf := 6 }, crowded],
      Sparse.get [] (learning s [arrival 6] 1).tables.learnQ 0 = arrival 6 :: [] ∧ (learning s [arrival 6] 1).dieAway (homeDie fea) = false)
    ∧ (let s := learning (tabled entry) [arrival 6] 1
      let u := s.cleared.setLearnQ 0 []
      (u.epFind (homeDie fea) fea).isSome = true ∧ ((u.epFind (homeDie fea) fea).bind fun i => u.ep? (homeDie fea) i) = some entry ∧ entry.static = false)
    ∧ (let u := (learning on [arrival 5] 1).cleared.setLearnQ 0 []
      u.epFind (homeDie fea) fea = none ∧ u.learnNew 0 fea (arrival 5).leaf = false ∧ u.learnNew 0 fea (arrival 6).leaf = true
        ∧ (u.epPlace (homeDie fea) fea).isSome = true)
    ∧ (let s := learning { on with tables := { on.tables with foyer := [⟨fea, false, false⟩] } } [arrival 5] 1
      s.inFoyer fea = true ∧ s.learnNew 0 fea 5 = true ∧ (arrival 5).leaf = feaLeaf fea ∧ s.flag FWD_LEARN_CFG.learn_all (fwdPage 0) = false)
    ∧ (let u := (learning crowded [arrival 6] 1).cleared.setLearnQ 0 []
      u.epFind (homeDie fea) fea = none ∧ u.epPlace (homeDie fea) fea = none ∧ u.flag FWD_LEARN_CFG.flood_enable (fwdPage 0) = true ∧ u.inFoyer fea = false
        ∧ u.tables.foyer.length < 256
        ∧ 256 ≤ (learning { crowded with tables := { crowded.tables with foyer := List.replicate 256 ⟨1, true, false⟩ } } [arrival 6] 1).tables.foyer.length)
    ∧ (put on [(PWR_DIE_STATUS.state, pwrDiePage (homeDie fea), 1, 0)]).dieAway (homeDie fea) = true
    ∧ on.flag PWR_PKG_STATUS.pkg_standby pwrPkgPage = false
    ∧ (put on [(FWD_AGE_CFG.interval_ms, fwdPage 0, 1, 0)]).rd FWD_AGE_CFG.interval_ms (fwdPage 0) ≠ 0
    ∧ (put on [(FWD_AGE_CFG.interval_ms, fwdPage 0, 0, 0)]).rd FWD_AGE_CFG.interval_ms (fwdPage 0) = 0
    ∧ (put on [(FWD_LPM_SCRUB.period_ms, fwdPage 3, 1, 0)]).rd FWD_LPM_SCRUB.period_ms (fwdPage 3) ≠ 0
    ∧ (put on [(FWD_LPM_SCRUB.period_ms, fwdPage 3, 0, 0)]).rd FWD_LPM_SCRUB.period_ms (fwdPage 3) = 0
    ∧ (∀ x ∈ [(0, true), (0, false)], Sparse.has lpmed.tables.lpm x.1 = true) ∧ (∀ x ∈ [(16383, true)], ¬Sparse.has lpmed.tables.lpm x.1 = true) := by
  decide +kernel

/-- A moved source takes its entry to the new leaf in every copy (R145). -/
theorem test_learn_move : ∃ t, exec (.learnApply 0 false) (learning (tabled { entry with leaf := 7 }) [arrival 6] 0) = .next t
    ∧ (∀ c < 4, ((t.epFind (homeDie fea) fea).bind fun i => t.ep? c i).map (fun e => e.leaf) = some 6) := ⟨_, rfl, by decide +kernel⟩

theorem met_BucketsGatesAndSamples : on.mayWrite 0 (schPage 511) 0x348 = true
    ∧ (put on [(SCH_GATE_STATUS.change_pending, schPage 511, 1, 0)]).flag SCH_GATE_STATUS.change_pending (schPage 511) = true
    ∧ (let s := { on with sw := { on.sw with nextGates := [(511, GateList.fresh, 5)] } }
      s.nextGates 511 = some (GateList.fresh, 5) ∧ s.nextGates 0 = none)
    ∧ on.lportPlanned 0 = true ∧ on.lportPlanned 12 = false ∧ bit on.boot.lpUnused 3 = false ∧ bit { on with boot := { on.boot with lpUnused := 8 } }.boot.lpUnused 3 = true
    ∧ on.flag SCH_GATE_STATUS.change_pending (schPage 511) = false ∧ gateCheck (on.adminGates 511) = 0
    ∧ gateCheck { GateList.fresh with cycle := 999 } = 1 ∧ gateCheck { GateList.fresh with length := 257 } = 2
    ∧ (put on [(SCH_DIE_CFG.sample_us, schDiePage 3, 0, 0)]).rd SCH_DIE_CFG.sample_us (schDiePage 3) = 0
    ∧ (put on [(SCH_DIE_CFG.sample_us, schDiePage 3, 1, 0)]).rd SCH_DIE_CFG.sample_us (schDiePage 3) ≠ 0 ∧ Memory.wf on.mem = true := by decide +kernel

/-- A decay halves the assignments of its die alone (R184). -/
theorem test_spray_decay : ∃ t, exec (.sprayDecay 1) { on with sw := { on.sw with spray := [(8191, 9), (8192, 9)] } } = .next t
    ∧ t.sw.spray = [(8191, 9), (8192, 4)] := ⟨_, rfl, by decide +kernel⟩

/-! ### Flights (statements ScalarInstructionsRetire to VectorAndExactInstructionsRetire) -/

/-- A CONTRIB event of group 0's chunk 0 for its landing on die 3, with 8 input bytes: 1.0 and 2.0 of format 1. -/
def flightEvent (code : Nat) : FlightEvent := ⟨⟨0, 0, 0, 0⟩, 3, code, 2, 0, 0, none, natLe 4 0x3F800000 ++ natLe 4 0x40000000, 1, false, false, []⟩

/-- An activation of slot 0 at its first word, with these scalar registers, ports and steps. -/
def act (r : Sparse Nat) (sp : Sparse Stream) (steps : Nat) : Activation := ⟨flightEvent 1, 0, 0, r, [], [(2, 0), (3, 0)], sp, [], 0, [], steps, false, 0⟩

/-- Context 3 of core 31 is at the word `w`; its landing's group is `g`. -/
def fly (w : Nat) (a : Activation) (g : Group) (l : Landing) : State :=
  { on with
    coll := { on.coll with groups := [(0, g)], dir := [{ live with landings := [l] }] }
    cores := [(31, { Core.fresh with slots := [(0, ⟨[w], 0, 0⟩)], ctxs := [(3, a)] })] }

theorem met_issues (w : Nat) (r : Sparse Nat) (sp : Sparse Stream) (n : Nat) (g : Group) (m : List Host.Cell) :
    (fly w (act r sp n) g { landing with window := m }).issues 31 3 w (act r sp n) { live with landings := [{ landing with window := m }] }
      { landing with window := m } := ⟨rfl, rfl, rfl, _, rfl, rfl⟩

theorem met_mayIssue (w : Nat) (r : Sparse Nat) (sp : Sparse Stream) (g : Group) (m : List Host.Cell) :
    (fly w (act r sp 0xFFFF) g { landing with window := m }).mayIssue 31 3 w (act r sp 0xFFFF)
      { live with landings := [{ landing with window := m }] } { landing with window := m } := ⟨by
  show (waitsForPasses (opOf w) && false && _) = false
  rw [Bool.and_false, Bool.false_and], by
  show 0xFFFF < (fly 0 (act [] [] 0) (grp 0) landing).rd CMB_CFG.max_steps (cmbPage 31)
  decide +kernel⟩

/-- The word of an opcode with these other bits. -/
def word (op rest : Nat) : Nat := op * 2 ^ 26 + rest

theorem met_ScalarInstructionsRetire : (∀ op ∈ [0x00, 0x02, 0x03, 0x04, 0x05, 0x06, 0x07, 0x08, 0x09, 0x0A, 0x0B, 0x0C, 0x0D, 0x0E, 0x0F, 0x10, 0x11, 0x12, 0x13, 0x18,
      0x19], ∀ low ∈ [0, 2 ^ 26 - 1], opOf (word op low) = op)
    ∧ bits (word 0x08 13) 0 4 = 13 ∧ 14 ≤ bits (word 0x08 14) 0 4
    ∧ (let w := word 0x0A (63 * 2 ^ 10)
      bits w 10 6 + (bits w 4 6 + 1) = 64)
    ∧ (let x := 8184
      (x + 8 * bits (word 0x0B 0) 0 16) % 2 ^ 64 % 8 = 0 ∧ (x + 8 * bits (word 0x0B 0) 0 16) % 2 ^ 64 + 8 ≤ landing.size)
    ∧ (let x := 2 ^ 64 - 8
      (x + 8 * bits (word 0x0C 1) 0 16) % 2 ^ 64 = 0) := by decide +kernel

/-- A bound that the address just misses, and one that it meets: LDW of the last quadword retires, of the next faults with BOUND (R322). -/
theorem test_ldw_bound : (∃ t, exec (.ldw 31 3 .ok) (fly (word 0x0B (2 * 2 ^ 21 + 2 ^ 16)) (act [(1, 8184)] [] 0) (grp 0) landing) = .next t
      ∧ (t.core 31).ctxs.length = 1)
    ∧ ∃ t, exec (.ldw 31 3 .ok) (fly (word 0x0B (2 * 2 ^ 21 + 2 ^ 16)) (act [(1, 8192)] [] 0) (grp 0) landing) = .next t ∧ (t.core 31).ctxs = [] :=
  ⟨⟨_, rfl, by decide +kernel⟩, ⟨_, rfl, by decide +kernel⟩⟩

/-- SUB wraps modulo 2^64 (R321). -/
theorem test_alu_sub_wraps : ∃ t, exec (.alu 31 3) (fly (word 0x08 (3 * 2 ^ 21 + 2 ^ 16 + 2 * 2 ^ 11 + 1)) (act [(1, 1), (2, 2)] [] 0) (grp 0) landing) = .next t
    ∧ (((t.core 31).ctxs.find? fun x => x.1 == 3).map fun x => Sparse.get 0 x.2.s 3) = some (2 ^ 64 - 1) := ⟨_, rfl, by decide +kernel⟩

theorem met_FlightsStopAtMaxSteps : let s := fly (word 0x02 0) (act [] [] 0x10000) (grp 0) landing
    (∀ y ∈ (s.core 31).ctxs, y.1 = 3 → y.2 = act [] [] 0x10000) ∧ (s.runOf 31 3 (act [] [] 0x10000) { live with landings := [landing] } landing).mustWait (word 0x02 0) = false ∧ s.passWaits 31 3 = false
      ∧ s.rd CMB_CFG.max_steps (cmbPage 31) ≤ (act [] [] 0x10000).steps ∧ opOf (word 0x02 0) = 0x02 ∧ landing.core = 31 := by decide +kernel

/-- The last step allowed retires; one more faults with STEPS (R331). -/
theorem test_max_steps : (∃ t, exec (.sync 31 3) (fly (word 0x02 0) (act [] [] 0xFFFF) (grp 0) landing) = .next t ∧ t.rd CMB_FAULT.reason (cmbPage 31) = 0)
    ∧ ∃ t, exec (.sync 31 3) (fly (word 0x02 0) (act [] [] 0x10000) (grp 0) landing) = .next t ∧ t.rd CMB_FAULT.reason (cmbPage 31) = 7 :=
  ⟨⟨_, rfl, by decide +kernel⟩, ⟨_, rfl, by decide +kernel⟩⟩

/-- Ports: sp0 the input, sp1 and sp2 FP32 in the window, sp3 MX in the window, sp4 WP in the window, sp5 accumulator words. -/
def ports : Sparse Stream := [(0, ⟨.input, 1, false, false, 0, 0, 0, 0⟩), (1, ⟨.window, 1, false, false, 0, 0, 0, 0⟩), (2, ⟨.window, 1, false, false, 4096, 0, 0, 0⟩),
  (3, ⟨.window, 6, true, false, 8000, 0, 0, 0⟩), (4, ⟨.window, 14, false, false, 4096, 0, 0, 0⟩), (5, ⟨.window, 1, false, true, 4096, 0, 0, 0⟩)]

/-- What `k` computes succeeds. -/
def succeeds {ε α : Type} (x : Except ε α) : Bool := match x with
  | .ok _ => true
  | .error _ => false

/-- A landing with two WP elements, 1.0 each, at window byte 4096. -/
def wpLanding : Landing := { landing with window := Memory.writeN [] 4096 (wpWrite 1 (codeVal 1 0x3F800000) ++ wpWrite 1 (codeVal 1 0x3F800000)) }

/-- The run that an instruction of activation `act r ports 0` starts from, with group `g`. -/
def running (g : Group) : Run := (fly 0 (act [] ports 0) g wpLanding).begun 31 3 (act [] ports 0) { live with landings := [wpLanding] } wpLanding .ok 0

/-- Port `i`. -/
def port (i : Nat) : Stream := ((ports.find? fun y => y.1 == i).map fun y => y.2).getD ⟨.out, 1, false, false, 0, 0, 0, 0⟩

/-- Groups of one member: an EXACT SUM of format 1, the same in FAST mode, a MIN of format 1, and of MX elements of format 6. -/
def grpOp (q2 : Nat) : Group := { grp 0 with q := [2 ^ 20 + 1024, 1, q2, 0, 0, 0, 0, 0] }
def sumG : Group := grpOp (2 ^ 60 + 2 ^ 55)
def fastG : Group := grpOp (2 ^ 60 + 2 ^ 55 + mFast * 2 ^ 47)
def minG : Group := grpOp (2 ^ 60 + 2 ^ 55 + opMin * 2 ^ 50)
def minMxG : Group := grpOp (6 * 2 ^ 60 + 2 ^ 59 + 6 * 2 ^ 55 + 2 ^ 54 + opMin * 2 ^ 50)

/-- The start of the window as a port of the group's input format. -/
def start (g : Group) : Stream := ⟨.window, g.inFmt, g.inMx, false, 0, 0, 0, 0⟩

theorem met_VectorAndExactInstructionsRetire : (fly 0 (act [] ports 0) sumG wpLanding).core 31 = { (fly 0 (act [] ports 0) sumG wpLanding).core 31 with
      vecArm := [], xseArm := [] }
    ∧ (∀ op ∈ [0x1A, 0x1B, 0x1C, 0x1D, 0x1E, 0x20, 0x21], ∀ low ∈ [0, 2 ^ 26 - 1], opOf (word op low) = op)
    ∧ (let r := running sumG
      let x := fun i => r.putCodes (port 1) (List.replicate i 0)
      succeeds (r.codes (port 1) 1024) = true ∧ fmtBits (port 1).fmt ≤ 32 ∧ succeeds (x 1024) = true
        ∧ succeeds (r.raw (port 3) 32 >>= fun c => r.putBlocks (port 3) 32 c) = true ∧ (port 3).mx = true ∧ (port 3).pos % 32 = 0
        ∧ succeeds (r.wps (port 4) 2 >>= fun c => r.putWps (port 4) c) = true ∧ (port 4).fmt = 14
        ∧ succeeds (r.codes (port 0) 2 >>= fun c => r.putCodes (port 1) c) = true ∧ succeeds (r.operand 0 (port 0) 2) = true
        ∧ succeeds (r.vbinB 0 1 0 1 2) = true ∧ (port 1).fmt = typeFmt 0 ∧ (port 1).fixed = true
        ∧ succeeds (r.vals (port 0) 2 >>= fun c => r.putRounded ⟨0, false, 0, 0, 1⟩ (port 1) 0 3 c) = true
        ∧ succeeds (r.vals (port 1) 32 >>= fun c => r.putBlocks (port 3) 32 ((r.blockAll ⟨0, false, 2, 0, 1⟩ 6 0 c).flatMap fun b => b.bytes 6)) = true
        ∧ succeeds (r.accums 0 2) = true ∧ succeeds (r.vals (port 0) 2) = true ∧ succeeds (r.wps (port 4) 2) = true ∧ succeeds (r.raw (port 5) 2) = true
        ∧ (port 5).acc = true ∧ succeeds (r.xdest 7 1 false) = true ∧ succeeds (r.xdest 7 14 false) = true ∧ succeeds (r.xdest 7 6 true) = true)
    ∧ (sumG.sums = true ∧ sumG.mode ≠ mFast ∧ (port 0).fmt = sumG.inFmt ∧ fastG.mode = mFast ∧ minG.sums = false ∧ minG.mode ≠ mFast ∧ minMxG.inMx = true)
    ∧ succeeds ((running minG).codes (start minG) 2 >>= fun c => (running minG).putCodes (start minG) c) = true
    ∧ succeeds ((running minMxG).raw (start minMxG) 32 >>= fun c => (running minMxG).putBlocks (start minMxG) 32 c) = true := by decide +kernel

/-- A FAST group of INT32 elements. -/
def intG : Group := grpOp (11 * 2 ^ 60 + 11 * 2 ^ 55 + mFast * 2 ^ 47)

theorem met_vquant_residuals_and_fast_integers :
    (let r := running sumG
      let u := r.vals (port 1) 32 >>= fun c => r.putBlocks (port 3) 32 ((r.blockAll ⟨0, false, 2, 0, 1⟩ 6 0 c).flatMap fun b => b.bytes 6)
      succeeds (u >>= fun u => (u.pass 3 32 0).port 2 >>= fun z => (u.pass 3 32 0).putCodes z (List.replicate 32 0)) = true)
    ∧ ((port 2).fmt = 1 ∧ (port 2).mx = false ∧ (port 2).acc = false) ∧ fastG.exactSums = false ∧ intG.exactSums = true
    ∧ succeeds ((running intG).accums 0 2) = true ∧ (∀ x ∈ [(1, 0), (2, 0), (4, 1), (5, 2)], succeeds ((running sumG).vbinB 0 x.1 x.2 1 2) = true) := by
  decide +kernel

/-- XADD of 1.0 and 2.0 in EXACT mode, then XROUND of the two positions to sp7, gives them back (R244, R247). -/
theorem test_xadd_xround : (∃ t, exec (.xadd 31 3 .ok 0) (fly (word 0x20 (2 ^ 18 + 2 * 2 ^ 13)) (act [(1, 0), (2, 2)] ports 0) sumG landing) = .next t
      ∧ (t.landing? ⟨0, 0, 0, 0⟩ 3).map (fun l => decide (l.window = [])) = some false)
    ∧ ∃ t, exec (.xround 31 3 .ok 0) (fly (word 0x21 (7 * 2 ^ 23 + 2 ^ 18 + 2 * 2 ^ 13 + 2 ^ 11)) (act [(1, 0), (2, 2)] ports 0) sumG landing) = .next t
      ∧ ((t.core 31).ctxs.map fun x => x.2.out) = [List.replicate 8 0] := ⟨⟨_, rfl, by decide +kernel⟩, ⟨_, rfl, by decide +kernel⟩⟩

/-- VBIN adds 1.0 and 0.0 into the window (R323). -/
theorem test_vbin_add : ∃ t, exec (.vbin 31 3 .ok) (fly (word 0x1C (2 ^ 23 + 2 * 2 ^ 15 + 2 * 2 ^ 8 + 2 ^ 4)) (act [(2, 2)] ports 0) sumG landing) = .next t
    ∧ (t.landing? ⟨0, 0, 0, 0⟩ 3).map (fun l => Memory.readN l.window 0 8) = some (natLe 4 0x3F800000 ++ natLe 4 0x40000000) := ⟨_, rfl, by decide +kernel⟩

/-! ### Activations, arrays, landings, memories (statements ActivationsStartSendAndEnd to EveryStepKeepsMemoryAndMapsCanonical) -/

/-- A CLAIM event waits in core 31, with a slot 0 of job `job`, or none, and contexts 0 to 2 in use. -/
def waitingEvent (slots : Sparse FlightSlot) : State := let s := fly 0 (act [] [] 0) (grp 0) landing
  let ctxs := [0, 1, 2].map fun i => (i, { act [] [] 0 with event := { flightEvent 1 with die := i } })
  { s with cores := [(31, { Core.fresh with events := [flightEvent 0], slots := slots, ctxs := ctxs })] }

/-- An activation with a RESULT of two FP32 elements in sp7, at an FSEND. -/
def sending (r : Nat) : Activation := { act [(1, 0), (2, 2), (3, r)] [] 0 with out := List.replicate 8 0, outCount := 2, outFmts := [(1, false)] }
def sendWord : Nat := word 0x28 (2 ^ 24 + 2 ^ 19 + 2 * 2 ^ 14)

/-- Group 0's landing at an FSEND: two chunk elements counted. -/
def fsending : State := let s := fly sendWord (sending 0) sumG landing
  { s with coll := { s.coll with dir := [{ live with landings := [landing], count := some 2 }] } }

theorem met_ActivationsStartSendAndEnd :
    (∀ l ∈ ([[], [(0, ⟨[0], 0, 0⟩)], [(0, ⟨[0], 1, 0⟩)]] : List (Sparse FlightSlot)), let s := waitingEvent l
      ((s.core 31).events.find? fun v => !(s.core 31).running v) = some (flightEvent 0)
        ∧ ((List.range 4).find? fun i => !Sparse.has (s.core 31).ctxs i) = some 3 ∧ s.live? (flightEvent 0).key = some { live with landings := [landing] }
        ∧ Entry.on? { live with landings := [landing] } 3 = some landing ∧ ((s.core 31).slots.find? fun y => y.1 == (s.group 0).flight) = l.head?
        ∧ (s.group 0).job = 0)
    ∧ (let r := fsending.begun 31 3 (sending 0) { live with landings := [landing], count := some 2 } landing .ok 0
      opOf sendWord = 0x28 ∧ bits sendWord 24 2 = 1 ∧ landing.kind = .head ∧ r.payloadOk (sumG.resFmt, sumG.resMx) 2 = true
        ∧ sumG.fragOk true 2 0 2 = true ∧ frameTreads 8 ≤ landing.treads ∧ fsending.boot.plan = some plan)
    ∧ opOf (word 0x01 0) = 0x01 ∧ (act [] [] 0).chain = false ∧ ({ act [] [] 0 with chain := true }).chain = true
    ∧ (∀ c ∈ [0, 1, 2, 3, 4, 5], (flightEvent c).code = c ∧ (flightEvent c).frame = none)
    ∧ Entry.head? { live with landings := [landing] } = some landing ∧ live.heldFrags = [] := by decide +kernel

/-- The lowest free context starts (R315); a slot that holds no program faults with SLOT_EMPTY, one of another job with JOB (R332). -/
theorem test_activation_start : (∃ t, exec (.activationStart 31) (waitingEvent [(0, ⟨[0], 0, 0⟩)]) = .next t ∧ (t.core 31).ctxs.length = 4
      ∧ (t.core 31).events = [])
    ∧ (∃ t, exec (.activationStart 31) (waitingEvent []) = .next t ∧ t.rd CMB_FAULT.reason (cmbPage 31) = 1)
    ∧ ∃ t, exec (.activationStart 31) (waitingEvent [(0, ⟨[0], 1, 0⟩)]) = .next t ∧ t.rd CMB_FAULT.reason (cmbPage 31) = 2 :=
  ⟨⟨_, rfl, by decide +kernel⟩, ⟨_, rfl, by decide +kernel⟩, ⟨_, rfl, by decide +kernel⟩⟩

/-- A tile of FP16 elements at byte `off`, rows 64 bytes apart. -/
def tile (off : Nat) : Nat := 2 * 2 ^ 33 + off + 64 * 2 ^ 48

/-- A PASS of an m by 1 by 1 product, PLAIN, STORE to handle 4. -/
def passWord : Nat := word 0x24 (2 ^ 21 + 2 * 2 ^ 18 + 3 * 2 ^ 15 + 4 * 2 ^ 12)
def passing (m n k : Nat) : Activation := { act [(1, m + n * 2 ^ 8 + k * 2 ^ 16)] [] 0 with t := [(2, tile 0), (3, tile 256), (4, tile 512)] }

/-- The pass that queues, and core 31 with this array. -/
def onePass : PassReq := ⟨⟨0, 0, 0, 0⟩, 3, 3, 0, passWord, 0, 0, 1, 1, 1, tile 0, 0, tile 256, 0, 0, .plain, .plain, false, 0, [tile 512], 0, false, 0, false⟩
def arrayed (x : Array_) (arm : List (Nat × Nat × Nat)) : State := let s := fly passWord (passing 1 1 1) (grp 0) landing
  { put s [(ARR_STATUS.duty, arrPage 31, 128, 0), (ARR_CFG.filler_enable, arrPage 31, 1, 0)] with
    cores := [(31, { s.core 31 with array := x, arrArm := arm })] }

theorem met_ArraysRunTheirPasses :
    (let s := fly passWord (passing 1 1 1) (grp 0) landing
     opOf passWord = 0x24 ∧ s.passWaits 31 3 = false
        ∧ succeeds ((s.begun 31 3 (passing 1 1 1) { live with landings := [landing] } landing .ok 0).arrayPass passWord) = true)
    ∧ (arrayed { Array_.fresh with queue := List.replicate 64 { onePass with ctx := 2 } } []).passWaits 31 3 = true
    ∧ (arrayed { Array_.fresh with queue := List.replicate 63 { onePass with ctx := 2 } } []).passWaits 31 3 = false
    ∧ (∀ q ∈ [129 + 2 ^ 8 + 2 ^ 16, 1 + 129 * 2 ^ 8 + 2 ^ 16], 128 < bits q 0 8 ∨ 128 < bits q 8 8)
    ∧ (let s := arrayed { Array_.fresh with queue := [onePass] } []
      let y := (s.core 31).array.boundary s.now
      128 ≤ s.rd ARR_STATUS.duty (arrPage 31) ∧ y.bankFor onePass = some 0 ∧ s.landing? onePass.key 3 = some landing ∧ (y.bank 0).state = .free
        ∧ (s.core 31).arrArm = [])
    ∧ (let x := { Array_.fresh with bank1 := ⟨.draining, 0, some onePass, [(0, 5)], 0⟩ }
      x.drainBank = some 1 ∧ (x.bank 1).pass = some onePass ∧ Array_.fresh.drainBank = none)
    ∧ (let s := arrayed { Array_.fresh with gapAt := some 0 } [(127, 127, 2)]
      s.inGap 31 = true ∧ s.rd ARR_STATUS.duty (arrPage 31) ≠ 0 ∧ bit (s.rd CTL_RETIRE.retired ctlPkgPage) 31 = false
        ∧ s.flag ARR_CFG.filler_enable (arrPage 31) = true ∧ (s.core 31).array.inState .accumulating = none)
    ∧ on.mayWrite 0 (xsePage 31) XSE_INJECT.arm.off = true ∧ on.mayWrite 0 (arrPage 31) ARR_INJECT.arm.off = true
    ∧ on.mayWrite 0 (vecPage 31) VEC_INJECT.arm.off = true := by decide +kernel

/-- A queued pass starts in bank 0, the bank not used last (R300). -/
theorem test_array_start : ∃ t, exec (.arrayPassStart 31 .ok) (arrayed { Array_.fresh with queue := [onePass] } []) = .next t
    ∧ (t.core 31).array.queue = [] ∧ (t.core 31).array.bank0.state = .accumulating ∧ (t.core 31).array.last = 0 := ⟨_, rfl, by decide +kernel⟩

theorem met_chains_gaps_and_armed_fillers :
    Array_.fresh.bankFor { onePass with chained := true } = none
    ∧ (∀ tag ∈ [5, 1024], let y : Array_ := { Array_.fresh with last := 0, bank0 := ⟨.chainHeld, tag, some onePass, [], 0⟩ }
      y.bankFor { onePass with chained := true } = some 0 ∧ decide ((y.bank 0).tag / 1024 = onePass.tag / 1024) = decide (tag = 5))
    ∧ (let y : Array_ := { Array_.fresh with bank0 := ⟨.draining, 5, some onePass, [], 0⟩ }
      y.bankFor onePass = some 0 ∧ (y.bank 0).state ≠ .free)
    ∧ (∀ z ∈ ((arrayed Array_.fresh [(1, 1, 3)]).core 31).arrArm, 2 < z.2.2)
    ∧ (Array_.fresh.inState .accumulating = none ∧ 0 + 2000 ≤ ({ on with now := 2000 } : State).now)
    ∧ (arrayed Array_.fresh []).inGap 31 = false
    ∧ (put (arrayed Array_.fresh []) [(ARR_STATUS.duty, arrPage 31, 127, 0)]).rd ARR_STATUS.duty (arrPage 31) < 128 := by decide +kernel

/-- Group 0 and its one entry. -/
def landed (x : Group) (e : Entry) : State := { on with coll := { on.coll with groups := [(0, x)], dir := [e] } }

/-- An entry with its one contribution and this landing. -/
def contributed (check : Nat) (l : Landing) : Entry := { live with landings := [l], contribs := [⟨0, 0, 0, 0, check, 0, 1, 0, false, false⟩], hallDone := false, count := some 1 }

/-- The group with a second hall in its mask, in EXACT mode, and COMPRESSED with residual areas. -/
def twoHalls : Group := { sumG with q := [2 ^ 20 + 1024, 3, 2 ^ 60 + 2 ^ 55, 0, 0, 0, 0, 0] }
def feeding : Group := { sumG with q := [2 ^ 20 + 1024, 3, 2 ^ 60 + 2 ^ 55 + mCompressed * 2 ^ 47, 2 ^ 24, 6 * 2 ^ 60 + 2 ^ 59 + 128 * 2 ^ 48 + 1, 0, 0, 0] }

/-- A landing at a stage of its residual area, and the area. -/
def staged (st : AreaStage) (a : Area) : State := { landed feeding (contributed 0 { landing with stage := st }) with
  coll := { (landed feeding (contributed 0 { landing with stage := st })).coll with areas := [(0, a)] } }

theorem met_LandingsMoveThroughTheirStages : on.live? ⟨0, 0, 0, 0⟩ = none
    ∧ (∀ x ∈ [sumG, twoHalls, feeding], let e := contributed 0 landing
      (landed x e).live? ⟨0, 0, 0, 0⟩ = some e ∧ e.head? = some landing ∧ (landed x e).hallReady e x = true ∧ (landed x e).linearVerify e x landing false ≠ some false)
    ∧ (let e := contributed 5 landing
      (landed sumG e).hallReady e sumG = true ∧ (landed sumG e).linearVerify e sumG landing false = some false)
    ∧ sumG.k = 1 ∧ twoHalls.k = 2 ∧ (landed feeding live).usesArea ⟨0, 0, 0, 0⟩ = true ∧ (landed twoHalls live).usesArea ⟨0, 0, 0, 0⟩ = false
    ∧ (let l := { landing with state := .emit }
      l.open_ = 0 ∧ l.emitRaised = false ∧ (contributed 0 l).head? = some l)
    ∧ (let m := { landing with kind := .die, die := 1 }
      let e := { contributed 0 landing with landings := [landing, m] }
      (landed sumG e).live? ⟨0, 0, 0, 0⟩ = some e ∧ e.on? 1 = some m ∧ e.on? 2 = none ∧ e.contribs.length = sumG.halls.getD 0 0)
    ∧ (∀ a ∈ [Area.new, { Area.new with fresh := false, next := 0 }, { Area.new with fresh := false, next := 1, prevValid := true }],
      (staged .waiting a).area 0 0 = a ∧ a.held = false ∧ (a.fresh = true ∨ a.next = 0 ∨ a.prevValid = true ∧ a.next = 1)
        ∧ (staged .waiting a).rd CTL_DIE_STATE.state (ctlDiePage (areaDie 0 0)) = 0)
    ∧ (∀ st ∈ [AreaStage.copying, .writeBack], (staged st Area.new).live? ⟨0, 0, 0, 0⟩ = some (contributed 0 { landing with stage := st })) := by decide +kernel

theorem met_mismatches_and_merged_landings :
    (let e := contributed 5 { landing with emitRaised := true }
     e.sent = false ∧ (∀ l ∈ e.landings, l.kind ≠ .relay ∧ (l.kind ≠ .head ∨ l.state = .open_)))
    ∧ (let e := { contributed 5 landing with sent := true }
      e.sent = true ∧ (landed sumG e).live? ⟨0, 0, 0, 0⟩ = some e)
    ∧ (let m := { landing with kind := .die, die := 1, state := .merge }
      ({ live with landings := [landing, m] } : Entry).on? 1 = some m)
    ∧ (∀ check ∈ [0, 5], let l := { landing with state := .gallery }
      let e := { contributed check l with hallDone := true }
      (landed sumG e).galleryDone e sumG = true ∧ decide ((landed sumG e).linearVerify e sumG l true = some false) = decide (check = 5)) := by
  decide +kernel

/-- A head with k = 1 enters EMIT; with k = 2 it raises HALL (R272). -/
theorem test_hall_stage : (∃ t, exec (.hallStageComplete ⟨0, 0, 0, 0⟩) (landed sumG (contributed 0 landing)) = .next t
      ∧ (t.landing? ⟨0, 0, 0, 0⟩ 3).map (fun l => l.state) = some .emit)
    ∧ ∃ t, exec (.hallStageComplete ⟨0, 0, 0, 0⟩) (landed twoHalls (contributed 0 landing)) = .next t ∧ ((t.core 31).events.map fun v => v.code) = [3] :=
  ⟨⟨_, rfl, by decide +kernel⟩, ⟨_, rfl, by decide +kernel⟩⟩

/-- A landing record of core 31 as the newest record of die 0. -/
def recorded : State := { put on [(CTL_ERR_PRODUCER.producer, ctlPkgPage, 1, 0)] with rel := { on.rel with records := [(0, [0, 0x0109 * 2 ^ 48 + 31 * 2 ^ 26, 0, 0, 0, 0, 0, 0])] } }

/-- LPDDR6 device 11 trained and in use. -/
def trained : State := put on [(MEM_STATUS.ch0_trained, memPage 11, 1, 0), (MEM_STATUS.ch1_trained, memPage 11, 1, 0), (MEM_SCRUB.period_h, memPage 11, 24, 0),
  (MEM_CFG.retrain_ms, memPage 11, 1, 0)]

theorem met_MemoriesQuotesAndHealth :
    (let s := put on [(F2F_SCRUB.period_h, f2fPage 3, 24, 0)]
     s.rd F2F_SCRUB.period_h (f2fPage 3) ≠ 0 ∧ s.dramReady 3 = true ∧ State.reset.dramReady 3 = false)
    ∧ (trained.flag MEM_STATUS.unused (memPage 11) = false ∧ trained.flag MEM_STATUS.self_refresh (memPage 11) = false
      ∧ trained.flag MEM_STATUS.ch0_trained (memPage 11) = true ∧ trained.flag MEM_STATUS.ch1_trained (memPage 11) = true
      ∧ trained.rd MEM_SCRUB.period_h (memPage 11) ≠ 0 ∧ trained.rd MEM_CFG.retrain_ms (memPage 11) ≠ 0 ∧ on.flag MEM_STATUS.ch0_trained (memPage 11) = false)
    ∧ Sparse.has trained.boot.trainTemp 11 = false ∧ Sparse.has { trained with boot := { trained.boot with trainTemp := [(11, 600)] } }.boot.trainTemp 11 = true
    ∧ recorded.errIndex 0 = Sparse.get 0 recorded.rel.readTo 0 + 1 ∧ (∀ e : Fin 4, e ≠ 0 → recorded.errIndex e.val ≤ Sparse.get 0 recorded.rel.readTo e.val)
    ∧ (let k := 0 * 2 ^ 24 + Sparse.get 0 recorded.rel.readTo 0 % 2 ^ 24
       k ∉ recorded.rel.badRecords ∧ k ∈ (recorded.badRecord 0).rel.badRecords)
    ∧ trained.lpRegion 3 (4 * 2 ^ 30 + 64) = 4 ∧ (4 * 2 ^ 30 + 64) / 256 % 6 / 2 = 11 % 3
    ∧ 1024 / 256 % 6 / 2 = 11 % 3 ∧ (MemFind.mk 1024 1 false 0 .nothing).symbols = 1
    ∧ on.mayWrite 0 secPage SEC_QUOTE_CTRL.offset.off = true ∧ (stagingSize - 448 + 448 ≤ stagingSize ∧ ¬stagingSize - 447 + 448 ≤ stagingSize)
    ∧ (∀ e : Fin 4, on.errIndex e.val ≤ Sparse.get 0 on.rel.readTo e.val)
    ∧ (coreErrOf (Sparse.get [] recorded.rel.records 0)).isSome = true
    ∧ on.mayWrite 0 ctlPkgPage CTL_RETIRE.retired.off = true ∧ on.retired 31 = false
    ∧ on.boot.plan.isSome = true ∧ (linked psUp lit).scored 0 = true ∧ on.scored 511 = false
    ∧ on.readerOn = true ∧ on.mayWrite 0 ctrPkgPage CTR_SWEEP_CTRL.once.off = true
    ∧ (put on [(CTR_SWEEP_CFG.run, ctrPkgPage, 1, 0)]).flag CTR_SWEEP_CFG.run ctrPkgPage = true := by decide +kernel

/-- A record that does not read is marked by the scrub, and skipped and counted by firmware (R363). -/
theorem test_bad_record : (∃ t, exec (.lpddr6Scrub 11 [⟨4 * 2 ^ 30 + 64, 0, false, 0, .nothing⟩]) trained = .next t ∧ t.rel.badRecords = [3 * 2 ^ 24 + 1])
    ∧ ∃ t, exec .errorCorrelation (recorded.badRecord 0) = .next t ∧ t.rel.history = [] ∧ t.rd MEM_ECC_COUNT.uncorrected (memPage 1) = 1
      ∧ Sparse.get 0 t.rel.readTo 0 = 1 := ⟨⟨_, rfl, by decide +kernel⟩, ⟨_, rfl, by decide +kernel⟩⟩

/-- Above 85.0 degrees DRAM refreshes at double rate (R355). -/
theorem test_dram_refresh : (∃ t, exec (.dramRefresh 3 850) on = .next t ∧ t.rd F2F_STATUS.refresh_2x (f2fPage 3) = 0)
    ∧ ∃ t, exec (.dramRefresh 3 851) on = .next t ∧ t.rd F2F_STATUS.refresh_2x (f2fPage 3) = 1 := ⟨⟨_, rfl, by decide +kernel⟩, ⟨_, rfl, by decide +kernel⟩⟩

theorem met_EveryStepKeepsMemoryAndMapsCanonical : (∃ t, step { on with pending := [.lpddr6Refresh 0] } = .next t) ∧ Memory.wf on.mem = true
    ∧ Sparse.sorted on.regs = true ∧ Sparse.sorted on.shadow = true ∧ Sparse.sorted on.mgmt.qps = true := ⟨⟨_, rfl⟩, by decide +kernel⟩

theorem met_EveryStepKeepsTheInvariant : on.pinOk ∧ { on with pending := [Instr.powerOn 410] }.queueOk := by
  constructor
  · show on.power.faultN = !on.faulted
    decide +kernel
  · intro c hc
    rw [List.mem_singleton.mp hc]
    rfl

theorem met_WellFormedQueuesRunForever : State.reset.pinOk ∧ State.reset.queueOk := by
  constructor
  · show State.reset.power.faultN = !State.reset.faulted
    decide +kernel
  · intro c hc
    exact absurd hc List.not_mem_nil
end Sys2Proof.Tests
end

section
/-! SUPPORT. A write of a plain register (R12): the fields of one register lie under different keys, so that each takes what its own access
code gives it. -/

namespace Sys2Proof.Machine

/-! ### Where the copies of a field lie -/

/-- The bits of a field's copies lie in the register, each copy at its own. -/
def Fld.fits (f : Fld) : Bool :=
  decide (0 < f.per) && decide (f.lo + f.step * (f.per - 1) < 64) && (f.step != 0 || f.per == 1)

/-- Two fields share no register, or lie at different bits of it. -/
def Fld.apart (f g : Fld) : Bool :=
  decide (f.off + f.stride * (f.count / f.per - 1) < g.off) || decide (g.off + g.stride * (g.count / g.per - 1) < f.off)
    || decide (f.lo + f.step * (f.per - 1) < g.lo) || decide (g.lo + g.step * (g.per - 1) < f.lo)

/-- A copy that lies at a place of the register at `off`: its column there gives its lowest bit. -/
theorem Fld.inst?_place {f : Fld} (hf : f.fits = true) {off m i : Nat} (hm : m < f.per) (h : f.inst? off (f.lo + f.step * m) = some i) :
    f.offAt i = off ∧ f.loAt i = f.lo + f.step * m ∧ f.off ≤ off ∧ off ≤ f.off + f.stride * (f.count / f.per - 1) := by
  simp only [Fld.fits, Bool.and_eq_true, Bool.or_eq_true, decide_eq_true_eq, bne_iff_ne, beq_iff_eq] at hf
  obtain ⟨⟨hper, -⟩, hstep⟩ := hf
  have hcol : (if f.step = 0 then (if f.lo + f.step * m = f.lo then some 0 else none)
      else if f.lo ≤ f.lo + f.step * m ∧ (f.lo + f.step * m - f.lo) % f.step = 0 ∧ (f.lo + f.step * m - f.lo) / f.step < f.per then
        some ((f.lo + f.step * m - f.lo) / f.step) else none) = some m := by
    split_ifs with h0 h1 h2
    · simp only [Option.some.injEq]; omega
    · simp [h0] at h1
    · rw [Nat.add_sub_cancel_left, Nat.mul_div_cancel_left _ (by omega)]
    · rw [Nat.add_sub_cancel_left, Nat.mul_mod_right, Nat.mul_div_cancel_left _ (by omega)] at h2
      omega
  unfold Fld.inst? at h
  simp only [hcol] at h
  have hrow : ∀ r, i = r * f.per + m → off = f.off + f.stride * r → r ≤ f.count / f.per - 1 ∨ f.stride = 0 →
      f.offAt i = off ∧ f.loAt i = f.lo + f.step * m ∧ f.off ≤ off ∧ off ≤ f.off + f.stride * (f.count / f.per - 1) := by
    intro r hi ho hr
    have hdiv : i / f.per = r := by rw [hi, Nat.mul_comm, Nat.mul_add_div hper, Nat.div_eq_of_lt hm, Nat.add_zero]
    have hmod : i % f.per = m := by rw [hi, Nat.mul_add_mod_self_right, Nat.mod_eq_of_lt hm]
    refine ⟨by rw [Fld.offAt, hdiv, ho], by rw [Fld.loAt, hmod], by omega, ?_⟩
    rcases hr with hr | hr
    · exact ho ▸ Nat.add_le_add_left (Nat.mul_le_mul_left _ hr) _
    · simp [ho, hr]
  split_ifs at h with h0 h1 h2
  · exact hrow 0 (by simpa using h.symm) (by simpa using h1) (.inl (Nat.zero_le _))
  · obtain ⟨hle, hmod, hlt⟩ := h2
    refine hrow ((off - f.off) / f.stride) (by simpa using h.symm) ?_ (.inl (by omega))
    rw [Nat.mul_div_cancel' (Nat.dvd_of_mod_eq_zero hmod)]; omega

theorem Fld.mem_instsAt {f : Fld} (hf : f.fits = true) {off i : Nat} (h : i ∈ f.instsAt off) :
    f.offAt i = off ∧ f.off ≤ off ∧ off ≤ f.off + f.stride * (f.count / f.per - 1)
      ∧ f.lo ≤ f.loAt i ∧ f.loAt i ≤ f.lo + f.step * (f.per - 1) := by
  obtain ⟨m, hm, hi⟩ := List.mem_filterMap.mp h
  have hm := List.mem_range.mp hm
  obtain ⟨h1, h2, h3, h4⟩ := Fld.inst?_place hf hm hi
  refine ⟨h1, h3, h4, by omega, ?_⟩
  rw [h2]
  exact Nat.add_le_add_left (Nat.mul_le_mul_left _ (by omega)) _

/-- The copies of one field in a register lie at different bits. -/
theorem Fld.pairwise_instsAt {f : Fld} (hf : f.fits = true) (off : Nat) : (f.instsAt off).Pairwise fun i j => f.loAt i ≠ f.loAt j := by
  refine List.pairwise_filterMap.mpr (List.pairwise_lt_range.imp_of_mem fun {m n} hm hn hlt i hi j hj => ?_)
  have hm := List.mem_range.mp hm
  have hn := List.mem_range.mp hn
  rw [(Fld.inst?_place hf hm hi).2.1, (Fld.inst?_place hf hn hj).2.1]
  have hstep : 0 < f.step := by
    simp only [Fld.fits, Bool.and_eq_true, Bool.or_eq_true, decide_eq_true_eq, bne_iff_ne, beq_iff_eq] at hf
    omega
  exact fun e => absurd (Nat.eq_of_mul_eq_mul_left hstep (Nat.add_left_cancel e)) (by omega)

/-! ### The places of a register -/

/-- The key under which the field at a place is held. -/
def Place.key (p : Place) : Nat := p.fld.key p.base p.inst

/-- A table of fields that fit their registers and lie apart. -/
def tableOk (l : List Fld) : Bool := l.all Fld.fits && decide (l.Pairwise fun f g => f.apart g = true)

/-- The fields of the register at offset `off` of a block at `a` lie in that register, and under different keys. -/
theorem places_apart {l : List Fld} (h : tableOk l = true) (a off : Nat) :
    (∀ p ∈ l.flatMap fun f => (f.instsAt off).map fun i => Place.mk f a i, p.base = a ∧ p.key / 64 = a + off)
      ∧ (l.flatMap fun f => (f.instsAt off).map fun i => Place.mk f a i).Pairwise fun p q => p.key ≠ q.key := by
  simp only [tableOk, Bool.and_eq_true, List.all_eq_true, decide_eq_true_eq] at h
  obtain ⟨hfit, hap⟩ := h
  have hlt : ∀ f ∈ l, f.lo + f.step * (f.per - 1) < 64 := fun f hf => by
    have h := hfit f hf
    simp only [Fld.fits, Bool.and_eq_true, decide_eq_true_eq] at h
    exact h.1.2
  constructor
  · intro p hp
    obtain ⟨f, hf, hp⟩ := List.mem_flatMap.mp hp
    obtain ⟨i, hi, rfl⟩ := List.mem_map.mp hp
    obtain ⟨h1, -, -, -, h2⟩ := Fld.mem_instsAt (hfit f hf) hi
    have h3 := hlt f hf
    refine ⟨rfl, ?_⟩
    simp only [Place.key, Fld.key, h1]
    omega
  · refine List.pairwise_flatMap.mpr ⟨fun f hf => List.pairwise_map.mpr ?_, hap.imp_of_mem fun {f g} hf hg hfg p hp q hq => ?_⟩
    · refine (Fld.pairwise_instsAt (hfit f hf) off).imp_of_mem fun {i j} hi hj hne => ?_
      simp only [Place.key, Fld.key, (Fld.mem_instsAt (hfit f hf) hi).1, (Fld.mem_instsAt (hfit f hf) hj).1]
      omega
    · obtain ⟨i, hi, rfl⟩ := List.mem_map.mp hp
      obtain ⟨j, hj, rfl⟩ := List.mem_map.mp hq
      obtain ⟨h1, h2, h3, h4, h5⟩ := Fld.mem_instsAt (hfit f hf) hi
      obtain ⟨k1, k2, k3, k4, k5⟩ := Fld.mem_instsAt (hfit g hg) hj
      simp only [Fld.apart, Bool.or_eq_true, decide_eq_true_eq] at hfg
      simp only [Place.key, Fld.key, h1, k1]
      omega

/-! ### What a write leaves in the fields of a register -/

/-- What register word `v`, written to the field at a place that held `old`, leaves there (R12). -/
def Place.written (p : Place) (v old : Nat) : Nat :=
  let x := p.fld.legal (p.base / 4096 * 4096) (bits v (p.fld.loAt p.inst) p.fld.w)
  if p.fld.acc = .rw ∨ p.fld.acc = .rws then x else if p.fld.acc = .w1c then old - Nat.land old x else old

/-- The value that a field takes fits it: a reserved encoding reads as zero. -/
theorem Fld.legal_lt (f : Fld) (a x : Nat) (h : x < 2 ^ f.w) : f.legal a x < 2 ^ f.w := by
  unfold Fld.legal
  dsimp only
  split
  · split_ifs
    · exact h
    · exact Nat.two_pow_pos _
  · exact h

theorem Place.written_lt (p : Place) (v : Nat) {old : Nat} (h : old < 2 ^ p.fld.w) : p.written v old < 2 ^ p.fld.w := by
  unfold Place.written
  dsimp only
  split_ifs
  · exact Fld.legal_lt _ _ _ (Nat.mod_lt _ (Nat.two_pow_pos _))
  · exact lt_of_le_of_lt (Nat.sub_le _ _) h
  · exact h

/-- A field is written in place, or left as it is. -/
theorem putField_cases (s : State) (v : Nat) (p : Place) :
    let old := s.rd p.fld p.base p.inst
    (s.putField v p = s ∧ p.written v old = old) ∨ s.putField v p = s.wr p.fld p.base (p.written v old) p.inst := by
  unfold State.putField Place.written
  cases h : p.fld.acc <;> simp

/-- Fields under other keys stay. -/
theorem putField_kept (s : State) (v : Nat) (p : Place) : RegKept (· ≠ p.key) s (s.putField v p) := by
  rcases putField_cases s v p with ⟨e, -⟩ | e <;> rw [e]
  · exact RegKept.refl _ s
  · exact RegKept.wr s _ _ _ _ fun h => h rfl

theorem putField_rd_same (s : State) (v : Nat) (p : Place) :
    (s.putField v p).rd p.fld p.base p.inst = p.written v (s.rd p.fld p.base p.inst) := by
  rcases putField_cases s v p with ⟨e, hw⟩ | e <;> rw [e]
  · exact hw.symm
  · rw [State.rd_wr_same, Nat.mod_eq_of_lt (p.written_lt v (State.rd_lt _ _ _ _))]

/-- The fields written at places with different keys: each takes what its access code gives it, every other key stays, and so does all of the
state beside the registers. -/
theorem each_putField (v : Nat) : ∀ (l : List Place) (s : State), (l.Pairwise fun p q => p.key ≠ q.key) →
    let t := s.each l fun p s => s.putField v p
    (∀ p ∈ l, t.rd p.fld p.base p.inst = p.written v (s.rd p.fld p.base p.inst)) ∧ RegKept (fun k => ∀ p ∈ l, k ≠ p.key) s t
      ∧ t = { s with regs := t.regs }
  | [], s, _ => ⟨fun _ h => absurd h List.not_mem_nil, RegKept.refl _ s, rfl⟩
  | p :: l, s, h => by
    obtain ⟨hp, hl⟩ := List.pairwise_cons.mp h
    obtain ⟨h1, h2, h3⟩ := each_putField v l (s.putField v p) hl
    have hkeep : s.putField v p = { s with regs := (s.putField v p).regs } := by
      rcases putField_cases s v p with ⟨e, -⟩ | e <;> rw [e]
      rfl
    dsimp only [State.each_cons]
    refine ⟨fun q hq => ?_, ?_, ?_⟩
    · rcases List.mem_cons.mp hq with rfl | hq
      · rw [h2.rd fun r hr => hp r hr, putField_rd_same]
      · rw [h1 q hq, (putField_kept s v p).rd (hp q hq).symm]
    · exact ((putField_kept s v p).mono fun _ hk => hk p (.head l)).trans (h2.mono fun _ hk q hq => hk q (.tail p hq))
    · rw [h3, hkeep]

/-! ### Frames of one command -/

/-- What a command's effect keeps beside counters, events and errors, the command changes only where it may. -/
theorem ChangesOnly.of_kept {l : List Piece} {p q : Nat → Prop} {s : State} {f : State → State} (h : Kept p s.cleared (f s.cleared))
    (hm : .mgmt ∉ l → (f s.cleared).mgmt = s.mgmt) (hr : .rel ∉ l → (f s.cleared).rel = s.rel) (hq : ∀ k, ¬q k → p k) :
    ChangesOnly l q s (s.run f) := by
  refine ⟨rfl, rfl, fun x hx => ?_, fun d k hk => h.regs d k (hq k hk)⟩
  cases x with
  | banks => exact ⟨h.shadow, h.heldWrites, h.commitSeq⟩
  | mem => exact h.mem
  | power => show { (s.run f).power with faultN := s.power.faultN } = s.power; rw [State.run_power, h.power]; rfl
  | boot => exact h.boot
  | sec => exact h.sec
  | mgmt => exact hm hx
  | time => exact h.time
  | subs => exact h.subs
  | modules => exact h.modules
  | byp => exact h.byp
  | rel => exact hr hx
  | reader => exact h.reader
  | tables => exact h.tables
  | sw => exact h.sw
  | coll => exact h.coll
  | cores => exact h.cores

/-! ### Refused accesses change no records -/

theorem emit_rel (s : State) (o : Output) : (s.emit o).rel = s.rel := by
  unfold State.emit
  cases o.mgtFrames with
  | none => rfl
  | some x => exact count_rel _ _ _ _ _

theorem request_rel (s : State) (q : Nat) (x : Request) : (s.request q x).rel = s.rel := emit_rel _ _

theorem evrPut_rel (s : State) (e code sev page d0 d1 : Nat) : (s.evrPut e code sev page d0 d1).rel = s.rel := by
  unfold State.evrPut
  simp only [count_rel, State.inc, State.wr_rel, request_rel]

theorem event_rel (s : State) (e code sev page d0 d1 : Nat) : (s.event e code sev page d0 d1).rel = s.rel := by
  have h : ∀ t : State, (t.evrOverflow e).rel = t.rel := fun t => by
    unfold State.evrOverflow
    exact State.iff_keeps State.rel _ _ _ ((State.wr_rel _ _ _ _ _).trans (evrPut_rel _ _ _ _ _ _ _))
  unfold State.event
  dsimp only
  split_ifs
  · rfl
  · rw [count_rel]; exact h s
  · rw [evrPut_rel]; exact h s

theorem pageError_rel (s : State) (a code session detail : Nat) : (s.pageError a code session detail).rel = s.rel := by
  unfold State.pageError State.irqEdge
  dsimp only
  split_ifs
  · rfl
  · rw [State.iff_keeps State.rel _ _ _ (event_rel _ _ _ _ _ _ _)]
    rfl

theorem mgtPkgPage_aligned : mgtPkgPage % 4096 = 0 := by decide

/-- A refused access is counted in the package MGT page, and changes that page's registers, its event and counters alone (R53). -/
theorem refuseAccess_spec (s : State) (n : Nat) (mapped : Bool) (off : Nat) :
    Kept (noErr mgtPkgPage) s (s.refuseAccess n mapped off) ∧ (s.refuseAccess n mapped off).rel = s.rel
      ∧ (s.refuseAccess n mapped off).rd PG_ERR_COUNT.count mgtPkgPage = min (s.rd PG_ERR_COUNT.count mgtPkgPage + 1) (2 ^ 48 - 1) := by
  unfold State.refuseAccess
  have hc := count_kept (s.pageError mgtPkgPage (if mapped then 0x0003 else 0x0004) n (offDetail off)) mgtPkgPage 0x80 n 1 mgtPkgPage_aligned
  have hk : noCtr (PG_ERR_COUNT.count.key mgtPkgPage 0) := (pkg_noEvent _ _ _ mgtPkgPage_aligned (.inl (by decide)) (by decide) (by decide)).ctr
  refine ⟨(pageError_kept _ _ _ _ _ mgtPkgPage_aligned).trans (hc.mono fun _ h => h.event.ctr), ?_, ?_⟩
  · rw [count_rel, pageError_rel]
  · rw [hc.rd hk, (pageError_spec s _ _ _ _ mgtPkgPage_aligned (.inl (by decide))).1]

/-! ### The command REGISTER_WRITE -/

/-- REGISTER_WRITE of an aligned register address is performed. -/
theorem exec_registerWrite (s : State) (who : Fin 64) (addr : Nat) (v : BitVec 64) (h1 : addr % 8 = 0) (h2 : addr < 0x10000000) :
    exec (.registerWrite who addr v) s = .next (s.run (registerWrite who.val addr v.toNat)) := by
  show s.commandIf (addr % 8 == 0 && decide (addr < 0x10000000)) _ = _
  rw [h1, decide_eq_true h2]
  rfl

/-- A session that is not admitted writes nothing. -/
theorem registerWrite_inactive (s : State) (who addr v : Nat) (h : ¬(s.session who).active = true) : registerWrite who addr v s = s := if_neg h

/-- Where no page is mapped, or the session may not write, the access is refused (R53). -/
theorem registerWrite_denied {s : State} {who page off v : Nat} (hp : page % 4096 = 0) (ho : off % 8 = 0) (hlt : off < 4096)
    (hs : (s.session who).active = true) (h : isPage page = false ∨ s.mayWrite who page off = false) :
    ∃ mapped, registerWrite who (page + off) v s = s.refuseAccess who mapped off := by
  cases hb : blkOfPage page with
  | some b =>
    have hm : s.mayWrite who page off = false := h.resolve_left (by simp [isPage, hp, hb])
    exact ⟨true, registerWrite_refused hb hp hlt ho hs hm⟩
  | none =>
    have h4 : (page + off) / 0x1000 * 0x1000 = page := by omega
    have h5 : (page + off) % 0x1000 = off := by omega
    have h6 : (page + off) / 8 * 8 = page + off := by omega
    refine ⟨false, ?_⟩
    unfold registerWrite State.regWrite
    rw [if_pos hs, h6, State.writeRefused]
    simp only [h4, hb, Option.isNone_none, if_true, h5]

/-- Kinds of page whose registers have no effects beyond their access codes. -/
def plainBlks : List Blk := [.clk, .f2f, .msh, .mem, .swp, .schDie, .trg, .cmb, .mgtPort, .mgtPkg, .boot, .ctrDie]

theorem tableOk_plain : ∀ b ∈ plainBlks, tableOk b.fields = true := by decide +kernel

theorem writeBlk_plain {b : Blk} (hb : b ∈ plainBlks) (s : State) (who a off v : Nat) : s.writeBlk who a off v b = s.putReg a off v := by
  simp only [plainBlks, List.mem_cons, List.not_mem_nil, or_false] at hb
  rcases hb with rfl | rfl | rfl | rfl | rfl | rfl | rfl | rfl | rfl | rfl | rfl | rfl <;> rfl

/-- The places of a plain page's register lie in it, under different keys. -/
theorem placesAt_plain {b : Blk} (hb : b ∈ plainBlks) {a off : Nat} (ha : blkOfPage a = some b) (h1 : 0x100 ≤ off) (h2 : off < 0xF00) :
    (∀ p ∈ placesAt a off, p.base = a ∧ p.key / 64 = a + off) ∧ (placesAt a off).Pairwise fun p q => p.key ≠ q.key := by
  have hne : b ≠ .ctlRing ∧ b ≠ .ctlEvr := by
    constructor <;> rintro rfl <;> simp [plainBlks] at hb
  rw [placesAt_blk ha h1 h2 hne.1 hne.2]
  exact places_apart (tableOk_plain b hb) a off

end Sys2Proof.Machine

open Sys2Proof.Machine

/-- Settles O33: a write of a plain register goes field by field, and the fields of a register lie under different keys. -/
theorem registerWritesObeyTheirAccessCodes : Obligations.RegisterWritesObeyTheirAccessCodes := by
  intro s who page off v hp ho hlt haddr admitted plain errs
  have hexec := exec_registerWrite s who (page + off) v (by omega) haddr
  refine ⟨fun hs => ⟨_, hexec, ?_⟩, fun hs b hb hblk hmay h1 h2 => ⟨_, hexec, ?_⟩, fun hs hno => ⟨_, hexec, ?_⟩⟩
  · exact ChangesOnly.of_kept (p := fun _ => True) (by rw [registerWrite_inactive s.cleared _ _ _ hs]; exact Kept.refl _ _)
      (fun _ => by rw [registerWrite_inactive s.cleared _ _ _ hs]; rfl) (fun _ => by rw [registerWrite_inactive s.cleared _ _ _ hs]; rfl)
      fun _ _ => trivial
  · obtain ⟨hin, hapart⟩ := placesAt_plain hb hblk h1 h2
    have hw : registerWrite who.val (page + off) v.toNat s.cleared = s.cleared.each (placesAt page off) fun p s => s.putField v.toNat p := by
      rw [registerWrite_blk hblk hp h1 h2 ho (s := s.cleared) ⟨hs, hmay⟩, writeBlk_plain hb, State.putReg, State.putSome,
        List.filter_eq_self.mpr fun _ _ => rfl]
    obtain ⟨hval, hframe, hrest⟩ := each_putField v.toNat (placesAt page off) s.cleared hapart
    rw [← hw] at hval hframe hrest
    refine ⟨fun p hpl => ?_, ChangesOnly.of_kept (p := fun k => k / 64 ≠ page + off) ⟨fun d k hk => ?_, ?_⟩ (fun _ => ?_) (fun _ => ?_)
      fun _ hk => hk⟩
    · rw [State.run_rd, hval p hpl, Place.written, (hin p hpl).1, show page / 4096 * 4096 = page by omega]
      rfl
    · exact hframe d k fun p hpl e => hk (e ▸ (hin p hpl).2)
    · rw [hrest]; rfl
    · rw [hrest]; rfl
    · rw [hrest]; rfl
  · obtain ⟨mapped, hw⟩ := registerWrite_denied (v := v.toNat) hp ho hlt (s := s.cleared) hs hno
    obtain ⟨hk, hr, hc⟩ := refuseAccess_spec s.cleared who.val mapped off
    rw [← hw] at hk hr hc
    refine ⟨hc, ChangesOnly.of_kept hk (fun h => absurd (List.mem_singleton_self _) h) (fun _ => hr) fun k hk => ?_⟩
    simp only [onPages, shared, List.mem_singleton, not_or] at hk
    exact ⟨⟨hk.1, fun h => hk.2 h.1⟩, fun h => hk.2 h.1⟩
end

section
/-! SUPPORT. One instruction of a flight: what it leaves alone while it runs, and what its completion changes (R328 to R331). -/

namespace Sys2Proof.Machine

/-! ### What counting, errors and free values leave alone -/

/-- A state without the parts that counting, events, errors and taking free values touch. -/
def State.calm (s : State) : State := { s.still with freeCtr := 0 }

/-- `t` differs from `s` in register fields, outputs, queue pairs, records and free values taken at most. -/
def Calm (s t : State) : Prop := t.calm = s.calm

namespace Calm

variable {s t u : State}

theorem refl (s : State) : Calm s s := rfl
theorem trans (h : Calm s t) (k : Calm t u) : Calm s u := Eq.trans k h
theorem of_kept {p : Nat → Prop} (h : Kept p s t) : Calm s t := by
  unfold Calm State.calm
  rw [h.still]
theorem tick (s : State) (n : Nat) : Calm s (s.tickFree n) := rfl
theorem cleared (s : State) : Calm s s.cleared := rfl

theorem shadow (h : Calm s t) : t.shadow = s.shadow := (congrArg State.shadow h :)
theorem heldWrites (h : Calm s t) : t.heldWrites = s.heldWrites := (congrArg State.heldWrites h :)
theorem commitSeq (h : Calm s t) : t.commitSeq = s.commitSeq := (congrArg State.commitSeq h :)
theorem mem (h : Calm s t) : t.mem = s.mem := (congrArg State.mem h :)
theorem power (h : Calm s t) : t.power = s.power := (congrArg State.power h :)
theorem boot (h : Calm s t) : t.boot = s.boot := (congrArg State.boot h :)
theorem sec (h : Calm s t) : t.sec = s.sec := (congrArg State.sec h :)
theorem time (h : Calm s t) : t.time = s.time := (congrArg State.time h :)
theorem subs (h : Calm s t) : t.subs = s.subs := (congrArg State.subs h :)
theorem modules (h : Calm s t) : t.modules = s.modules := (congrArg State.modules h :)
theorem byp (h : Calm s t) : t.byp = s.byp := (congrArg State.byp h :)
theorem reader (h : Calm s t) : t.reader = s.reader := (congrArg State.reader h :)
theorem tables (h : Calm s t) : t.tables = s.tables := (congrArg State.tables h :)
theorem sw (h : Calm s t) : t.sw = s.sw := (congrArg State.sw h :)
theorem coll (h : Calm s t) : t.coll = s.coll := (congrArg State.coll h :)
theorem cores (h : Calm s t) : t.cores = s.cores := (congrArg State.cores h :)

theorem core (h : Calm s t) (c : Nat) : t.core c = s.core c := by rw [State.core, State.core, h.cores]
theorem live? (h : Calm s t) (k : Key) : t.live? k = s.live? k := by rw [State.live?, State.live?, h.coll]

end Calm

theorem cmbPage_aligned (c : Nat) : cmbPage c % 4096 = 0 := by unfold cmbPage diePage; omega
theorem vecPage_aligned (c : Nat) : vecPage c % 4096 = 0 := by unfold vecPage diePage; omega
theorem xsePage_aligned (c : Nat) : xsePage c % 4096 = 0 := by unfold xsePage diePage; omega

/-- Counting on an aligned page keeps all but registers. -/
theorem count_still (s : State) (a code inst n : Nat) (ha : a % 4096 = 0) : Kept (fun _ => False) s (s.count a code inst n) :=
  (count_kept s a code inst n ha).mono fun _ h => h.elim

theorem irq_still (s : State) (a b : Nat) (ha : a % 4096 = 0) : Kept (fun _ => False) s (s.irq a b) := (irq_kept s a b ha).mono fun _ h => h.elim

theorem errRecord_still (s : State) (e : ErrRec) : Kept (fun _ => False) s (s.errRecord e) := by
  unfold State.errRecord
  dsimp only
  split_ifs
  · exact Kept.refl _ _
  · refine Kept.trans ?_ (count_still _ _ _ _ _ ctlPkgPage_aligned)
    exact (Kept.rel s _).trans (Kept.wr _ _ _ _ _ not_false)

/-- An error of a block, on whatever die, keeps all but registers, outputs, queue pairs and records. -/
theorem hwError_still (s : State) (e : ErrRec) (page irqBit event sev d0 ctr inst : Nat) (ha : page % 4096 = 0) :
    Kept (fun _ => False) s (s.hwError e page irqBit event sev d0 ctr inst) := by
  unfold State.hwError
  dsimp only
  refine Kept.trans ?_ (Kept.iff _ _ (count_still _ _ _ _ _ ha))
  refine Kept.trans ?_ (Kept.iff _ _ ((alarm_kept _ _ _ _ _ _).mono fun _ h => h.elim))
  refine Kept.trans ?_ (Kept.iff _ _ (irq_still _ _ _ ha))
  exact (errRecord_still s e).trans ((pageError_kept _ _ _ _ _ ha).mono fun _ h => h.elim)

theorem sramCorrected_calm (r : Run) (x : Nat) : Calm r.st (r.sramCorrected x) := by
  unfold Run.sramCorrected
  exact (Calm.tick r.st 1).trans (Calm.of_kept (hwError_still _ _ _ _ _ _ _ _ _ (vecPage_aligned _)))

/-! ### A completed instruction -/

namespace Sparse

variable {α : Type}

theorem find?_set_same (m : Sparse α) (k : Nat) (v : α) : ((set m k v).find? fun x => x.1 == k) = some (k, v) := by
  induction m with
  | nil => simp [set]
  | cons e m ih =>
    simp only [set]
    split_ifs with h1 h2
    · simp
    · simp
    · rw [List.find?_cons_of_neg (by simpa using Ne.symm h2), ih]

theorem find?_set_ne (m : Sparse α) {k j : Nat} (v : α) (h : j ≠ k) : ((set m k v).find? fun x => x.1 == j) = m.find? fun x => x.1 == j := by
  induction m with
  | nil => simp [set, Ne.symm h]
  | cons e m ih =>
    simp only [set]
    split_ifs with h1 h2
    · rw [List.find?_cons_of_neg (by simpa using Ne.symm h)]
    · rw [List.find?_cons_of_neg (by simpa using Ne.symm h), List.find?_cons_of_neg (by simpa [h2] using Ne.symm h)]
    · rw [List.find?_cons, List.find?_cons, ih]

end Sparse

/-- The live entry of a key after a landing has been put in the entry of key `k`. -/
theorem live?_setLanding (s : State) (k j : Key) (m : Landing) :
    (s.setLanding k m).live? j = (s.live? j).map fun x => if x.key = k then x.setLanding m else x := by
  unfold State.setLanding State.updEntry State.setDir State.live?
  rw [List.find?_map]
  congr 2
  funext x
  simp only [Function.comp]
  split_ifs <;> rfl

theorem live?_key {s : State} {k : Key} {e : Entry} (h : s.live? k = some e) : e.key = k := by
  have := List.find?_some h
  simp only [Bool.and_eq_true, decide_eq_true_eq] at this
  exact this.1

/-- A command that puts an activation in a context and a landing in its entry, and touches counters, errors and free values beside, advances
that context. -/
theorem advanced_of_put {s u : State} {f : State → State} {c i : Nat} {e : Entry} {k : Key} {b : Activation} {m : Landing} (hu : Calm s u)
    (he : s.live? k = some e)
    (hf : f s.cleared = (u.setCore c { u.core c with ctxs := Sparse.set (u.core c).ctxs i b }).setLanding k m) :
    Advanced s (s.run f) c i k e b m [.coll, .cores, .mgmt, .rel] := by
  have hcore : ∀ x, (s.run f).core x = if x = c then { s.core c with ctxs := Sparse.set (s.core c).ctxs i b } else s.core x := by
    intro x
    have h : (s.run f).core x = Sparse.get Core.fresh (Sparse.set u.cores c { u.core c with ctxs := Sparse.set (u.core c).ctxs i b }) x := by
      rw [State.core, State.run_cores, hf]; rfl
    rw [h, Sparse.get_set, hu.core c]
    split_ifs with hx
    · rfl
    · exact hu.core x
  have hsame : (s.run f).core c = { s.core c with ctxs := Sparse.set (s.core c).ctxs i b } := by rw [hcore, if_pos rfl]
  have hlive : ∀ j, (s.run f).live? j = (s.live? j).map fun x => if x.key = k then x.setLanding m else x := by
    intro j
    have h : (s.run f).live? j = ((u.setCore c { u.core c with ctxs := Sparse.set (u.core c).ctxs i b }).setLanding k m).live? j := by
      rw [← hf]; rfl
    rw [h, live?_setLanding, ← hu.live? j]
    rfl
  have hcoll : ∀ x, (s.run f).coll = x ↔ ((u.setCore c { u.core c with ctxs := Sparse.set (u.core c).ctxs i b }).setLanding k m).coll = x := by
    intro x; rw [State.run_coll, hf]
  refine ⟨?_, ?_, ?_, ?_, ?_, ?_, ?_, ?_⟩
  · rw [hsame]; exact Sparse.find?_set_same _ _ _
  · rw [hlive, he, Option.map_some, if_pos (live?_key he)]
  · intro j hj; rw [hsame]; exact Sparse.find?_set_ne _ _ hj
  · rw [hsame]
  · intro x hx; rw [hcore, if_neg hx]
  · intro j hj
    rw [hlive]
    cases hl : s.live? j with
    | none => rfl
    | some x => rw [Option.map_some, if_neg (by rw [live?_key hl]; exact hj)]
  · rw [← hu.coll, State.run_coll, hf]; rfl
  · intro y hy
    have hpart : (s.run f).power = { u.power with faultN := !(f s.cleared).faulted } := by rw [State.run_power, hf]; rfl
    have hpow := hu.power
    cases y with
    | banks =>
      refine ⟨?_, ?_, ?_⟩
      · rw [State.run_shadow, hf]; exact hu.shadow
      · rw [State.run_heldWrites, hf]; exact hu.heldWrites
      · rw [State.run_commitSeq, hf]; exact hu.commitSeq
    | power => show { (s.run f).power with faultN := s.power.faultN } = s.power; rw [hpart, hpow]
    | mem => show (s.run f).mem = _; rw [State.run_mem, hf]; exact hu.mem
    | boot => show (s.run f).boot = _; rw [State.run_boot, hf]; exact hu.boot
    | sec => show (s.run f).sec = _; rw [State.run_sec, hf]; exact hu.sec
    | time => show (s.run f).time = _; rw [State.run_time, hf]; exact hu.time
    | subs => show (s.run f).subs = _; rw [State.run_subs, hf]; exact hu.subs
    | modules => show (s.run f).modules = _; rw [State.run_modules, hf]; exact hu.modules
    | byp => show (s.run f).byp = _; rw [State.run_byp, hf]; exact hu.byp
    | reader => show (s.run f).reader = _; rw [State.run_reader, hf]; exact hu.reader
    | tables => show (s.run f).tables = _; rw [State.run_tables, hf]; exact hu.tables
    | sw => show (s.run f).sw = _; rw [State.run_sw, hf]; exact hu.sw
    | mgmt | rel | coll | cores => simp at hy

/-- What a completed instruction leaves: its activation in its context and its landing in its entry. -/
theorem commit_eq (r : Run) : ∃ u, Calm r.st u ∧
    r.commit = (u.setCore r.core { u.core r.core with ctxs := Sparse.set (u.core r.core).ctxs r.ctx r.act }).setLanding r.ent.key r.lnd := by
  have h1 : Calm r.st (if r.areaOpen then r.st.tickFree 65536 else r.st) := by split_ifs <;> rfl
  unfold Run.commit
  cases r.find with
  | corrected x => exact ⟨_, h1.trans (sramCorrected_calm { r with st := if r.areaOpen then r.st.tickFree 65536 else r.st } x), rfl⟩
  | _ => exact ⟨_, h1, rfl⟩

/-! ### Issue -/

/-- Run `r` is that of `q`, further on: its activation, its landing and what an instruction may touch beside may have changed. -/
structure Run.Onward (q r : Run) : Prop where
  core : r.core = q.core
  ctx : r.ctx = q.ctx
  ent : r.ent = q.ent
  find : r.find = q.find
  st : Calm q.st r.st

namespace Run.Onward

variable {q r t : Run}

theorem refl (q : Run) : Run.Onward q q := ⟨rfl, rfl, rfl, rfl, rfl⟩
theorem trans (h : Run.Onward q r) (k : Run.Onward r t) : Run.Onward q t :=
  ⟨k.core.trans h.core, k.ctx.trans h.ctx, k.ent.trans h.ent, k.find.trans h.find, h.st.trans k.st⟩
theorem act (q : Run) (b : Activation) : Run.Onward q { q with act := b } := ⟨rfl, rfl, rfl, rfl, rfl⟩
theorem lnd (q : Run) (m : Landing) : Run.Onward q { q with lnd := m } := ⟨rfl, rfl, rfl, rfl, rfl⟩

end Run.Onward

/-- Issuing an instruction counts it. -/
theorem begun_still (s : State) (c i : Nat) (a : Activation) (e : Entry) (l : Landing) (find : Find) (eng : Nat) :
    Kept (fun _ => False) s.cleared (s.begun c i a e l find eng).st := by
  unfold State.begun
  dsimp only
  exact count_still _ _ _ _ _ (cmbPage_aligned c)

/-- The wait of R329 does not depend on what the hardware finds, nor on the outputs of the command before. -/
theorem mustWait_cleared (s : State) (c i w : Nat) (a : Activation) (e : Entry) (l : Landing) (find : Find) (eng : Nat) :
    (Run.mk s.cleared c i a l e (s.cleared.group a.event.key.group) find eng).mustWait w = (s.runOf c i a e l).mustWait w := rfl

/-- An instruction that its context issues, and that nothing holds back, runs from `State.begun`. -/
theorem issue_eq {s : State} {c i w : Nat} {a : Activation} {e : Entry} {l : Landing} (hi : s.issues c i w a e l) (hm : s.mayIssue c i w a e l)
    {op : Nat} (hop : opOf w = op) (find : Find) (eng : Nat) (f : Nat → Run → Flow Run) :
    issue op c i find eng f s.cleared = match f w (s.begun c i a e l find eng) with
      | .ok r => r.commit
      | .error h => (s.begun c i a e l find eng).halt a.pc w h := by
  obtain ⟨sl, hslot, hword⟩ := hi.word
  have hctx : ((s.cleared.core c).ctxs.find? fun x => x.1 == i) = some (i, a) := hi.ctx
  have hlive : s.cleared.live? a.event.key = some e := hi.live
  have hslot' : ((s.cleared.core c).slots.find? fun x => x.1 == a.slot) = some sl := hslot
  have hsteps : ¬s.cleared.rd CMB_CFG.max_steps (cmbPage c) ≤ a.steps := Nat.not_le.mpr hm.steps
  unfold issue
  simp only [hctx, hlive, hi.landing, hslot', hword, hop, mustWait_cleared, hm.idle, hsteps, ne_eq, not_true_eq_false, if_false, Bool.false_eq_true]
  rfl

/-- An instruction whose effect succeeds retires. -/
theorem retires_of_ok {cmd : Instr} {s : State} {c i w : Nat} {a : Activation} {e : Entry} {l : Landing} {op : Nat} {find : Find} {eng : Nat}
    {f : Nat → Run → Flow Run} {r : Run} (hcmd : exec cmd s = s.command (issue op c i find eng f)) (hi : s.issues c i w a e l)
    (hm : s.mayIssue c i w a e l) (hop : opOf w = op) (hf : f w (s.begun c i a e l find eng) = .ok r)
    (hr : Run.Onward (s.begun c i a e l find eng) r) : Retires cmd s c i a.event.key e r.act r.lnd := by
  refine ⟨_, hcmd, ?_⟩
  obtain ⟨u, hu, hc⟩ := commit_eq r
  have hbegun : Calm s (s.begun c i a e l find eng).st := (Calm.cleared s).trans (Calm.of_kept (begun_still s c i a e l find eng))
  have hkey : e.key = a.event.key := live?_key hi.live
  refine advanced_of_put ((hbegun.trans hr.st).trans hu) hi.live ?_
  rw [issue_eq hi hm hop, hf]
  dsimp only
  rw [hc, hr.core, hr.ctx, hr.ent]
  show State.setLanding _ e.key _ = _
  rw [hkey]
  rfl

end Sys2Proof.Machine
end

section
/-! SUPPORT. The scalar instructions (R317, R320 to R322): the values that they leave, and that they retire. -/

namespace Sys2Proof.Machine

/-! ### Numbers of a register's width -/

theorem toNat_ofNat_lt {x : Nat} (h : x < 2 ^ 64) : (BitVec.ofNat 64 x).toNat = x := by
  rw [BitVec.toNat_ofNat, Nat.mod_eq_of_lt h]

/-- The signed value of the low bits, as a bit vector gives it. -/
theorem sgn_eq_toInt (w n : Nat) (hw : 0 < w) : sgn w n = (BitVec.ofNat w n).toInt := by
  unfold sgn
  dsimp only
  rw [BitVec.toInt_eq_toNat_cond, BitVec.toNat_ofNat]
  have h2 : 2 * 2 ^ (w - 1) = 2 ^ w := by rw [← Nat.pow_succ']; congr 1; omega
  by_cases h : 2 ^ (w - 1) ≤ n % 2 ^ w
  · rw [if_pos h, if_neg (by omega)]
    push_cast
    rfl
  · rw [if_neg h, if_pos (by omega)]

theorem unsgn_eq_toNat (w : Nat) (z : Int) : unsgn w z = (BitVec.ofInt w z).toNat := by
  rw [BitVec.toNat_ofInt]; rfl

/-- The sign-extended immediate. -/
theorem immS_eq (w : Nat) : immS w = ((BitVec.ofNat 16 (bits w 0 16)).signExtend 64).toNat := by
  have h : BitVec.ofNat 16 (bits w 0 16) = BitVec.ofNat 16 w := by
    apply BitVec.eq_of_toNat_eq
    simp [bits]
  rw [immS, sgn_eq_toInt 16 w (by decide), unsgn_eq_toNat, h, BitVec.signExtend]

/-- The ones of a number, counted. -/
theorem popCount_eq (w n : Nat) : popCount w n = ((List.range w).filter fun i => n.testBit i).length := by
  have h : ∀ (l : List Nat) (a : Nat), l.foldl (fun a i => a + b2n (n.testBit i)) a = a + (l.filter fun i => n.testBit i).length := by
    intro l
    induction l with
    | nil => intro a; rfl
    | cons i l ih =>
      intro a
      rw [List.foldl_cons, ih, List.filter_cons]
      cases n.testBit i
      · simp [b2n]
      · simp only [b2n, if_true, List.length_cons]; omega
  rw [popCount, h, Nat.zero_add]

/-- A bit of a number with a field replaced. -/
theorem testBit_setBits (n lo w v i : Nat) :
    (setBits n lo w v).testBit i = if lo ≤ i ∧ i < lo + w then v.testBit (i - lo) else n.testBit i := by
  have hsplit : setBits n lo w v = 2 ^ lo * (2 ^ w * (n / 2 ^ (lo + w)) + v % 2 ^ w) + n % 2 ^ lo := by
    unfold setBits
    rw [Nat.pow_add]
    ring
  rw [hsplit, Nat.testBit_two_pow_mul_add _ (Nat.mod_lt _ (Nat.two_pow_pos _))]
  by_cases h1 : i < lo
  · rw [if_pos h1, if_neg (by omega), Nat.testBit_mod_two_pow]
    simp [h1]
  · rw [if_neg h1, Nat.testBit_two_pow_mul_add _ (Nat.mod_lt _ (Nat.two_pow_pos _))]
    by_cases h2 : i < lo + w
    · rw [if_pos (by omega), if_pos (by omega), Nat.testBit_mod_two_pow]
      simp [show i - lo < w by omega]
    · rw [if_neg (by omega), if_neg (by omega), Nat.testBit_div_two_pow]
      congr 1
      omega

/-! ### ALU -/

/-- The functions of ALU on two registers, as bit vector operations, by code. -/
def aluFunctions (x y : Nat) : List (BitVec 64) :=
  let bx := BitVec.ofNat 64 x
  let by_ := BitVec.ofNat 64 y
  let k := y % 64
  [bx + by_, bx - by_, bx &&& by_, bx ||| by_, bx ^^^ by_, bx <<< k, bx >>> k, bx.sshiftRight k, bx * by_,
    if x < y then 1 else 0, if bx.toInt < by_.toInt then 1 else 0, BitVec.ofNat 64 ((List.range 64).filter fun i => x.testBit i).length,
    BitVec.ofNat 64 (min x y), BitVec.ofNat 64 (max x y)]

theorem aluResult_reserved {fn x y z : Nat} (h : 14 ≤ fn) : aluResult fn x y z = z := by
  unfold aluResult
  split <;> omega

theorem toNat_ite_one (p : Prop) [Decidable p] : (if p then (1 : BitVec 64) else 0).toNat = b2n (decide p) := by
  by_cases h : p <;> simp [h, b2n]

theorem sub64_eq {x y : Nat} (hx : x < 2 ^ 64) (hy : y < 2 ^ 64) : sub64 x y = (BitVec.ofNat 64 x - BitVec.ofNat 64 y).toNat := by
  rw [BitVec.toNat_sub, toNat_ofNat_lt hx, toNat_ofNat_lt hy, sub64, Nat.mod_eq_of_lt hx, Nat.mod_eq_of_lt hy, ← Nat.sub_add_comm hy.le,
    Nat.add_comm x]

/-- Code 1 subtracts. (For a code known by an equation: the kernel would evaluate the difference at a literal code.) -/
theorem aluResult_sub {fn : Nat} (x y z : Nat) (h : fn = 1) : aluResult fn x y z = sub64 x y := by
  unfold aluResult
  split
  case h_2 => exact Eq.refl (sub64 x y)
  case h_15 hne => exact absurd h (by assumption)
  all_goals exact absurd h (by decide)

theorem sra_eq (x k : Nat) : unsgn 64 (sgn 64 x / (2 ^ k : Int)) = ((BitVec.ofNat 64 x).sshiftRight k).toNat := by
  rw [sgn_eq_toInt 64 x (by decide), unsgn_eq_toNat, BitVec.sshiftRight, Int.shiftRight_eq_div_pow]
  norm_cast

theorem popCount_toNat (x : Nat) : popCount 64 x = (BitVec.ofNat 64 ((List.range 64).filter fun i => x.testBit i).length).toNat := by
  have hle : ((List.range 64).filter fun i => x.testBit i).length ≤ 64 := by
    simpa using List.length_filter_le (fun i => x.testBit i) (List.range 64)
  rw [popCount_eq, toNat_ofNat_lt (by omega)]

/-- Each function of ALU is the bit vector operation of its code. -/
theorem aluResult_eq {x y z : Nat} {v : BitVec 64} (hx : x < 2 ^ 64) (hy : y < 2 ^ 64) :
    ∀ fn, (aluFunctions x y)[fn]? = some v → aluResult fn x y z = v.toNat
  | 0, h => by cases Option.some.inj h; rw [BitVec.toNat_add, toNat_ofNat_lt hx, toNat_ofNat_lt hy]; rfl
  | 1, h => by cases Option.some.inj h; rw [aluResult_sub x y z (Eq.refl 1), sub64_eq hx hy]
  | 2, h => by cases Option.some.inj h; rw [BitVec.toNat_and, toNat_ofNat_lt hx, toNat_ofNat_lt hy]; rfl
  | 3, h => by cases Option.some.inj h; rw [BitVec.toNat_or, toNat_ofNat_lt hx, toNat_ofNat_lt hy]; rfl
  | 4, h => by cases Option.some.inj h; rw [BitVec.toNat_xor, toNat_ofNat_lt hx, toNat_ofNat_lt hy]; rfl
  | 5, h => by cases Option.some.inj h; rw [BitVec.toNat_shiftLeft, toNat_ofNat_lt hx, Nat.shiftLeft_eq]; rfl
  | 6, h => by cases Option.some.inj h; rw [BitVec.toNat_ushiftRight, toNat_ofNat_lt hx, Nat.shiftRight_eq_div_pow]; rfl
  | 7, h => by cases Option.some.inj h; exact sra_eq x (y % 64)
  | 8, h => by cases Option.some.inj h; rw [BitVec.toNat_mul, toNat_ofNat_lt hx, toNat_ofNat_lt hy]; rfl
  | 9, h => by cases Option.some.inj h; exact (toNat_ite_one _).symm
  | 10, h => by
    cases Option.some.inj h
    rw [toNat_ite_one, ← sgn_eq_toInt 64 x (by decide), ← sgn_eq_toInt 64 y (by decide)]
    rfl
  | 11, h => by cases Option.some.inj h; exact popCount_toNat x
  | 12, h => by cases Option.some.inj h; exact (toNat_ofNat_lt (lt_of_le_of_lt (Nat.min_le_left _ _) hx)).symm
  | 13, h => by cases Option.some.inj h; exact (toNat_ofNat_lt (max_lt hx hy)).symm
  | n + 14, h => by cases h

/-! ### What an instruction reads and does -/

/-- A scalar register set leaves the activation's other parts, and its value is taken modulo 2^64. -/
theorem setS_onward (r : Run) (i v : Nat) : Run.Onward r (r.setS i v) := Run.Onward.act r _

/-- The result of ALU: that of its function, or a free value for a reserved code. -/
theorem alu_onward (r : Run) (w : Nat) : Run.Onward r (r.alu w) := by
  unfold Run.alu
  dsimp only
  split_ifs
  · exact setS_onward _ _ _
  · exact Run.Onward.trans (r := { r with st := r.st.tickFree }) ⟨rfl, rfl, rfl, rfl, Calm.tick r.st 1⟩ (setS_onward _ _ _)

theorem alu_lnd (r : Run) (w : Nat) : (r.alu w).lnd = r.lnd := by
  unfold Run.alu
  dsimp only
  split_ifs <;> rfl

theorem alu_act (r : Run) (w : Nat) :
    (r.alu w).act = (r.setS (rdOf w) (aluResult (bits w 0 4) (r.sreg (raOf w)) (r.sreg (rbOf w)) r.st.free)).act := by
  unfold Run.alu
  dsimp only
  split_ifs <;> rfl

theorem branch_onward (r : Run) (w : Nat) (b : Bool) : Run.Onward r (r.branch w b) := by
  cases b
  · exact Run.Onward.refl r
  · exact Run.Onward.act r _

@[simp] theorem flow_ok_bind {α β : Type} (x : α) (f : α → Flow β) : ((Except.ok x : Flow α) >>= f) = f x := rfl

theorem quadAddr_ok {r : Run} {w : Nat} (h : (r.sreg (raOf w) + 8 * bits w 0 16) % 2 ^ 64 % 8 = 0) :
    r.quadAddr w = .ok ((r.sreg (raOf w) + 8 * bits w 0 16) % 2 ^ 64) := by
  unfold Run.quadAddr need
  simp only [h, beq_self_eq_true, if_true, flow_ok_bind]

/-- A read that is not found uncorrectable goes on. -/
theorem readOk_ok {r : Run} {rows : Bool} (h : ∀ x, r.find ≠ .uncorrectable x) : r.readOk rows = .ok () := by
  unfold Run.readOk
  cases hf : r.find with
  | uncorrectable x => exact absurd hf (h x)
  | _ => rfl

/-- LDW reads the quadword at an aligned place inside the window, unless the read is uncorrectable. -/
theorem ldw_ok {r : Run} {w n : Nat} (hn : n = (r.sreg (raOf w) + 8 * bits w 0 16) % 2 ^ 64) (ha : n % 8 = 0) (hs : n + 8 ≤ r.lnd.size)
    (hf : ∀ x, r.find ≠ .uncorrectable x) : r.ldw w = .ok (r.setS (rdOf w) (leNat (Memory.readN r.lnd.window n 8))) := by
  have hb : r.bytes .window n 8 = .ok (Memory.readN r.lnd.window n 8) := by
    unfold Run.bytes
    exact if_neg (Nat.not_lt.mpr hs)
  rw [hn] at ha hb
  rw [Run.ldw, quadAddr_ok ha, flow_ok_bind, hb, flow_ok_bind, readOk_ok hf, flow_ok_bind, hn]

/-- STW stores the register at an aligned place inside the window. -/
theorem stw_ok {r : Run} {w n : Nat} (hn : n = (r.sreg (raOf w) + 8 * bits w 0 16) % 2 ^ 64) (ha : n % 8 = 0) (hs : n + 8 ≤ r.lnd.size) :
    r.stw w = .ok { r with lnd := { r.lnd with window := Memory.writeN r.lnd.window n (natLe 8 (r.sreg (rdOf w))) } } := by
  have hl : ∀ x, (natLe 8 x).length = 8 := fun _ => rfl
  have hb : r.store .window n (natLe 8 (r.sreg (rdOf w))) =
      .ok { r with lnd := { r.lnd with window := Memory.writeN r.lnd.window n (natLe 8 (r.sreg (rdOf w))) } } := by
    unfold Run.store
    rw [hl]
    exact if_neg (Nat.not_lt.mpr hs)
  rw [hn] at ha hb
  rw [Run.stw, quadAddr_ok ha, flow_ok_bind, hb, hn]

/-- An instruction whose effect cannot fail retires. -/
theorem retires_pure {cmd : Instr} {s : State} {c i w : Nat} {a : Activation} {e : Entry} {l : Landing} {op : Nat} {g : Nat → Run → Run}
    (hcmd : exec cmd s = s.command (issue op c i .ok 0 (pure1 g))) (hi : s.issues c i w a e l) (hm : s.mayIssue c i w a e l) (hop : opOf w = op)
    (hg : Run.Onward (s.begun c i a e l .ok 0) (g w (s.begun c i a e l .ok 0))) :
    Retires cmd s c i a.event.key e (g w (s.begun c i a e l .ok 0)).act (g w (s.begun c i a e l .ok 0)).lnd :=
  retires_of_ok hcmd hi hm hop rfl hg

theorem sreg_begun (s : State) (c i : Nat) (a : Activation) (e : Entry) (l : Landing) (find : Find) (eng j : Nat) :
    (s.begun c i a e l find eng).sreg j = Sparse.get 0 a.s j % 2 ^ 64 := rfl

theorem setS_begun (s : State) (c i : Nat) (a : Activation) (e : Entry) (l : Landing) (find : Find) (eng d v : Nat) :
    ((s.begun c i a e l find eng).setS d v).act = a.result d v := rfl

/-- An instruction that only sets its destination register retires with it. -/
theorem retires_setS {cmd : Instr} {s : State} {c i w : Nat} {a : Activation} {e : Entry} {l : Landing} {op : Nat} (v : Nat → Run → Nat)
    (hcmd : exec cmd s = s.command (issue op c i .ok 0 (pure1 fun w r => r.setS (rdOf w) (v w r)))) (hi : s.issues c i w a e l)
    (hm : s.mayIssue c i w a e l) (hop : opOf w = op) :
    Retires cmd s c i a.event.key e (a.result (rdOf w) (v w (s.begun c i a e l .ok 0))) l := by
  have h := retires_pure hcmd hi hm hop (setS_onward _ _ _)
  rwa [setS_begun] at h

/-- A branch goes to its target where its registers compare, and else on. -/
theorem branch_act (r : Run) (w : Nat) (b : Bool) : (r.branch w b).act = { r.act with pc := if b then bits w 0 9 else r.act.pc } := by
  cases b <;> rfl

theorem branch_lnd (r : Run) (w : Nat) (b : Bool) : (r.branch w b).lnd = r.lnd := by
  cases b <;> rfl

/-- A branch instruction retires at its target, or at the word after it. -/
theorem retires_branch {cmd : Instr} {s : State} {c i w : Nat} {a : Activation} {e : Entry} {l : Landing} {op : Nat} (p : Nat → Run → Bool)
    (hcmd : exec cmd s = s.command (issue op c i .ok 0 (pure1 fun w r => r.branch w (p w r)))) (hi : s.issues c i w a e l)
    (hm : s.mayIssue c i w a e l) (hop : opOf w = op) :
    Retires cmd s c i a.event.key e (a.next (if p w (s.begun c i a e l .ok 0) then bits w 0 9 else a.pc + 1)) l := by
  have h := retires_pure hcmd hi hm hop (branch_onward _ _ _)
  rwa [branch_act, branch_lnd] at h

/-- A field put into a number of 64 bits gives the number whose bits are those of the field and the others'. -/
theorem setBits_mod_eq {n lo width v u : Nat} (hv : v < 2 ^ 64)
    (h : ∀ i, i < 64 → v.testBit i = if lo ≤ i ∧ i < lo + width then u.testBit (i - lo) else n.testBit i) : setBits n lo width u % 2 ^ 64 = v := by
  refine Nat.eq_of_testBit_eq fun i => ?_
  rw [Nat.testBit_mod_two_pow, testBit_setBits]
  by_cases hi : i < 64
  · rw [h i hi, decide_eq_true hi, Bool.true_and]
  · rw [decide_eq_false hi, Bool.false_and]
    exact (Nat.testBit_lt_two_pow (lt_of_lt_of_le hv (Nat.pow_le_pow_right (by decide) (Nat.le_of_not_lt hi)))).symm

end Sys2Proof.Machine

open Sys2Proof Sys2Proof.Machine

/-- Settles O53: each row's effect succeeds from the run that its issue begins, and leaves the activation and the landing that R322 gives. -/
theorem scalarInstructionsRetire : Obligations.ScalarInstructionsRetire := by
  intro s core ctx w a e l find hi hm go on reg d x y imm simm bx by_ k functions lsb width at_ inside to_ p q
  have hreg : ∀ f i, (s.begun core.val ctx.val a e l f 0).sreg i = reg i := fun f i => sreg_begun _ _ _ _ _ _ _ _ _
  have hx : x < 2 ^ 64 := Nat.mod_lt _ (Nat.two_pow_pos _)
  have hy : y < 2 ^ 64 := Nat.mod_lt _ (Nat.two_pow_pos _)
  have himm : immS w = simm := immS_eq w
  refine ⟨fun hop => ?nop, fun hop => ?sync, fun hop => ?li, fun hop => ?lsi, fun hop => ?addi, fun hop => ?shli, fun hop => ?shri,
    fun v hv hop => ?alu, fun hfn hop => ?aluReserved, fun hop => ?fld, fun hin v hv hbits hop => ?fins, fun hin hf hop => ?ldw,
    fun hin hop => ?stw, fun hop => ?beq, fun hop => ?bne, fun hop => ?bltu, fun hop => ?bgeu, fun hop => ?beqi, fun hop => ?bnei,
    fun hop => ?jmp, fun hop => ?spcfg, fun hop => ?tdef⟩
  case nop => exact retires_pure (g := fun _ r => r) rfl hi hm hop (Run.Onward.refl _)
  case sync => exact retires_pure (g := fun _ r => r) rfl hi hm hop (Run.Onward.refl _)
  case li =>
    have h := retires_setS (cmd := .li core ctx) (fun w _ => immS w) rfl hi hm hop
    rwa [himm] at h
  case lsi =>
    have h := retires_setS (cmd := .lsi core ctx) (fun w r => r.sreg (rdOf w) * 65536 + bits w 0 16) rfl hi hm hop
    rwa [hreg] at h
  case addi =>
    have h := retires_setS (cmd := .addi core ctx) (fun w r => r.sreg (raOf w) + immS w) rfl hi hm hop
    rwa [hreg, himm] at h
  case shli =>
    have h := retires_setS (cmd := .shli core ctx) (fun w r => r.sreg (raOf w) * 2 ^ bits w 0 6) rfl hi hm hop
    rwa [hreg] at h
  case shri =>
    have h := retires_setS (cmd := .shri core ctx) (fun w r => r.sreg (raOf w) / 2 ^ bits w 0 6) rfl hi hm hop
    rwa [hreg] at h
  case alu =>
    have h := retires_pure (cmd := .alu core ctx) (g := fun w r => r.alu w) rfl hi hm hop (alu_onward _ _)
    rw [alu_act, alu_lnd, hreg, hreg, aluResult_eq hx hy _ hv, setS_begun] at h
    exact h
  case aluReserved =>
    have h := retires_pure (cmd := .alu core ctx) (g := fun w r => r.alu w) rfl hi hm hop (alu_onward _ _)
    have hfree : (s.begun core.val ctx.val a e l .ok 0).st.free = s.free := by
      rw [State.free, (begun_still s core.val ctx.val a e l .ok 0).freeCtr]; rfl
    rw [alu_act, alu_lnd, aluResult_reserved hfn, hfree, setS_begun] at h
    exact h
  case fld =>
    have h := retires_setS (cmd := .fld core ctx) (fun w r => bits (r.sreg (raOf w)) (bits w 10 6) (bits w 4 6 + 1)) rfl hi hm hop
    rwa [hreg] at h
  case fins =>
    have h := retires_setS (cmd := .fins core ctx)
      (fun w r => setBits (r.sreg (rdOf w)) (bits w 10 6) (bits w 4 6 + 1) (r.sreg (raOf w))) rfl hi hm hop
    rw [hreg, hreg, Activation.result, setBits_mod_eq hv hbits] at h
    show Retires _ _ _ _ _ _ (a.result d v) _
    rwa [Activation.result, Nat.mod_eq_of_lt hv]
  case ldw =>
    obtain ⟨halign, hsize⟩ := hin
    have hat : at_ = ((s.begun core.val ctx.val a e l find 0).sreg (raOf w) + 8 * bits w 0 16) % 2 ^ 64 := by rw [hreg]
    have h := retires_of_ok (cmd := .ldw core ctx find) (f := fun w r => r.ldw w) rfl hi hm hop (ldw_ok hat halign hsize hf) (setS_onward _ _ _)
    rwa [setS_begun] at h
  case stw =>
    obtain ⟨halign, hsize⟩ := hin
    have hat : at_ = ((s.begun core.val ctx.val a e l .ok 0).sreg (raOf w) + 8 * bits w 0 16) % 2 ^ 64 := by rw [hreg]
    have h := retires_of_ok (cmd := .stw core ctx) (f := fun w r => r.stw w) rfl hi hm hop (stw_ok hat halign hsize) (Run.Onward.lnd _ _)
    rwa [hreg] at h
  case beq => exact retires_branch (fun w r => r.sreg (rdOf w) == r.sreg (raOf w)) rfl hi hm hop
  case bne => exact retires_branch (fun w r => r.sreg (rdOf w) != r.sreg (raOf w)) rfl hi hm hop
  case bltu => exact retires_branch (fun w r => decide (r.sreg (rdOf w) < r.sreg (raOf w))) rfl hi hm hop
  case bgeu => exact retires_branch (fun w r => decide (r.sreg (raOf w) ≤ r.sreg (rdOf w))) rfl hi hm hop
  case beqi => exact retires_branch (fun w r => r.sreg (rdOf w) == bits w 13 8) rfl hi hm hop
  case bnei => exact retires_branch (fun w r => r.sreg (rdOf w) != bits w 13 8) rfl hi hm hop
  case jmp => exact retires_branch (fun _ _ => true) rfl hi hm hop
  case spcfg =>
    exact retires_pure (g := fun w r => r.setPort (bits w 23 3) (portOf (bits w 23 3) (r.sreg (bits w 18 5)))) rfl hi hm hop (Run.Onward.act _ _)
  case tdef =>
    exact retires_pure (g := fun w r => { r with act := { r.act with t := Sparse.set r.act.t (bits w 23 3) (r.sreg (bits w 18 5)) } })
      rfl hi hm hop (Run.Onward.act _ _)
end

section
/-! SUPPORT. The steps of a vector or exact-sum instruction (R318 to R325): they read, check and write alike whatever counting and errors have
left in the registers. -/

namespace Sys2Proof.Machine

/-! ### Runs that counting, events and errors alone tell apart -/

/-- Run `r` differs from `q` in registers, outputs, queue pairs and records of the state at most. -/
structure Run.Like (q r : Run) : Prop where
  run : r = { q with st := r.st }
  st : Kept (fun _ => False) q.st r.st

namespace Run.Like

variable {q r t : Run}

theorem refl (q : Run) : Run.Like q q := ⟨rfl, Kept.refl _ _⟩
theorem of_st {s : State} (h : Kept (fun _ => False) q.st s) : Run.Like q { q with st := s } := ⟨rfl, h⟩
theorem trans (h : Run.Like q r) (k : Run.Like r t) : Run.Like q t := ⟨by rw [k.run, h.run], h.st.trans k.st⟩

theorem act (h : Run.Like q r) : r.act = q.act := by rw [h.run]
theorem lnd (h : Run.Like q r) : r.lnd = q.lnd := by rw [h.run]
theorem onward (h : Run.Like q r) : Run.Onward q r := by
  rw [h.run]
  exact ⟨rfl, rfl, rfl, rfl, Calm.of_kept h.st⟩

theorem laneOps (h : Run.Like q r) (n : Nat) : Run.Like q (r.laneOps n) :=
  h.trans (of_st (count_still _ _ _ _ _ (vecPage_aligned _)))

theorem areaOps (h : Run.Like q r) (l : List Nat) : Run.Like q (r.areaOps l) :=
  h.trans (of_st (Kept.iff _ _ (count_still _ _ _ _ _ (vecPage_aligned _))))

theorem roundCount (h : Run.Like q r) (f o n : Nat) : Run.Like q (r.roundCount f o n) := by
  refine h.trans (of_st (Kept.trans ?_ (Kept.iff _ _ (count_still _ _ _ _ _ (xsePage_aligned _)))))
  exact Kept.iff _ _ ((count_still _ _ _ _ _ (xsePage_aligned _)).trans (irq_still _ _ _ (xsePage_aligned _)))

/-! Reading does not look at what differs. -/

theorem areaOpen (h : Run.Like q r) : r.areaOpen = q.areaOpen := by
  rw [h.run]
  unfold Run.areaOpen State.usesArea State.group State.planHall
  dsimp only
  rw [h.st.coll, h.st.boot]

theorem bytes (h : Run.Like q r) (sp : Space) (o n : Nat) : r.bytes sp o n = q.bytes sp o n := by
  have ha := h.areaOpen
  rw [h.run] at ha ⊢
  unfold Run.bytes
  dsimp only
  rw [ha, h.st.freeCtr]
  rfl

theorem raw (h : Run.Like q r) (x : Stream) (n : Nat) : r.raw x n = q.raw x n := by
  have hb := h.bytes
  rw [h.run] at hb ⊢
  unfold Run.raw
  simp only [hb]
  rfl

theorem codes (h : Run.Like q r) (x : Stream) (n : Nat) : r.codes x n = q.codes x n := by
  unfold Run.codes
  rw [h.raw]

theorem wps (h : Run.Like q r) (x : Stream) (n : Nat) : r.wps x n = q.wps x n := by
  have hb := h.bytes
  rw [h.run] at hb ⊢
  unfold Run.wps
  simp only [hb]
  rfl

theorem vals (h : Run.Like q r) (x : Stream) (n : Nat) : r.vals x n = q.vals x n := by
  unfold Run.vals
  rw [h.raw, h.wps, h.codes]

theorem port (h : Run.Like q r) (i : Nat) : r.port i = q.port i := by
  rw [h.run]
  rfl

theorem source (h : Run.Like q r) (i : Nat) : r.source i = q.source i := by
  rw [h.run]
  rfl

theorem sreg (h : Run.Like q r) (i : Nat) : r.sreg i = q.sreg i := by
  rw [h.run]
  rfl

theorem operand (h : Run.Like q r) (ty : Nat) (x : Stream) (n : Nat) : r.operand ty x n = q.operand ty x n := by
  unfold Run.operand
  rw [h.codes, h.vals]

theorem vbinB (h : Run.Like q r) (ty op kind b n : Nat) : r.vbinB ty op kind b n = q.vbinB ty op kind b n := by
  unfold Run.vbinB Run.lanes
  simp only [h.codes, h.operand, h.source, h.sreg, h.act]

theorem accums (h : Run.Like q r) (o n : Nat) : r.accums o n = q.accums o n := by
  have hb := h.bytes
  rw [h.run] at hb ⊢
  unfold Run.accums
  simp only [hb]
  rfl

theorem positions (h : Run.Like q r) (o n : Nat) : r.positions o n = q.positions o n := by
  have ha := h.accums
  have hv := h.vals
  rw [h.run] at ha hv ⊢
  unfold Run.positions
  simp only [ha, hv]

theorem xdest (h : Run.Like q r) (d f : Nat) (mx : Bool) : r.xdest d f mx = q.xdest d f mx := by
  unfold Run.xdest
  rw [h.port]

/-! Advancing a port keeps runs alike. -/

theorem pass (h : Run.Like q r) (i n b : Nat) : Run.Like (q.pass i n b) (r.pass i n b) := by
  have hp := h.port i
  unfold Run.pass
  rw [hp]
  cases q.port i with
  | error e => exact h
  | ok x =>
    rw [h.run]
    exact ⟨rfl, h.st⟩

theorem passAll (h : Run.Like q r) (l : List Nat) (n : Nat) : Run.Like (q.passAll l n) (r.passAll l n) := by
  unfold Run.passAll
  generalize l.eraseDups = m
  induction m generalizing q r with
  | nil => exact h
  | cons i m ih => exact ih (h.pass i n 0)

end Run.Like

theorem Run.Onward.pass (q : Run) (i n b : Nat) : Run.Onward q (q.pass i n b) := by
  unfold Run.pass
  cases q.port i with
  | error e => exact Run.Onward.refl q
  | ok x => exact Run.Onward.act q _

theorem Run.Onward.passAll (q : Run) (l : List Nat) (n : Nat) : Run.Onward q (q.passAll l n) := by
  unfold Run.passAll
  generalize l.eraseDups = m
  induction m generalizing q with
  | nil => exact Run.Onward.refl q
  | cons i m ih => exact (Run.Onward.pass q i n 0).trans (ih _)

/-! ### Checks that find nothing -/

/-- The hardware finds neither an uncorrectable error nor a residue, and no injection is armed. -/
structure Run.Sound (q : Run) : Prop where
  read : ∀ x, q.find ≠ .uncorrectable x
  residue : ∀ e l u x o a b, q.find ≠ .residue e l u x o a b
  vecArm : (q.st.core q.core).vecArm = []
  xseArm : (q.st.core q.core).xseArm = []

theorem firstArmed_nil {α : Type} (unit index : α → Nat) (l : List (Nat × List UnitResult)) : firstArmed [] unit index l = none := by
  unfold firstArmed
  simp

namespace Run.Sound

variable {q r : Run}

theorem onward (h : Run.Sound q) (k : Run.Onward q r) : Run.Sound r := by
  constructor
  · rw [k.find]; exact h.read
  · rw [k.find]; exact h.residue
  · rw [k.st.core, k.core]; exact h.vecArm
  · rw [k.st.core, k.core]; exact h.xseArm

theorem readOk (h : Run.Sound q) (rows : Bool) : q.readOk rows = .ok () := readOk_ok h.read

theorem readPorts (h : Run.Sound q) (l : List Stream) : q.readPorts l = .ok () := by
  unfold Run.readPorts
  rw [h.readOk, h.readOk]
  split_ifs <;> rfl

theorem vecCheck (h : Run.Sound q) (f : Nat) (us : List (Nat × List UnitResult)) : q.vecCheck f us = .ok () := by
  unfold Run.vecCheck
  rw [h.vecArm, firstArmed_nil]
  split
  case h_1 hf => exact absurd hf (h.residue _ _ _ _ _ _ _)
  case h_2 => rfl

theorem xseArmed (h : Run.Sound q) (es : List Nat) (f : Nat) (us : List (Nat × List UnitResult)) : q.xseArmed es f us = .ok () := by
  unfold Run.xseArmed
  rw [h.xseArm, List.filter_nil, firstArmed_nil]

theorem xseCheck (h : Run.Sound q) (f : Nat) (us : List (Nat × List UnitResult)) : q.xseCheck f us = .ok () := by
  unfold Run.xseCheck
  split
  case h_1 hf => exact absurd hf (h.residue _ _ _ _ _ _ _)
  case h_2 => exact h.xseArmed _ _ _

theorem orderedCheck (h : Run.Sound q) (f : Nat) (res : List UnitResult) : q.orderedCheck f res = .ok () := by
  unfold Run.orderedCheck
  split
  case h_1 hf => exact absurd hf (h.residue _ _ _ _ _ _ _)
  case h_2 => exact h.xseArmed _ _ _

end Run.Sound

/-! ### Steps that succeed -/

/-- The step succeeds with a run like `u`, which goes on from `q`. -/
structure Flow.Ends (q : Run) (f : Flow Run) (u : Run) : Prop where
  onward : Run.Onward q u
  gives : ∃ v, f = .ok v ∧ Run.Like u v

namespace Flow.Ends

variable {p q u w : Run} {f : Flow Run}

theorem ok {v : Run} (h : Run.Onward q u) (k : Run.Like u v) : Flow.Ends q (.ok v) u := ⟨h, v, rfl, k⟩

theorem after (h : Run.Onward p q) (k : Flow.Ends q f u) : Flow.Ends p f u := ⟨h.trans k.onward, k.gives⟩

theorem bind {g : Run → Flow Run} (h : Flow.Ends q f u) (hg : ∀ v, Run.Like u v → Flow.Ends u (g v) w) : Flow.Ends q (f >>= g) w := by
  obtain ⟨honward, v, hf, hv⟩ := h
  rw [hf, flow_ok_bind]
  exact (hg v hv).after honward

/-- A step that succeeds, and what is done after it without fail. -/
theorem next {g : Run → Run} (h : Flow.Ends q f u) (hw : Run.Onward u w) (hg : ∀ v, Run.Like u v → Run.Like w (g v)) :
    Flow.Ends q (f >>= fun v => .ok (g v)) w := h.bind fun v hv => .ok hw (hg v hv)

end Flow.Ends

/-- A step that succeeds from a run succeeds alike from every run like it, and goes on from where it began. -/
def Run.Steady (f : Run → Flow Run) : Prop := ∀ ⦃q r u : Run⦄, Run.Like q r → f q = .ok u → Flow.Ends q (f r) u

theorem store_steady (sp : Space) (o : Nat) (l : List Byte) : Run.Steady fun r => r.store sp o l := by
  intro q r u h hu
  rw [h.run]
  unfold Run.store at hu
  dsimp only at hu
  by_cases hb : q.spaceSize sp < o + l.length
  · rw [if_pos hb] at hu
    cases hu
  · rw [if_neg hb] at hu
    cases sp with
    | window => cases hu; exact ⟨Run.Onward.lnd _ _, _, if_neg hb, rfl, h.st⟩
    | area => cases hu; exact ⟨Run.Onward.lnd _ _, _, if_neg hb, rfl, h.st⟩
    | input => cases hu
    | out => cases hu

theorem append_steady (f : Nat) (mx : Bool) (n : Nat) (l : List Byte) : Run.Steady fun r => .ok (r.append f mx n l) := by
  intro q r u h hu
  cases hu
  rw [h.run]
  exact ⟨Run.Onward.act _ _, _, rfl, rfl, h.st⟩

theorem appendCodes_steady (f : Nat) (l : List Nat) : Run.Steady fun r => .ok (r.appendCodes f l) := by
  intro q r u h hu
  cases hu
  rw [h.run]
  unfold Run.appendCodes
  dsimp only
  split_ifs <;> exact ⟨Run.Onward.act _ _, _, rfl, rfl, h.st⟩

theorem putCodes_steady (x : Stream) (l : List Nat) : Run.Steady fun r => r.putCodes x l := by
  intro q r u h hu
  have hspan : r.span x l.length = q.span x l.length := by rw [h.run]; rfl
  unfold Run.putCodes at hu ⊢
  dsimp only at hu ⊢
  split_ifs at hu ⊢
  · cases hu
  · exact appendCodes_steady _ _ h hu
  · rw [hspan, h.bytes]
    cases hb : q.bytes x.space (q.span x l.length).1 (q.span x l.length).2 with
    | error e => rw [hb] at hu; cases hu
    | ok old =>
      rw [hb, flow_ok_bind] at hu
      exact store_steady _ _ _ h hu

theorem putBlocks_steady (x : Stream) (n : Nat) (l : List Byte) : Run.Steady fun r => r.putBlocks x n l := by
  intro q r u h hu
  have hspan : r.span x n = q.span x n := by rw [h.run]; rfl
  unfold Run.putBlocks at hu ⊢
  dsimp only at hu ⊢
  split_ifs at hu ⊢
  · cases hu
  · exact append_steady _ _ _ _ h hu
  · rw [hspan]
    exact store_steady _ _ _ h hu

theorem putWps_steady (x : Stream) (l : List (List Byte)) : Run.Steady fun r => r.putWps x l := by
  intro q r u h hu
  unfold Run.putWps at hu ⊢
  dsimp only at hu ⊢
  split_ifs at hu ⊢
  · cases hu
  · exact append_steady _ _ _ _ h hu
  · exact store_steady _ _ _ h hu

/-- An instruction whose effect succeeds with a run like `u` retires as `u` has it. -/
theorem retires_of_ends {cmd : Instr} {s : State} {c i w : Nat} {a : Activation} {e : Entry} {l : Landing} {op : Nat} {find : Find} {eng : Nat}
    {f : Nat → Run → Flow Run} {u : Run} (hcmd : exec cmd s = s.command (issue op c i find eng f)) (hi : s.issues c i w a e l)
    (hm : s.mayIssue c i w a e l) (hop : opOf w = op) (hf : Flow.Ends (s.begun c i a e l find eng) (f w (s.begun c i a e l find eng)) u) :
    Retires cmd s c i a.event.key e u.act u.lnd := by
  obtain ⟨honward, v, hf, hv⟩ := hf
  have h := retires_of_ok hcmd hi hm hop hf (honward.trans hv.onward)
  rwa [hv.act, hv.lnd] at h

end Sys2Proof.Machine
end

section
/-! SUPPORT. The vector instructions (R322 to R324): where their operands are readable, each succeeds with what its rule writes. -/

namespace Sys2Proof.Machine

@[simp] theorem need_true (n : Nat) : need true n = .ok () := rfl

theorem Run.Like.withAct {q r : Run} (h : Run.Like q r) (b : Activation) : Run.Like { q with act := b } { r with act := b } := by
  rw [h.run]
  exact ⟨rfl, h.st⟩

/-- Advancing two ports, or one that is named twice, keeps runs alike. -/
theorem Run.Like.passBoth {q r : Run} (h : Run.Like q r) (i j n b c : Nat) :
    Run.Like (if i = j then q.pass i n b else (q.pass i n b).pass j n c) (if i = j then r.pass i n b else (r.pass i n b).pass j n c) := by
  split_ifs
  · exact h.pass _ _ _
  · exact (h.pass _ _ _).pass _ _ _

theorem Run.Onward.passBoth (q : Run) (i j n b c : Nat) : Run.Onward q (if i = j then q.pass i n b else (q.pass i n b).pass j n c) := by
  split_ifs
  · exact Run.Onward.pass q _ _ _
  · exact (Run.Onward.pass q _ _ _).trans (Run.Onward.pass _ _ _ _)

theorem port_ok {q : Run} {i : Nat} {x : Stream} (h : (q.act.sp.find? fun y => y.1 == i) = some (i, x)) : q.port i = .ok x := by
  unfold Run.port
  rw [h]

theorem source_ok {q : Run} {i : Nat} {x : Stream} (hi : i ≠ 7) (h : q.port i = .ok x) : q.source i = .ok x := by
  rw [Run.source, if_neg hi, h]

theorem pass_of_port {q : Run} {i n b : Nat} {x : Stream} (h : q.port i = .ok x) : q.pass i n b = q.setPort i (x.advance n b) := by
  unfold Run.pass
  rw [h]

/-! ### VLD and VST -/

theorem vld_ends {q : Run} {w : Nat} {x : Stream} {c : List Nat} (hs : Run.Sound q) (hi : bits w 18 3 ≠ 7) (hp : q.port (bits w 18 3) = .ok x)
    (hx : fmtBits x.fmt ≤ 32) (hc : q.codes x 1024 = .ok c) :
    Flow.Ends q (q.vld w) { q with act := { q.act with
      v := Sparse.set q.act.v (bits w 21 5) c, sp := Sparse.set q.act.sp (bits w 18 3) (x.advance 1024 0) } } := by
  have hport : Run.port { q with act := { q.act with v := Sparse.set q.act.v (bits w 21 5) c } } (bits w 18 3) = .ok x := hp
  unfold Run.vld
  simp only [source_ok hi hp, flow_ok_bind, decide_eq_true hx, need_true, hc, hs.readPorts]
  refine .ok (Run.Onward.act q _) (Run.Like.laneOps ?_ _)
  have hlike := (((Run.Like.refl q).areaOps [bits w 18 3]).withAct { q.act with v := Sparse.set q.act.v (bits w 21 5) c }).pass (bits w 18 3) 1024 0
  rwa [pass_of_port hport] at hlike

theorem vst_ends {q u : Run} {w : Nat} {y : Stream} (hp : q.port (bits w 18 3) = .ok y) (hy : fmtBits y.fmt ≤ 32)
    (hu : q.putCodes y ((List.range 1024).map fun k => (Sparse.get [] q.act.v (bits w 21 5)).getD k 0 % 2 ^ fmtBits y.fmt) = .ok u) :
    Flow.Ends q (q.vst w) (u.pass (bits w 18 3) 1024 0) := by
  unfold Run.vst
  simp only [hp, flow_ok_bind, decide_eq_true hy, need_true]
  exact ((putCodes_steady _ _) ((Run.Like.refl q).areaOps _) hu).next (Run.Onward.pass _ _ _ _) fun v hv => (hv.pass _ _ _).laneOps _

/-! ### VBIN -/

/-- MOV takes elements of port `x` (number `i`) to port `y` (number `j`) of the same format. -/
structure Run.Moves (q : Run) (i j : Nat) (x y : Stream) : Prop where
  source : i ≠ 7
  port_x : q.port i = .ok x
  port_y : q.port j = .ok y
  fmt : x.fmt = y.fmt
  mx : x.mx = y.mx
  noAcc : x.acc = false

theorem Run.Moves.like {q r : Run} {i j : Nat} {x y : Stream} (h : q.Moves i j x y) (hl : Run.Like q r) : r.Moves i j x y :=
  ⟨h.source, (hl.port i).trans h.port_x, (hl.port j).trans h.port_y, h.fmt, h.mx, h.noAcc⟩

/-- MOV goes on from its ports as its format has it. -/
theorem vmov_of_ports {q : Run} {i j : Nat} {x y : Stream} (hs : Run.Sound q) (h : q.Moves i j x y) (n : Nat) :
    q.vmov i j n =
      (if x.mx then do
        need (x.pos % 32 == 0) fFormat
        let l ← q.raw x n
        let r ← q.putBlocks y n l
        .ok ((r.passAll [i, j] n).laneOps n)
      else if x.fmt = 14 then do
        let l ← q.wps x n
        let r ← q.putWps y l
        let r' := r.pass i n l.flatten.length
        .ok ((if i = j then r' else r'.pass j n l.flatten.length).laneOps n)
      else do
        let l ← q.codes x n
        let r ← q.putCodes y l
        .ok ((r.passAll [i, j] n).laneOps n)) := by
  unfold Run.vmov
  simp only [source_ok h.source h.port_x, h.port_y, flow_ok_bind, h.fmt, h.mx, h.noAcc, beq_self_eq_true, Bool.not_false, Bool.and_self,
    need_true, hs.readPorts]

section
variable {q r u : Run} {i j n : Nat} {x y : Stream}

theorem vmov_ends_blocks {c : List Byte} (hl : Run.Like q r) (hs : Run.Sound r) (h : q.Moves i j x y) (hmx : x.mx = true)
    (hpos : x.pos % 32 = 0) (hc : q.raw x n = .ok c) (hu : q.putBlocks y n c = .ok u) : Flow.Ends q (r.vmov i j n) (u.passAll [i, j] n) := by
  rw [vmov_of_ports hs (h.like hl), if_pos hmx, hpos, hl.raw, hc]
  exact (putBlocks_steady _ _ _ hl hu).next (Run.Onward.passAll _ _ _) fun v hv => (hv.passAll _ _).laneOps _

theorem vmov_ends_wps {c : List (List Byte)} (hl : Run.Like q r) (hs : Run.Sound r) (h : q.Moves i j x y) (hmx : x.mx = false)
    (hw : x.fmt = 14) (hc : q.wps x n = .ok c) (hu : q.putWps y c = .ok u) :
    Flow.Ends q (r.vmov i j n)
      (if i = j then u.pass i n c.flatten.length else (u.pass i n c.flatten.length).pass j n c.flatten.length) := by
  rw [vmov_of_ports hs (h.like hl), hmx, if_neg Bool.false_ne_true, if_pos hw, hl.wps, hc]
  exact (putWps_steady _ _ hl hu).next (Run.Onward.passBoth _ _ _ _ _ _) fun v hv => (hv.passBoth _ _ _ _ _).laneOps _

theorem vmov_ends_codes {c : List Nat} (hl : Run.Like q r) (hs : Run.Sound r) (h : q.Moves i j x y) (hmx : x.mx = false)
    (hw : x.fmt ≠ 14) (hc : q.codes x n = .ok c) (hu : q.putCodes y c = .ok u) : Flow.Ends q (r.vmov i j n) (u.passAll [i, j] n) := by
  rw [vmov_of_ports hs (h.like hl), hmx, if_neg Bool.false_ne_true, if_neg hw, hl.codes, hc]
  exact (putCodes_steady _ _ hl hu).next (Run.Onward.passAll _ _ _) fun v hv => (hv.passAll _ _).laneOps _

end

/-- VBIN of no elements does nothing. -/
theorem vbin_zero {q : Run} {w : Nat} (hn : q.sreg (bits w 8 5) = 0) : q.vbin w = .ok q := by
  unfold Run.vbin
  simp only [hn, if_true]
  rfl

/-- MOV, as an operation of VBIN. -/
theorem vbin_mov {q u : Run} {w : Nat} (hn : q.sreg (bits w 8 5) ≠ 0) (hty : bits w 2 2 < 3) (hop : bits w 4 4 = 0)
    (h : ∀ r, Run.Like q r → Flow.Ends q (r.vmov (bits w 20 3) (bits w 23 3) (q.sreg (bits w 8 5))) u) : Flow.Ends q (q.vbin w) u := by
  unfold Run.vbin
  simp only [hn, hop, hty, if_false, if_true, decide_true, Nat.zero_le, Bool.and_self, need_true, flow_ok_bind]
  exact h _ ((Run.Like.refl q).areaOps _)

/-- VBIN reads its operands as codes: `va` of port `x`, `vb` and `ks` of operand b, and for FMA `vc` of its destination `y`. -/
structure Run.BinOperands (q : Run) (w : Nat) (x y : Stream) (va vb vc : List Nat) (ks : List Int) (more : List Stream) : Prop where
  nonzero : q.sreg (bits w 8 5) ≠ 0
  type : bits w 2 2 < 3
  op_pos : 0 < bits w 4 4
  op_le : bits w 4 4 ≤ 10
  source : bits w 20 3 ≠ 7
  port_x : q.port (bits w 20 3) = .ok x
  port_y : q.port (bits w 23 3) = .ok y
  fmt : y.fmt = typeFmt (bits w 2 2)
  noMx : y.mx = false
  noAcc : y.acc = false
  reads_a : q.operand (bits w 2 2) x (q.sreg (bits w 8 5)) = .ok va
  reads_b : q.vbinB (bits w 2 2) (bits w 4 4) (bits w 13 2) (bits w 15 5) (q.sreg (bits w 8 5)) = .ok (vb, ks, more)
  reads_c : bits w 4 4 = 4 → bits w 23 3 ≠ 7 ∧ q.codes y (q.sreg (bits w 8 5)) = .ok vc

/-- An operation of VBIN on numbers. -/
theorem vbin_ends {q u : Run} {w : Nat} {x y : Stream} {va vb vc : List Nat} {ks : List Int} {more : List Stream} (hs : Run.Sound q)
    (h : q.BinOperands w x y va vb vc ks more)
    (hu : q.putCodes y ((List.range (q.sreg (bits w 8 5))).map fun i => vbinResult (bits w 4 4) (typeFmt (bits w 2 2)) (va.getD i 0) (vb.getD i 0)
      (if bits w 4 4 = 4 then vc.getD i 0 else 0) (ks.getD i 0)) = .ok u) :
    Flow.Ends q (q.vbin w)
      (u.passAll (bits w 20 3 :: bits w 23 3 :: if bits w 13 2 = 0 then [bits w 15 5 % 8] else []) (q.sreg (bits w 8 5))) := by
  unfold Run.vbin
  simp only [h.nonzero, h.op_pos.ne', h.type, h.op_le, if_false, decide_true, Bool.and_self, need_true, flow_ok_bind]
  generalize hr : q.areaOps _ = r
  have hl : Run.Like q r := hr ▸ (Run.Like.refl q).areaOps _
  have hsr := hs.onward hl.onward
  rw [source_ok h.source ((hl.port _).trans h.port_x), hl.port, h.port_y]
  simp only [flow_ok_bind, h.fmt, h.noMx, h.noAcc, beq_self_eq_true, Bool.not_false, Bool.and_self, need_true, hl.operand, hl.vbinB, hl.codes,
    h.reads_a, h.reads_b]
  simp only [hsr.readPorts, hsr.orderedCheck, hsr.vecCheck, flow_ok_bind, ite_self]
  by_cases h4 : bits w 4 4 = 4
  · obtain ⟨hd, hcodes⟩ := h.reads_c h4
    simp only [h4, hd, hcodes, if_true, if_false, flow_ok_bind] at hu ⊢
    exact (putCodes_steady _ _ hl hu).next (Run.Onward.passAll _ _ _) fun v hv => (hv.passAll _ _).laneOps _
  · simp only [h4, if_false, List.getD_nil] at hu ⊢
    exact (putCodes_steady _ _ hl hu).next (Run.Onward.passAll _ _ _) fun v hv => (hv.passAll _ _).laneOps _

/-! ### VCVT -/

theorem Kept.tickFree {p : Nat → Prop} {s t : State} (h : Kept p s t) (n : Nat) : Kept p (s.tickFree n) (t.tickFree n) :=
  ⟨h.regs, (congrArg (fun x : State => x.tickFree n) h.still :)⟩

theorem Run.Like.tickFree {q r : Run} (h : Run.Like q r) (n : Nat) :
    Run.Like { q with st := q.st.tickFree n } { r with st := r.st.tickFree n } := by
  have hst := h.st.tickFree n
  rw [h.run] at hst ⊢
  exact ⟨rfl, hst⟩

theorem Run.Onward.tick (q : Run) (n : Nat) : Run.Onward q { q with st := q.st.tickFree n } := ⟨rfl, rfl, rfl, rfl, Calm.tick _ _⟩

/-- A steady step, with what it counts beside. -/
theorem Run.Steady.counted {α : Type} {f : Run → Flow Run} (hf : Run.Steady f) {q r u : Run} {c d : α} (h : Run.Like q r)
    (hu : (f q >>= fun v => Except.ok (v, c)) = .ok (u, d)) :
    Run.Onward q u ∧ ∃ v, (f r >>= fun v => Except.ok (v, c)) = .ok (v, d) ∧ Run.Like u v := by
  cases hq : f q with
  | error e => rw [hq] at hu; cases hu
  | ok v =>
    rw [hq] at hu
    cases hu
    obtain ⟨hon, v, hv, hlike⟩ := hf h hq
    rw [hv]
    exact ⟨hon, v, rfl, hlike⟩

/-- A rounding succeeds alike from runs that are alike, with the same counts. -/
theorem putRounded_ends {q r u : Run} {by_ : RoundBy} {y : Stream} {base unit o z : Nat} {l : List Val} (h : Run.Like q r) (hs : Run.Sound q)
    (hu : q.putRounded by_ y base unit l = .ok (u, o, z)) :
    Run.Onward q u ∧ ∃ v, r.putRounded by_ y base unit l = .ok (v, o, z) ∧ Run.Like u v := by
  have hsr := hs.onward h.onward
  have hblock : r.blockAll by_ y.fmt base l = q.blockAll by_ y.fmt base l := by rw [h.run]; rfl
  have hround : r.roundAll by_ y.fmt base l = q.roundAll by_ y.fmt base l := by rw [h.run]; rfl
  unfold Run.putRounded at hu ⊢
  rw [hblock, hround, h.st.freeCtr]
  simp only [hs.vecCheck, hsr.vecCheck, flow_ok_bind] at hu ⊢
  by_cases hdiv : by_.div = 0
  · rw [if_pos hdiv] at hu ⊢
    split_ifs at hu ⊢
    · exact ((putBlocks_steady _ _ _).counted (h.tickFree _) hu).imp_left (Run.Onward.tick q _).trans
    · exact ((putCodes_steady _ _).counted (h.tickFree _) hu).imp_left (Run.Onward.tick q _).trans
  · rw [if_neg hdiv] at hu ⊢
    split_ifs at hu ⊢
    · exact (putBlocks_steady _ _ _).counted h hu
    · exact (putCodes_steady _ _).counted h hu

/-- VCVT of no elements does nothing. -/
theorem vcvt_zero {q : Run} {w : Nat} (hn : q.sreg (bits w 15 5) = 0) : q.vcvt w = .ok q := by
  unfold Run.vcvt
  simp only [hn, if_true]
  rfl

/-- How VCVT rounds. -/
def Run.vcvtBy (q : Run) (w : Nat) : RoundBy :=
  ⟨if bits w 9 2 = 3 then bits w 12 3 else q.grp.rounding, if bits w 9 2 = 3 then bit w 11 else q.grp.saturate, bits w 9 2,
    if bits w 9 2 = 1 ∨ (bits w 9 2 = 3 ∧ bit w 8 = true) then q.st.planHall else 0, if bit w 7 then q.sreg 9 else 1⟩

/-- VCVT reads values `c` of port `x`, `b` bytes of them where they are WP elements, and may write port `y`. -/
structure Run.Converts (q : Run) (w : Nat) (x y : Stream) (c : List Val) (b : Nat) : Prop where
  nonzero : q.sreg (bits w 15 5) ≠ 0
  site : bits w 9 2 ≠ 2
  mode : bits w 9 2 = 3 ∧ bits w 12 3 ≤ 4 ∨ bits w 12 3 = 0 ∧ bit w 11 = false
  source : bits w 20 3 ≠ 7
  port_x : q.port (bits w 20 3) = .ok x
  port_y : q.port (bits w 23 3) = .ok y
  fixed : y.fixed = true
  noAcc : y.acc = false
  vals : q.vals x (q.sreg (bits w 15 5)) = .ok c
  bytes : x.fmt ≠ 14 → b = 0
  wpBytes : x.fmt = 14 → ∃ i, q.wps x (q.sreg (bits w 15 5)) = .ok i ∧ b = i.flatten.length

theorem Run.Converts.allowed {q : Run} {w b : Nat} {x y : Stream} {c : List Val} (h : q.Converts w x y c b) :
    (bits w 9 2 != 2 && (bits w 9 2 == 3 || (decide (bits w 12 3 = 0) && !bit w 11)) && decide (bits w 12 3 ≤ 4) && y.fixed && !y.acc)
      = true := by
  have hsite := h.site
  have hfixed := h.fixed
  have hacc := h.noAcc
  rcases h.mode with ⟨h3, h4⟩ | ⟨h0, h11⟩
  · simp [h3, h4, hfixed, hacc]
  · simp [h0, h11, hsite, hfixed, hacc]

theorem vcvt_ends {q u : Run} {w b o z : Nat} {x y : Stream} {c : List Val} (hs : Run.Sound q) (h : q.Converts w x y c b)
    (hu : q.putRounded (q.vcvtBy w) y (y.base + y.pos) 3 c = .ok (u, o, z)) :
    Flow.Ends q (q.vcvt w) (if bits w 20 3 = bits w 23 3 then u.pass (bits w 20 3) (q.sreg (bits w 15 5)) b
      else (u.pass (bits w 20 3) (q.sreg (bits w 15 5)) b).pass (bits w 23 3) (q.sreg (bits w 15 5)) 0) := by
  obtain ⟨honward, v, hv, hl⟩ := putRounded_ends ((Run.Like.refl q).areaOps [bits w 20 3, bits w 23 3]) hs hu
  unfold Run.vcvtBy at hv
  unfold Run.vcvt
  simp only [h.nonzero, if_false, source_ok h.source h.port_x, h.port_y, flow_ok_bind, h.allowed, need_true, h.vals, hs.readPorts, hv]
  have hcount : Run.Like u (if y.mx = true ∨ bits w 9 2 ≤ 1 then v.roundCount y.fmt o (if bits w 9 2 = 0 then z else 0) else v) := by
    split_ifs
    · exact hl.roundCount _ _ _
    · exact hl.roundCount _ _ _
    · exact hl
  refine .ok (honward.trans (Run.Onward.passBoth _ _ _ _ _ _)) (Run.Like.laneOps ?_ _)
  by_cases hw : x.fmt = 14
  · obtain ⟨t, ht, rfl⟩ := h.wpBytes hw
    simp only [hw, if_true, ht]
    exact hcount.passBoth _ _ _ _ _
  · simp only [hw, if_false, h.bytes hw]
    exact hcount.passBoth _ _ _ _ _

/-! ### VQUANT -/

/-- VQUANT of no elements does nothing. -/
theorem vquant_zero {q : Run} {w : Nat} (hn : q.sreg (bits w 11 5) = 0) : q.vquant w = .ok q := by
  unfold Run.vquant
  simp only [hn, if_true]
  rfl

/-- The difference that VQUANT leaves for a value and its quantized one. -/
def quantError (v q : Val) : Nat := match q with
  | .nan => 0
  | j => toType 0 (addVal rNearest v (negVal j))

/-- The values of quantized blocks of format `f`. -/
def quantVals (f : Nat) (bs : List MxBlock) : List Val :=
  bs.flatMap fun b => b.codes.map fun c => if b.scale = 0xFF then Val.nan else mxVal f b.scale c

/-- VQUANT reads values `c` of port `x`, and writes them as the blocks `bs` to port `y`, which gives `u`. -/
structure Run.Quantizes (q : Run) (w : Nat) (x y : Stream) (c : List Val) (bs : List MxBlock) (u : Run) : Prop where
  nonzero : q.sreg (bits w 11 5) ≠ 0
  whole : q.sreg (bits w 11 5) % 32 = 0
  source : bits w 20 3 ≠ 7
  port_x : q.port (bits w 20 3) = .ok x
  port_y : q.port (bits w 23 3) = .ok y
  fmt : x.fmt = 1
  noMx : x.mx = false
  noAcc : x.acc = false
  mx : y.mx = true
  vals : q.vals x (q.sreg (bits w 11 5)) = .ok c
  blocks : q.blockAll ⟨q.grp.rounding, q.grp.saturate, 2, q.st.planHall, 1⟩ y.fmt (y.base + y.pos) c = bs
  put : q.putBlocks y (q.sreg (bits w 11 5)) (bs.flatMap fun b => b.bytes y.fmt) = .ok u

section
variable {q u : Run} {w : Nat} {x y : Stream} {c : List Val} {bs : List MxBlock}

/-- VQUANT once it has written the blocks: with r_valid it writes the differences. -/
theorem vquant_of_blocks {t : Run} (hs : Run.Sound q) (h : q.Quantizes w x y c bs u)
    (ht : ∀ r, Run.Like (u.pass (bits w 23 3) (q.sreg (bits w 11 5)) 0) r →
      Flow.Ends (u.pass (bits w 23 3) (q.sreg (bits w 11 5)) 0)
        (if bit w 16 = false then .ok ((r.pass (bits w 20 3) (q.sreg (bits w 11 5)) 0).laneOps (q.sreg (bits w 11 5)))
        else do
          let z ← r.port (bits w 17 3)
          need (z.fmt == 1 && !z.mx && !z.acc) fFormat
          r.vecCheck z.fmt [(1, resultsOf ((List.range (q.sreg (bits w 11 5))).map fun i =>
            quantError (c.getD i .nan) ((quantVals y.fmt bs).getD i .nan)))]
          let r ← r.putCodes z ((List.range (q.sreg (bits w 11 5))).map fun i => quantError (c.getD i .nan) ((quantVals y.fmt bs).getD i .nan))
          .ok ((r.passAll [bits w 20 3, bits w 17 3] (q.sreg (bits w 11 5))).laneOps (q.sreg (bits w 11 5)))) t) :
    Flow.Ends q (q.vquant w) t := by
  unfold Run.vquant
  simp only [h.nonzero, if_false, source_ok h.source h.port_x, h.port_y, flow_ok_bind, h.whole, h.fmt, h.noMx, h.noAcc, h.mx, beq_self_eq_true,
    Bool.not_false, Bool.and_self, need_true, h.vals, hs.readPorts, hs.vecCheck, h.blocks]
  exact (putBlocks_steady _ _ _ ((Run.Like.refl q).areaOps _) h.put).bind fun v hv =>
    (ht _ ((hv.roundCount _ _ _).pass _ _ _)).after (Run.Onward.pass _ _ _ _)

theorem vquant_ends (hs : Run.Sound q) (h : q.Quantizes w x y c bs u) (hr : bit w 16 = false) :
    Flow.Ends q (q.vquant w) ((u.pass (bits w 23 3) (q.sreg (bits w 11 5)) 0).pass (bits w 20 3) (q.sreg (bits w 11 5)) 0) := by
  refine vquant_of_blocks hs h fun r hl => ?_
  rw [if_pos hr]
  exact .ok (Run.Onward.pass _ _ _ _) ((hl.pass _ _ _).laneOps _)

theorem vquant_ends_errors {z : Stream} {o : Run} (hs : Run.Sound q) (h : q.Quantizes w x y c bs u) (hr : bit w 16 = true)
    (hz : (u.pass (bits w 23 3) (q.sreg (bits w 11 5)) 0).port (bits w 17 3) = .ok z) (hzf : z.fmt = 1) (hzm : z.mx = false) (hza : z.acc = false)
    (ho : (u.pass (bits w 23 3) (q.sreg (bits w 11 5)) 0).putCodes z ((List.range (q.sreg (bits w 11 5))).map fun i =>
      quantError (c.getD i .nan) ((quantVals y.fmt bs).getD i .nan)) = .ok o) :
    Flow.Ends q (q.vquant w) (o.passAll [bits w 20 3, bits w 17 3] (q.sreg (bits w 11 5))) := by
  refine vquant_of_blocks hs h fun r hl => ?_
  have hon := (putBlocks_steady _ _ _ (Run.Like.refl q) h.put).onward.trans (Run.Onward.pass u (bits w 23 3) (q.sreg (bits w 11 5)) 0)
  have hsr := hs.onward (hon.trans hl.onward)
  simp only [hr, Bool.true_eq_false, if_false, hl.port, hz, flow_ok_bind, hzf, hzm, hza, beq_self_eq_true, Bool.not_false, Bool.and_self,
    need_true, hsr.vecCheck]
  exact (putCodes_steady _ _ hl ho).next (Run.Onward.passAll _ _ _) fun v hv => (hv.passAll _ _).laneOps _

end

end Sys2Proof.Machine
end

section
/-! SUPPORT. The exact-sum instructions (R325, R243 to R249): where their operands are readable, each succeeds with what its rule writes. -/

namespace Sys2Proof.Machine

/-! ### XADD -/

theorem natLe_length (k n : Nat) : (natLe k n).length = k := by
  induction k generalizing n with
  | zero => rfl
  | succ k ih => rw [natLe, List.length_cons, ih]

/-- Words of `k` bytes take `k` bytes each. -/
theorem flatMap_natLe_length (k : Nat) (l : List Nat) : (l.flatMap (natLe k)).length = l.length * k := by
  induction l with
  | nil => simp
  | cons v l ih => rw [List.flatMap_cons, List.length_append, natLe_length, ih, List.length_cons]; ring

/-- Readable accumulators are as many as asked for, and their words lie in the window. -/
theorem accums_ok {q : Run} {o n : Nat} {l : List Accum} (h : q.accums o n = .ok l) :
    l.length = n ∧ o * q.wordBytes + n * q.wordBytes ≤ q.lnd.size := by
  unfold Run.accums at h
  dsimp only at h
  cases hb : q.bytes .window (o * q.wordBytes) (n * q.wordBytes) with
  | error e => rw [hb] at h; cases h
  | ok b =>
    rw [hb] at h
    cases h
    refine ⟨by simp, ?_⟩
    by_contra hlt
    unfold Run.bytes at hb
    rw [if_pos (show q.spaceSize .window < _ from Nat.lt_of_not_le hlt)] at hb
    cases hb

/-- XADD of no positions does nothing. -/
theorem xadd_zero {q : Run} {w : Nat} (hn : q.sreg (bits w 13 5) = 0) : q.xadd w = .ok q := by
  unfold Run.xadd
  simp only [hn, if_true]
  rfl

/-- XADD in FAST faults with FORMAT, but for sums of integers. -/
theorem xadd_fast {q : Run} {w : Nat} (hn : q.sreg (bits w 13 5) ≠ 0) (hmode : q.grp.mode = mFast) (hex : q.grp.exactSums = false) :
    q.xadd w = .error (.fault fFormat) := by
  unfold Run.xadd
  simp only [hn, if_false, hmode, hex, bne_self_eq_false, Bool.or_self, Bool.false_and]
  rfl

section
variable {q : Run} {w : Nat} {x : Stream}

theorem xadd_of_source (hn : q.sreg (bits w 13 5) ≠ 0) (hmode : q.grp.mode ≠ mFast ∨ q.grp.exactSums = true) (hk : bits w 11 2 ≠ 3)
    (hi : bits w 23 3 ≠ 7) (hx : q.port (bits w 23 3) = .ok x) :
    q.xadd w = if q.grp.sums
      then (q.areaOps [bits w 23 3]).xaddSum (bits w 23 3) (q.sreg (bits w 18 5)) (q.sreg (bits w 13 5)) (bits w 11 2) x
      else (q.areaOps [bits w 23 3]).xaddRun (bits w 23 3) (q.sreg (bits w 18 5)) (q.sreg (bits w 13 5)) (bits w 11 2) x := by
  have hneed : ((q.grp.mode != mFast || q.grp.exactSums) && bits w 11 2 != 3) = true := by
    rcases hmode with h | h <;> simp [h, hk]
  unfold Run.xadd
  simp only [hn, if_false, hneed, need_true, source_ok hi hx, flow_ok_bind]
  rfl

/-- XADD adds to sums. -/
theorem xadd_of_sums (hn : q.sreg (bits w 13 5) ≠ 0) (hmode : q.grp.mode ≠ mFast ∨ q.grp.exactSums = true) (hk : bits w 11 2 ≠ 3)
    (hi : bits w 23 3 ≠ 7) (hx : q.port (bits w 23 3) = .ok x) (hsums : q.grp.sums = true) :
    q.xadd w = (q.areaOps [bits w 23 3]).xaddSum (bits w 23 3) (q.sreg (bits w 18 5)) (q.sreg (bits w 13 5)) (bits w 11 2) x := by
  rw [xadd_of_source hn hmode hk hi hx, if_pos hsums]

/-- XADD combines running values. -/
theorem xadd_of_runs (hn : q.sreg (bits w 13 5) ≠ 0) (hmode : q.grp.mode ≠ mFast ∨ q.grp.exactSums = true) (hk : bits w 11 2 ≠ 3)
    (hi : bits w 23 3 ≠ 7) (hx : q.port (bits w 23 3) = .ok x) (hsums : q.grp.sums = false) :
    q.xadd w = (q.areaOps [bits w 23 3]).xaddRun (bits w 23 3) (q.sreg (bits w 18 5)) (q.sreg (bits w 13 5)) (bits w 11 2) x := by
  rw [xadd_of_source hn hmode hk hi hx, hsums, if_neg Bool.false_ne_true]

end

/-- The window with the accumulators `new` stored from position `o`. -/
def Run.summed (q : Run) (o : Nat) (new : List (Accum × Bool)) : Run :=
  { q with lnd := { q.lnd with
      window := Memory.writeN q.lnd.window (o * q.wordBytes) (new.flatMap fun e => natLe q.wordBytes (e.1.word q.grp.wide)) } }

/-- Accumulators that take the place of others fit where those were read. -/
theorem store_summed {q : Run} {o n : Nat} {old : List Accum} {new : List (Accum × Bool)} (h : q.accums o n = .ok old) (hlen : new.length ≤ n) :
    q.store .window (o * q.wordBytes) ((new.map fun e => e.1.word q.grp.wide).flatMap fun v => natLe q.wordBytes v) = .ok (q.summed o new) := by
  obtain ⟨-, hsize⟩ := accums_ok h
  have hbytes : ((new.map fun e => e.1.word q.grp.wide).flatMap fun v => natLe q.wordBytes v).length ≤ n * q.wordBytes := by
    rw [flatMap_natLe_length, List.length_map]
    exact Nat.mul_le_mul_right _ hlen
  unfold Run.store
  rw [if_neg (by show ¬ q.lnd.size < _; omega), List.flatMap_map]
  rfl

theorem Run.Like.grp {q r : Run} (h : Run.Like q r) : r.grp = q.grp := by rw [h.run]
theorem Run.Like.wordBytes {q r : Run} (h : Run.Like q r) : r.wordBytes = q.wordBytes := by rw [Run.wordBytes, h.grp, Run.wordBytes]

/-- Sums are counted, and those that overflow. -/
theorem Run.Like.sumCount {q r : Run} (h : Run.Like q r) (c n out : Nat) : Run.Like q { r with
    st := (r.st.count (xsePage r.core) c 0 n).iff (out != 0) fun s => (s.count (xsePage r.core) 0x85 0 out).irq (xsePage r.core) 6 } := by
  refine h.trans (Run.Like.of_st ((count_still _ _ _ _ _ (xsePage_aligned _)).trans (Kept.iff _ _ ?_)))
  exact (count_still _ _ _ _ _ (xsePage_aligned _)).trans (irq_still _ _ _ (xsePage_aligned _))

/-- SUM and MEAN of elements. -/
theorem xaddSum_ends_vals {q r : Run} {i off n : Nat} {x : Stream} {old : List Accum} {c : List Val} (hl : Run.Like q r) (hs : Run.Sound r)
    (hold : q.accums off n = .ok old) (hf : x.fmt ≠ 14) (ha : x.acc = false)
    (hown : (x.fmt = q.grp.inFmt ∧ x.mx = q.grp.inMx) ∨ (x.fmt, x.mx) = (1, false) ∧ (x.fmt, x.mx) = q.grp.partFmt) (hc : q.vals x n = .ok c) :
    Flow.Ends q (r.xaddSum i off n 0 x) ((q.summed off (List.zipWith (fun y z =>
      y.add q.grp.inFmt q.grp.inMx (!decide (x.fmt = q.grp.inFmt ∧ x.mx = q.grp.inMx)) z) old c)).pass i n 0) := by
  have hnew : (List.zipWith (fun y z => Accum.add q.grp.inFmt q.grp.inMx (!(x.fmt == q.grp.inFmt && x.mx == q.grp.inMx)) y z) old c).length
      ≤ n := by
    rw [List.length_zipWith, (accums_ok hold).1]
    exact Nat.min_le_left _ _
  have hdec : decide (x.fmt = q.grp.inFmt ∧ x.mx = q.grp.inMx) = (x.fmt == q.grp.inFmt && x.mx == q.grp.inMx) :=
    Bool.decide_and _ _
  have hneed : (!x.acc && x.fmt != 14 && ((x.fmt == q.grp.inFmt && x.mx == q.grp.inMx) ||
      ((x.fmt, x.mx) == (1, false) && q.grp.partFmt == (1, false)))) = true := by
    rcases hown with ⟨h1, h2⟩ | ⟨h1, h2⟩
    · simp [ha, h1, h2, h1 ▸ hf]
    · simp [hf, ha, ← h2, h1]
  have hf' : (x.fmt == 14) = false := beq_false_of_ne hf
  unfold Run.xaddSum
  simp only [hl.grp, hl.accums, hl.wordBytes, hl.vals, hold, hc, flow_ok_bind, hf', Bool.and_false, Bool.false_and, Bool.false_eq_true, if_false,
    hneed, need_true, hs.readOk, hs.xseCheck, hdec]
  exact ((store_steady _ _ _) hl (store_summed hold hnew)).next (Run.Onward.pass _ _ _ _) fun v hv => (hv.sumCount _ _ _).pass _ _ _

/-- SUM and MEAN of WP elements. -/
theorem xaddSum_ends_wps {q r : Run} {i off n kind : Nat} {x : Stream} {old : List Accum} {c : List (List Byte)} (hl : Run.Like q r)
    (hs : Run.Sound r) (hold : q.accums off n = .ok old)
    (hkind : kind = 1 ∨ kind = 0 ∧ ((x.fmt = q.grp.inFmt ∧ x.mx = q.grp.inMx) ∨ (x.fmt, x.mx) = q.grp.partFmt)) (hf : x.fmt = 14)
    (ha : x.acc = false) (hm : x.mx = false) (hc : q.wps x n = .ok c) :
    Flow.Ends q (r.xaddSum i off n kind x) ((q.summed off (List.zipWith (fun y z =>
      y.addWp q.grp.inFmt q.grp.inMx (Wp.read z).1) old c)).pass i n c.flatten.length) := by
  have hnew : (List.zipWith (fun y z => Accum.addWp q.grp.inFmt q.grp.inMx y (Wp.read z).1) old c).length ≤ n := by
    rw [List.length_zipWith, (accums_ok hold).1]
    exact Nat.min_le_left _ _
  have hone : (if (kind = 0 && x.fmt == 14 && ((x.fmt == q.grp.inFmt && x.mx == q.grp.inMx) || (x.fmt, x.mx) == q.grp.partFmt)) = true then 1
      else kind) = 1 := by
    rcases hkind with rfl | ⟨rfl, h⟩
    · simp
    · rcases h with ⟨h1, h2⟩ | h
      · simp [hf, ← h1, ← h2]
      · simp [hf, ← h]
  unfold Run.xaddSum
  simp only [hl.grp, hone]
  simp only [hl.accums, hl.wordBytes, hl.wps, hold, hc, flow_ok_bind, hf, ha, hm, beq_self_eq_true, Bool.not_false, Bool.and_self,
    need_true, hs.readOk, hs.xseCheck]
  exact ((store_steady _ _ _) hl (store_summed hold hnew)).next (Run.Onward.pass _ _ _ _) fun v hv => (hv.sumCount _ _ _).pass _ _ _

/-- SUM and MEAN of accumulator words. -/
theorem xaddSum_ends_words {q r : Run} {i off n : Nat} {x : Stream} {old : List Accum} {c : List Byte} (hl : Run.Like q r) (hs : Run.Sound r)
    (hold : q.accums off n = .ok old) (ha : x.acc = true) (hc : q.raw x n = .ok c) :
    Flow.Ends q (r.xaddSum i off n 2 x) ((q.summed off ((List.range n).map fun j =>
      ((old.getD j ⟨0, false, false, false, false, false⟩).merge (Accum.ofWord q.grp.wide (leNat (slice c (j * q.wordBytes) q.wordBytes))),
        false))).pass i n 0) := by
  unfold Run.xaddSum
  simp only [hl.grp, hl.accums, hl.wordBytes, hl.raw, hold, hc, flow_ok_bind, ha, need_true, hs.readOk, hs.xseCheck]
  refine ((store_steady _ _ _) hl (store_summed hold ?_)).next (Run.Onward.pass _ _ _ _) fun v hv => (hv.sumCount _ _ _).pass _ _ _
  simp

/-! ### XADD of running values -/

/-- Running values of block `i` of source `x`, whose blocks are `new`. -/
def Run.cameRuns (q : Run) (x : Stream) (new : List Byte) (i : Nat) : List Nat :=
  runsAt (if x.space = .input then q.act.event.runs else []) x.fmt q.grp.rounding (q.runDraw (x.pos + 32 * i)) (x.pos + 32 * i)
    (slice new (i * mxBlockBytes x.fmt) (mxBlockBytes x.fmt))

/-- Running values that block `i` of the positions from `off` keeps, `old` being their blocks. -/
def Run.keptRuns (q : Run) (x : Stream) (off : Nat) (old new : List Byte) (i : Nat) : List Nat :=
  if bit q.lnd.written (off + 32 * i) then
    List.zipWith (combineRun q.grp.op x.fmt) (runsAt q.lnd.runs x.fmt q.grp.rounding (q.runDraw (off + 32 * i)) (off + 32 * i)
      (slice old (i * mxBlockBytes x.fmt) (mxBlockBytes x.fmt))) (q.cameRuns x new i)
  else q.cameRuns x new i

/-- The block that they are written as. -/
def Run.keptImage (q : Run) (x : Stream) (off : Nat) (old new : List Byte) (i : Nat) : List Byte :=
  if bit q.lnd.written (off + 32 * i) then
    (runBlock x.fmt q.grp.rounding (q.runDraw (off + 32 * i)) (q.keptRuns x off old new i)).bytes x.fmt
  else slice new (i * mxBlockBytes x.fmt) (mxBlockBytes x.fmt)

/-- Run `u` with the running values of `n` positions from `off` kept beside their blocks. -/
def Run.withRuns (u : Run) (off n : Nat) (kept : Nat → List Nat) : Run :=
  { u with lnd := { u.lnd with runs := (List.range (cdiv n 32)).foldl (fun m i => (kept i).zipIdx.foldl (fun m v =>
      Sparse.set m (off + 32 * i + v.2) v.1) m) u.lnd.runs } }

theorem Run.Like.runDraw {q r : Run} (h : Run.Like q r) (p : Nat) : r.runDraw p = q.runDraw p := by
  rw [h.run]
  rfl

theorem Run.Like.withRuns {q r : Run} (h : Run.Like q r) (off n : Nat) (kept : Nat → List Nat) :
    Run.Like (q.withRuns off n kept) (r.withRuns off n kept) := by
  rw [h.run]
  exact ⟨rfl, h.st⟩

/-- MIN and MAX of MX elements. -/
theorem xaddMx_ends {q r u : Run} {off n : Nat} {x : Stream} {old new : List Byte} (hl : Run.Like q r) (hs : Run.Sound r)
    (hu : q.putBlocks ⟨.window, q.grp.inFmt, true, false, 0, off, 0, 0⟩ n
      ((List.range (cdiv n 32)).flatMap (q.keptImage x off old new)) = .ok u) :
    Flow.Ends q (r.xaddMx off n x old new) (u.withRuns off n (q.keptRuns x off old new)) := by
  unfold Run.xaddMx
  simp only [hl.grp, hl.act, hl.lnd, hl.runDraw, hs.xseCheck, flow_ok_bind]
  generalize hblocks : List.map _ (List.range (cdiv n 32)) = blocks
  have heq : blocks = (List.range (cdiv n 32)).map fun i => (off + 32 * i, q.keptRuns x off old new i, q.keptImage x off old new i) := by
    rw [← hblocks]
    refine List.map_congr_left fun i _ => ?_
    unfold Run.keptImage Run.keptRuns Run.cameRuns
    split_ifs <;> rfl
  rw [heq, List.flatMap_map]
  simp only [List.foldl_map]
  exact (putBlocks_steady _ _ _ hl hu).next (Run.Onward.lnd _ _) fun v hv => hv.withRuns _ _ _

/-- Block images written leave the running values beside them. -/
theorem putBlocks_runs {q u : Run} {y : Stream} {n : Nat} {l : List Byte} (h : q.putBlocks y n l = .ok u) : u.lnd.runs = q.lnd.runs := by
  unfold Run.putBlocks Run.store at h
  split_ifs at h
  · cases h
  · cases h; rfl
  · cases h
  · cases hs : y.space with
    | window => rw [hs] at h; cases h; rfl
    | area => rw [hs] at h; cases h; rfl
    | input => rw [hs] at h; cases h
    | out => rw [hs] at h; cases h

/-- Run `u` with `n` positions from `off` written. -/
def Run.wrote (u : Run) (off n : Nat) : Run := { u with lnd := { u.lnd with written := Nat.lor u.lnd.written ((2 ^ n - 1) * 2 ^ off) } }

theorem Run.Like.wrote {q r : Run} (h : Run.Like q r) (off n core c : Nat) :
    Run.Like (q.wrote off n) { r with st := r.st.count (xsePage core) c 0 n, lnd := { r.lnd with
      written := Nat.lor r.lnd.written ((2 ^ n - 1) * 2 ^ off) } } := by
  have hlnd : Run.Like (q.wrote off n) (r.wrote off n) := by
    rw [h.run]
    exact ⟨rfl, h.st⟩
  have hst : Run.Like (r.wrote off n) { r.wrote off n with st := r.st.count (xsePage core) c 0 n } :=
    Run.Like.of_st (q := r.wrote off n) (count_still r.st (xsePage core) c 0 n (xsePage_aligned _))
  exact hlnd.trans hst

/-- XADD combines elements of port `x` with running values. -/
structure Run.Combines (q : Run) (kind : Nat) (x : Stream) : Prop where
  notWps : kind ≠ 1
  noAcc : x.acc = false
  fmt : x.fmt = q.grp.inFmt
  mx : x.mx = q.grp.inMx

theorem Run.Combines.allowed {q : Run} {kind : Nat} {x : Stream} (h : q.Combines kind x) :
    (kind != 1 && !x.acc && x.fmt == q.grp.inFmt && x.mx == q.grp.inMx) = true := by
  simp [h.notWps, h.noAcc, h.fmt, h.mx]

theorem xaddRun_ends_codes {q r u : Run} {i off n kind : Nat} {x : Stream} {old new : List Nat} (hl : Run.Like q r) (hs : Run.Sound r)
    (h : q.Combines kind x) (hmx : x.mx = false) (hold : q.codes ⟨.window, q.grp.inFmt, q.grp.inMx, false, 0, off, 0, 0⟩ n = .ok old)
    (hnew : q.codes x n = .ok new)
    (hu : q.putCodes ⟨.window, q.grp.inFmt, q.grp.inMx, false, 0, off, 0, 0⟩ ((List.range n).map fun i =>
      if bit q.lnd.written (off + i) then combineCode q.grp.op x.fmt (old.getD i 0) (new.getD i 0)
        else keepCode q.grp.op x.fmt (new.getD i 0)) = .ok u) :
    Flow.Ends q (r.xaddRun i off n kind x) ((u.wrote off n).pass i n 0) := by
  unfold Run.xaddRun
  simp only [hl.grp, h.allowed, need_true, flow_ok_bind]
  simp only [hmx, Bool.not_false, Bool.true_or, need_true, flow_ok_bind, Bool.false_eq_true, if_false, hl.codes, hold, hnew, hs.readOk,
    hs.xseCheck, hl.lnd]
  exact (putCodes_steady _ _ hl hu).next ((Run.Onward.lnd _ _).trans (Run.Onward.pass _ _ _ _)) fun v hv => (hv.wrote _ _ _ _).pass _ _ _

/-- XADD combines the blocks `new` of port `x` with the blocks `old` of `n` positions from `off`. -/
structure Run.CombinesBlocks (q : Run) (off n kind : Nat) (x : Stream) (old new : List Byte) : Prop extends q.Combines kind x where
  isMx : x.mx = true
  off_whole : off % 32 = 0
  pos_whole : x.pos % 32 = 0
  reads_old : q.raw ⟨.window, q.grp.inFmt, q.grp.inMx, false, 0, off, 0, 0⟩ n = .ok old
  reads_new : q.raw x n = .ok new

section
variable {q r u : Run} {i off n kind : Nat} {x : Stream} {old new : List Byte}

/-- Block `i` that a bitwise operation writes. -/
def Run.combinedImage (q : Run) (x : Stream) (off : Nat) (old new : List Byte) (i : Nat) : List Byte :=
  let b := mxBlockBytes x.fmt
  if bit q.lnd.written (off + 32 * i) then combineBytes q.grp.op (slice old (i * b) b) (slice new (i * b) b) else slice new (i * b) b

/-- Running values of MX elements go on as their blocks. -/
theorem xaddRun_of_blocks (hl : Run.Like q r) (hs : Run.Sound r) (h : q.CombinesBlocks off n kind x old new)
    (hu : Flow.Ends q (if q.grp.op = opMin ∨ q.grp.op = opMax then r.xaddMx off n x old new
      else r.putBlocks ⟨.window, q.grp.inFmt, q.grp.inMx, false, 0, off, 0, 0⟩ n
        ((List.range (cdiv n 32)).flatMap (q.combinedImage x off old new))) u) :
    Flow.Ends q (r.xaddRun i off n kind x) ((u.wrote off n).pass i n 0) := by
  unfold Run.combinedImage at hu
  unfold Run.xaddRun
  simp only [hl.grp, h.allowed, need_true, flow_ok_bind]
  simp only [h.isMx, h.off_whole, h.pos_whole, beq_self_eq_true, Bool.and_self, Bool.or_true, need_true, flow_ok_bind, if_true, hl.raw,
    h.reads_old, h.reads_new, hs.readOk, hs.xseCheck, hl.lnd]
  by_cases hop : q.grp.op = opMin ∨ q.grp.op = opMax
  · simp only [hop, if_true] at hu ⊢
    exact hu.next ((Run.Onward.lnd _ _).trans (Run.Onward.pass _ _ _ _)) fun v hv => (hv.wrote _ _ _ _).pass _ _ _
  · simp only [hop, if_false] at hu ⊢
    exact hu.next ((Run.Onward.lnd _ _).trans (Run.Onward.pass _ _ _ _)) fun v hv => (hv.wrote _ _ _ _).pass _ _ _

/-- Running values of MX elements under a bitwise operation. -/
theorem xaddRun_ends_blocks (hl : Run.Like q r) (hs : Run.Sound r) (h : q.CombinesBlocks off n kind x old new)
    (hop : ¬(q.grp.op = opMin ∨ q.grp.op = opMax))
    (hu : q.putBlocks ⟨.window, q.grp.inFmt, q.grp.inMx, false, 0, off, 0, 0⟩ n
      ((List.range (cdiv n 32)).flatMap (q.combinedImage x off old new)) = .ok u) :
    Flow.Ends q (r.xaddRun i off n kind x) ((u.wrote off n).pass i n 0) := by
  refine xaddRun_of_blocks hl hs h ?_
  rw [if_neg hop]
  exact putBlocks_steady _ _ _ hl hu

/-- Running values of MX elements under MIN or MAX. -/
theorem xaddRun_ends_runs (hl : Run.Like q r) (hs : Run.Sound r) (h : q.CombinesBlocks off n kind x old new)
    (hop : q.grp.op = opMin ∨ q.grp.op = opMax)
    (hu : q.putBlocks ⟨.window, q.grp.inFmt, q.grp.inMx, false, 0, off, 0, 0⟩ n
      ((List.range (cdiv n 32)).flatMap (q.keptImage x off old new)) = .ok u) :
    Flow.Ends q (r.xaddRun i off n kind x) (((u.withRuns off n (q.keptRuns x off old new)).wrote off n).pass i n 0) := by
  refine xaddRun_of_blocks hl hs h ?_
  rw [if_pos hop]
  rw [← h.mx, h.isMx] at hu
  exact xaddMx_ends hl hs hu

end

/-! ### XROUND -/

/-- XROUND of no positions does nothing. -/
theorem xround_zero {q : Run} {w : Nat} (hn : q.sreg (bits w 13 5) = 0) : q.xround w = .ok q := by
  unfold Run.xround
  simp only [hn, if_true]
  rfl

theorem xround_of_sums {q : Run} {w : Nat} (hn : q.sreg (bits w 13 5) ≠ 0) (ht : bits w 11 2 ≠ 3) (hsums : q.grp.sums = true) :
    q.xround w = (q.areaOps [bits w 23 3]).xroundSum (bits w 23 3) (q.sreg (bits w 18 5)) (q.sreg (bits w 13 5)) (bits w 11 2) := by
  unfold Run.xround
  simp only [hn, if_false, bne_iff_ne.mpr ht, need_true, flow_ok_bind]
  exact if_pos hsums

theorem xround_of_runs {q : Run} {w : Nat} (hn : q.sreg (bits w 13 5) ≠ 0) (ht : bits w 11 2 = 0) (hsums : q.grp.sums = false) :
    q.xround w = (q.areaOps [bits w 23 3]).xroundRun (bits w 23 3) (q.sreg (bits w 18 5)) (q.sreg (bits w 13 5)) := by
  have hgrp : (q.areaOps [bits w 23 3]).grp.sums = false := hsums
  unfold Run.xround
  simp only [hn, if_false, ht, hgrp, Bool.false_eq_true]
  rfl

/-- How XROUND rounds sums. -/
def Run.xroundBy (q : Run) (target : Nat) : RoundBy :=
  ⟨q.grp.rounding, q.grp.saturate, if target = 0 then 0 else if q.grp.mode = mSplit then 1 else 3, if target = 0 then 0 else q.st.planHall,
    if target = 0 ∧ q.grp.op = opMean then q.ent.members else 1⟩

/-- The format that XROUND writes sums in. -/
def Run.xroundFmt (q : Run) (target : Nat) : Nat := if target = 0 then q.grp.resFmt else if target = 1 then 1 else 14

theorem Run.Like.ent {q r : Run} (h : Run.Like q r) : r.ent = q.ent := by rw [h.run]
theorem Run.Like.planHall {q r : Run} (h : Run.Like q r) : r.st.planHall = q.st.planHall := by
  unfold State.planHall
  rw [h.st.boot]
theorem Run.Like.blockAll {q r : Run} (h : Run.Like q r) (by_ : RoundBy) (f base : Nat) (l : List Val) :
    r.blockAll by_ f base l = q.blockAll by_ f base l := by
  rw [h.run]
  rfl
theorem Run.Like.roundAll {q r : Run} (h : Run.Like q r) (by_ : RoundBy) (f base : Nat) (l : List Val) :
    r.roundAll by_ f base l = q.roundAll by_ f base l := by
  rw [h.run]
  rfl

theorem xroundSum_ends_wps {q r u : Run} {i off n target : Nat} {y : Stream} {c : List Val} (hl : Run.Like q r) (hs : Run.Sound r)
    (hex : target = 2 → q.grp.exactSums = true) (hc : q.positions off n = .ok c) (hf : q.xroundFmt target = 14)
    (hy : q.xdest i 14 false = .ok y)
    (hu : q.putWps y (c.map fun z => wpWrite (q.ent.wpMembers (q.act.event.code == 5)) z) = .ok u) :
    Flow.Ends q (r.xroundSum i off n target)
      (u.pass i n (c.map fun z => wpWrite (q.ent.wpMembers (q.act.event.code == 5)) z).flatten.length) := by
  have hneed : (q.grp.exactSums || target != 2) = true := by
    by_cases h : target = 2
    · simp [hex h]
    · simp [h]
  unfold Run.xroundSum
  unfold Run.xroundFmt at hf
  simp only [hl.grp, hl.positions, hc, flow_ok_bind, hs.readOk, hneed, need_true, hf, if_true, hl.xdest, hy, hl.ent, hl.act, hs.xseCheck]
  exact (putWps_steady _ _ hl hu).next (Run.Onward.pass _ _ _ _) fun v hv => hv.pass _ _ _

/-- Sums that are not written as WP elements are rounded, to blocks or to codes. -/
theorem xroundSum_of_codes {q r : Run} {i off n target : Nat} {y : Stream} {c : List Val} (hl : Run.Like q r) (hs : Run.Sound r)
    (hex : target = 2 → q.grp.exactSums = true) (hc : q.positions off n = .ok c) (hf : q.xroundFmt target ≠ 14)
    (hy : q.xdest i (q.xroundFmt target) (target == 0 && q.grp.resMx) = .ok y) :
    r.xroundSum i off n target =
      (let bs := q.blockAll (q.xroundBy target) (q.xroundFmt target) off c
      let rs := q.roundAll (q.xroundBy target) (q.xroundFmt target) off c
      if target == 0 && q.grp.resMx then do
        let v ← r.putBlocks y n (bs.flatMap fun b => b.bytes (q.xroundFmt target))
        .ok ((v.roundCount (q.xroundFmt target) (bs.foldl (fun a b => a + b.overflows) 0) 0).pass i n 0)
      else do
        let v ← r.putCodes y (rs.map fun z => z.code)
        .ok ((v.roundCount (q.xroundFmt target) (rs.filter fun z => z.overflow).length (rs.filter fun z => z.nan).length).pass i n 0)) := by
  have hneed : (q.grp.exactSums || target != 2) = true := by
    by_cases h : target = 2
    · simp [hex h]
    · simp [h]
  unfold Run.xroundFmt at hf hy
  unfold Run.xroundSum Run.xroundBy Run.xroundFmt
  simp only [hl.grp, hl.positions, hc, flow_ok_bind, hs.readOk, hneed, need_true, hf, if_false, hl.xdest, hy, hl.ent, hl.planHall, hs.xseCheck,
    hl.blockAll, hl.roundAll, Bool.and_eq_true, beq_iff_eq]

theorem xroundSum_ends_blocks {q r u : Run} {i off n target : Nat} {y : Stream} {c : List Val} (hl : Run.Like q r) (hs : Run.Sound r)
    (hex : target = 2 → q.grp.exactSums = true) (hc : q.positions off n = .ok c) (hf : q.xroundFmt target ≠ 14)
    (hy : q.xdest i (q.xroundFmt target) (target == 0 && q.grp.resMx) = .ok y) (hmx : (target == 0 && q.grp.resMx) = true)
    (hu : q.putBlocks y n ((q.blockAll (q.xroundBy target) (q.xroundFmt target) off c).flatMap fun b => b.bytes (q.xroundFmt target)) = .ok u) :
    Flow.Ends q (r.xroundSum i off n target) (u.pass i n 0) := by
  rw [xroundSum_of_codes hl hs hex hc hf hy, if_pos hmx]
  exact (putBlocks_steady _ _ _ hl hu).next (Run.Onward.pass _ _ _ _) fun v hv => (hv.roundCount _ _ _).pass _ _ _

theorem xroundSum_ends_codes {q r u : Run} {i off n target : Nat} {y : Stream} {c : List Val} (hl : Run.Like q r) (hs : Run.Sound r)
    (hex : target = 2 → q.grp.exactSums = true) (hc : q.positions off n = .ok c) (hf : q.xroundFmt target ≠ 14)
    (hy : q.xdest i (q.xroundFmt target) (target == 0 && q.grp.resMx) = .ok y) (hmx : (target == 0 && q.grp.resMx) = false)
    (hu : q.putCodes y ((q.roundAll (q.xroundBy target) (q.xroundFmt target) off c).map fun z => z.code) = .ok u) :
    Flow.Ends q (r.xroundSum i off n target) (u.pass i n 0) := by
  rw [xroundSum_of_codes hl hs hex hc hf hy, hmx, if_neg Bool.false_ne_true]
  exact (putCodes_steady _ _ hl hu).next (Run.Onward.pass _ _ _ _) fun v hv => (hv.roundCount _ _ _).pass _ _ _

/-! ### XROUND of running values -/

theorem xroundRun_ends_codes {q r u : Run} {i off n : Nat} {y : Stream} {c : List Nat} (hl : Run.Like q r) (hs : Run.Sound r)
    (hy : q.xdest i q.grp.inFmt q.grp.inMx = .ok y) (hmx : q.grp.inMx = false)
    (hc : q.codes ⟨.window, q.grp.inFmt, q.grp.inMx, false, 0, off, 0, 0⟩ n = .ok c)
    (hu : q.putCodes y (c.map (keepCode q.grp.op q.grp.inFmt)) = .ok u) : Flow.Ends q (r.xroundRun i off n) (u.pass i n 0) := by
  unfold Run.xroundRun
  simp only [hl.grp, hl.xdest, hy, flow_ok_bind, hs.readOk, hl.codes, hc, hs.xseCheck]
  simp only [hmx, Bool.false_eq_true, if_false]
  exact (putCodes_steady _ _ hl hu).next (Run.Onward.pass _ _ _ _) fun v hv => hv.pass _ _ _

theorem xroundRun_ends_blocks {q r u : Run} {i off n : Nat} {y : Stream} {c : List Byte} (hl : Run.Like q r) (hs : Run.Sound r)
    (hy : q.xdest i q.grp.inFmt q.grp.inMx = .ok y) (hmx : q.grp.inMx = true) (hoff : off % 32 = 0)
    (hc : q.raw ⟨.window, q.grp.inFmt, q.grp.inMx, false, 0, off, 0, 0⟩ n = .ok c) (hop : ¬(q.grp.op = opMin ∨ q.grp.op = opMax))
    (hu : q.putBlocks y n c = .ok u) : Flow.Ends q (r.xroundRun i off n) (u.pass i n 0) := by
  unfold Run.xroundRun
  simp only [hl.grp, hl.xdest, hy, flow_ok_bind, hs.readOk, hl.raw, hc, hs.xseCheck, hop, if_false]
  simp only [hmx, hoff, beq_self_eq_true, need_true, flow_ok_bind, if_true]
  exact (putBlocks_steady _ _ _ hl hu).next (Run.Onward.pass _ _ _ _) fun v hv => hv.pass _ _ _

/-- Run `q` with the running values of `n` positions from `off` gone, where its activation is that of a HALL event. -/
def Run.runsGone (q : Run) (off n : Nat) : Run :=
  { q with lnd := { q.lnd with
      runs := Sparse.delIf q.lnd.runs fun p => q.act.event.code == 3 && decide (off ≤ p) && decide (p < off + 32 * cdiv n 32) } }

theorem xroundRun_ends_runs {q r u : Run} {i off n : Nat} {y : Stream} {c : List Byte} (hl : Run.Like q r) (hs : Run.Sound r)
    (hy : q.xdest i q.grp.inFmt q.grp.inMx = .ok y) (hmx : q.grp.inMx = true) (hoff : off % 32 = 0)
    (hc : q.raw ⟨.window, q.grp.inFmt, q.grp.inMx, false, 0, off, 0, 0⟩ n = .ok c) (hop : q.grp.op = opMin ∨ q.grp.op = opMax)
    (hu : (q.runsGone off n).putBlocks y n ((List.range (cdiv n 32)).flatMap fun i =>
      (runBlock q.grp.inFmt q.grp.rounding (q.runDraw (off + 32 * i)) (runsAt q.lnd.runs q.grp.inFmt q.grp.rounding (q.runDraw (off + 32 * i))
        (off + 32 * i) (slice c (i * mxBlockBytes q.grp.inFmt) (mxBlockBytes q.grp.inFmt)))).bytes q.grp.inFmt) = .ok u) :
    Flow.Ends q (r.xroundRun i off n) (u.pass i n 0) := by
  unfold Run.xroundRun
  simp only [hl.grp, hl.xdest, hy, flow_ok_bind, hs.readOk, hl.raw, hc, hs.xseCheck, hop, if_true, hl.runDraw, hl.lnd, List.flatMap_map]
  simp only [hmx, hoff, beq_self_eq_true, need_true, flow_ok_bind, if_true]
  refine Flow.Ends.after (q := q.runsGone off n) (Run.Onward.lnd _ _) ((putBlocks_steady _ _ _ ?alike hu).next (Run.Onward.pass _ _ _ _)
    fun v hv => (hv.roundCount _ _ _).pass _ _ _)
  case alike =>
    rw [hl.run]
    exact ⟨rfl, hl.st⟩

end Sys2Proof.Machine
end

section
/-! SUPPORT. Abandoning a landing (R281, R282) leaves the registers of the combine pages alone. -/

namespace Sys2Proof.Machine

/-! ### Keys of the combine pages -/

/-- Keys of the combine pages' own registers: not of their header, nor of their counters. -/
def isCmb (k : Nat) : Prop :=
  pageOf k < 0xF000000 ∧ 0x40000 ≤ pageOf k % 0x4000000 ∧ pageOf k % 0x4000000 < 0x48000 ∧ 0x100 ≤ offOf k ∧ offOf k < 0xF00

/-- `t` has the registers of the combine pages as `s` has them. -/
def CmbKept (s t : State) : Prop := RegKept isCmb s t

theorem isCmb.noEvent {k : Nat} (h : isCmb k) : noEvent k := by
  obtain ⟨hpage, -, -, -, hoff⟩ := h
  exact ⟨fun hc => by rw [isCtr] at hc; omega, fun he => by rw [isEvr] at he; omega⟩

theorem isCmb.noIrq {k : Nat} (h : isCmb k) (a : Nat) : noIrq a k := by
  refine ⟨h.noEvent, fun hi => ?_⟩
  obtain ⟨-, -, -, hoff, -⟩ := h
  rw [isIrq] at hi
  omega

theorem isCmb.noSwitch {k : Nat} (h : isCmb k) : noSwitch k := by
  refine ⟨h.noEvent, fun hb => ?_⟩
  obtain ⟨-, hlow, -, -, -⟩ := h
  rw [isBufSwp] at hb
  omega

/-- A page that is none of the combine pages. -/
def offCmb (a : Nat) : Prop := a % 4096 = 0 ∧ (0xF000000 ≤ a ∨ a % 0x4000000 < 0x40000 ∨ 0x48000 ≤ a % 0x4000000)

theorem not_isCmb_key {f : Fld} {a i : Nat} (ha : offCmb a) (ho : f.offAt i < 4096) (hl : f.loAt i < 64) : ¬isCmb (f.key a i) := by
  obtain ⟨halign, hpage⟩ := ha
  obtain ⟨hp, -⟩ := key_place f a i halign ho hl
  rintro ⟨h1, h2, h3, -, -⟩
  rw [hp] at h1 h2 h3
  omega

theorem lndPage_offCmb (d : Nat) : offCmb (lndPage d) := by unfold offCmb lndPage diePage; omega
theorem grpPage_offCmb (d : Nat) : offCmb (grpPage d) := by unfold offCmb grpPage diePage; omega
theorem trgPage_offCmb (d : Nat) : offCmb (trgPage d) := by unfold offCmb trgPage diePage; omega
theorem galPage_offCmb (d : Nat) : offCmb (galPage d) := by unfold offCmb galPage diePage; omega
theorem fwdPage_offCmb (d : Nat) : offCmb (fwdPage d) := by unfold offCmb fwdPage diePage; omega
theorem bufPage_offCmb (d : Nat) : offCmb (bufPage d) := by unfold offCmb bufPage diePage; omega
theorem ctrDiePage_offCmb (d : Nat) : offCmb (ctrDiePage d) := by unfold offCmb ctrDiePage diePage; omega
theorem arrPage_offCmb (c : Nat) : offCmb (arrPage c) := by unfold offCmb arrPage diePage; omega

namespace CmbKept

variable {s t u : State}

theorem refl (s : State) : CmbKept s s := RegKept.refl _ s
theorem of_eq (h : t.regs = s.regs) : CmbKept s t := RegKept.of_eq h
theorem trans (h : CmbKept s t) (k : CmbKept t u) : CmbKept s u := RegKept.trans h k
theorem of_moved (h : Moved noSwitch s t) : CmbKept s t := h.regs.mono fun _ h => h.noSwitch
theorem ite {c : Prop} [Decidable c] (h : CmbKept s t) (k : CmbKept s u) : CmbKept s (if c then t else u) := by
  split
  · exact h
  · exact k
theorem iff (b : Bool) (f : State → State) (h : CmbKept s (f s)) : CmbKept s (s.iff b f) := RegKept.iff b f h
theorem each {α : Type} (l : List α) (f : α → State → State) (h : ∀ x ∈ l, ∀ s, CmbKept s (f x s)) (s : State) : CmbKept s (s.each l f) :=
  RegKept.each l f h s

theorem wr (s : State) {f : Fld} {a i : Nat} (v : Nat) (ha : offCmb a) (ho : f.offAt i < 4096) (hl : f.loAt i < 64) : CmbKept s (s.wr f a v i) :=
  RegKept.wr s f a v i (not_isCmb_key ha ho hl)

theorem count (s : State) {a : Nat} (code inst n : Nat) (ha : a % 4096 = 0) : CmbKept s (s.count a code inst n) :=
  (count_kept s a code inst n ha).regs.mono fun _ h => h.noEvent.ctr

theorem irq (s : State) {a : Nat} (b : Nat) (ha : a % 4096 = 0) : CmbKept s (s.irq a b) :=
  (irq_kept s a b ha).regs.mono fun _ h => h.noIrq a

end CmbKept

/-! ### Events of any ring -/

theorem evr_offCmb {f : Fld} (e : Nat) : ¬isCmb (f.key (evrBlock e) 0) := by
  rintro ⟨h, -⟩
  unfold pageOf Fld.key evrBlock pkgPage at h
  omega

theorem evrPut_cmb (s : State) (e code sev page d0 d1 : Nat) : CmbKept s (s.evrPut e code sev page d0 d1) := by
  unfold State.evrPut
  dsimp only
  refine CmbKept.trans ?_ (CmbKept.count _ _ _ _ (evrPage_aligned e))
  refine CmbKept.trans ?_ (RegKept.wr _ _ _ _ _ (evr_offCmb e))
  exact CmbKept.trans ((request_kept _ _ _).regs.mono fun _ h => h.noEvent.ctr) (Kept.mgmt _ _).regs

theorem event_cmb (s : State) (e code sev page d0 d1 : Nat) : CmbKept s (s.event e code sev page d0 d1) := by
  have hover : CmbKept s (s.evrOverflow e) := by
    unfold State.evrOverflow
    exact CmbKept.iff _ _ ((evrPut_cmb _ _ _ _ _ _ _).trans (RegKept.wr _ _ _ _ _ (evr_offCmb e)))
  unfold State.event
  dsimp only
  split_ifs
  · exact CmbKept.refl _
  · refine hover.trans (CmbKept.trans ?_ (CmbKept.count _ _ _ _ (evrPage_aligned e)))
    exact RegKept.wr _ _ _ _ _ (evr_offCmb e)
  · exact hover.trans (evrPut_cmb _ _ _ _ _ _ _)

/-! ### Treads and frames -/

theorem poolTake_cmb (s : State) (d : Nat) (p : Pool) (n : Nat) : CmbKept s (s.poolTake d p n) := by
  unfold State.poolTake
  exact (CmbKept.of_moved (poolMove_moved _ _ _ _)).trans (CmbKept.iff _ _ (CmbKept.irq _ _ (bufPage_offCmb d).1))

theorem release_cmb (s : State) (id : Nat) : CmbKept s (s.release id) := CmbKept.of_moved (release_moved s id)

theorem newFrame_cmb (s : State) (f : Frame) : CmbKept s (s.newFrame f).2 := by
  unfold State.newFrame
  refine CmbKept.trans ?_ (poolTake_cmb _ _ _ _)
  exact CmbKept.of_eq rfl

theorem enqueue_cmb (s : State) (id : Nat) (t : Target) : CmbKept s (s.enqueue id t) := by
  unfold State.enqueue
  split
  · exact CmbKept.refl _
  · exact CmbKept.of_eq rfl

theorem waitFor_cmb (s : State) (w : Wait) : CmbKept s (s.waitFor w) := by
  unfold State.waitFor
  split
  · exact CmbKept.refl _
  · exact CmbKept.of_eq rfl

/-! ### Selection -/

theorem assign_cmb (s : State) (d kind l n : Nat) : CmbKept s (s.assign d kind l n) := by
  unfold State.assign
  split_ifs
  · exact CmbKept.refl _
  · exact CmbKept.of_eq rfl

theorem pickPacket_cmb {s : State} {d ptr kind n : Nat} {ms : List Member} {occ : Nat → Nat} {y : Nat × State}
    (h : s.pickPacket d ptr kind n ms occ = some y) : CmbKept s y.2 := by
  unfold State.pickPacket at h
  dsimp only at h
  split at h
  · cases h
  · cases h
    exact (assign_cmb s d kind _ n).trans (CmbKept.of_eq rfl)

/-- What a selection leaves: the combine pages as they were, and a discard, if any, counted on a page. -/
structure SelKept (s : State) (y : Sel × State) : Prop where
  kept : CmbKept s y.2
  page : ∀ page code, y.1 = .drop page code → page % 4096 = 0

namespace SelKept

variable {s t : State} {y : Sel × State}

theorem queue (h : CmbKept s t) (x : Target) : SelKept s (.queue x, t) := ⟨h, fun _ _ e => by cases e⟩
theorem wait (h : CmbKept s t) (k : WaitKind) (no : Bool) : SelKept s (.wait k no, t) := ⟨h, fun _ _ e => by cases e⟩
theorem noRoute (h : CmbKept s t) (d code : Nat) : SelKept s (.drop (fwdPage d) code, t) :=
  ⟨h, fun _ _ e => by cases e; exact (fwdPage_offCmb d).1⟩
theorem after (h : CmbKept s t) (k : SelKept t y) : SelKept s y := ⟨h.trans k.kept, k.page⟩

end SelKept

theorem selLeaf_kept (s : State) (d leaf : Nat) (f : Frame) (mc : Bool) (hdr : Option CopyHdr) : SelKept s (s.selLeaf d leaf f mc hdr) := by
  unfold State.selLeaf
  dsimp only
  generalize hs : State.iff s _ _ = t
  have ht : CmbKept s t := hs ▸ CmbKept.iff _ _ (CmbKept.count _ _ _ _ (galPage_offCmb d).1)
  split
  · exact .noRoute ht _ _
  · next y hy =>
    refine .queue (ht.trans ?_) _
    split_ifs at hy
    · exact pickPacket_cmb hy
    · obtain ⟨l, -, hl⟩ := Option.map_eq_some_iff.mp hy
      cases hl
      exact assign_cmb _ _ _ _ _

theorem pickRing_cmb {s : State} {d : Nat} {asc : Bool} {f : Frame} {need : Nat} {y : Nat × State} (h : s.pickRing d asc f need = some y) :
    CmbKept s y.2 := by
  unfold State.pickRing at h
  refine CmbKept.trans ?_ (pickPacket_cmb h)
  exact CmbKept.iff _ _ (CmbKept.count _ _ _ _ (galPage_offCmb d).1)

theorem enterRing_kept (s : State) (d h : Nat) (f : Frame) (mc : Bool) (hdr : Option CopyHdr) : SelKept s (s.enterRing d h f mc hdr) := by
  unfold State.enterRing
  dsimp only
  split
  · exact .wait (CmbKept.refl _) _ _
  · split
    · exact .wait (CmbKept.refl _) _ _
    · generalize (if s.ringServed _ then _ else _ : Bool) = asc
      split
      · exact .wait (CmbKept.refl _) _ _
      · next y hy =>
        refine .queue ?_ _
        refine CmbKept.trans ?_ (CmbKept.wr _ _ (galPage_offCmb _) (by decide) (by decide))
        refine CmbKept.trans ?_ (CmbKept.count _ _ _ _ (galPage_offCmb _).1)
        refine CmbKept.trans ?_ (CmbKept.iff _ _ (CmbKept.count _ _ _ _ (galPage_offCmb _).1))
        exact (pickRing_cmb hy).trans (CmbKept.iff _ _ (CmbKept.count _ _ _ _ (galPage_offCmb _).1))

theorem selHall_kept (s : State) (d h : Nat) (f : Frame) (mc : Bool) (hdr : Option CopyHdr) : SelKept s (s.selHall d h f mc hdr) := by
  unfold State.selHall
  dsimp only
  split
  · exact .wait (CmbKept.refl _) _ _
  · split
    · exact .noRoute (CmbKept.refl _) _ _
    · generalize hs : State.iff s _ _ = t
      have ht : CmbKept s t := hs ▸ CmbKept.iff _ _ (CmbKept.irq _ _ (galPage_offCmb d).1)
      split
      · next y hy =>
        refine .queue (ht.trans ?_) _
        split_ifs at hy
        · exact pickPacket_cmb hy
        · obtain ⟨l, -, hl⟩ := Option.map_eq_some_iff.mp hy
          cases hl
          exact assign_cmb _ _ _ _ _
      · split_ifs
        · exact .after ht (enterRing_kept _ _ _ _ _ _)
        · exact .noRoute ht _ _

theorem selContinue_kept (s : State) (d p h : Nat) (f : Frame) : SelKept s (s.selContinue d p h f) := by
  unfold State.selContinue
  split
  · exact .wait (CmbKept.refl _) _ _
  · split
    · exact .wait (CmbKept.refl _) _ _
    · next y hy =>
      refine .queue (CmbKept.trans (pickRing_cmb hy) ?_) _
      exact CmbKept.count _ _ _ _ (galPage_offCmb _).1

theorem select_kept (s : State) (f : Frame) (dest : Dest) (mc : Bool) (hdr : Option CopyHdr) (onRing : Bool) :
    SelKept s (s.select f dest mc hdr onRing) := by
  unfold State.select
  cases dest with
  | leaf n =>
    refine .after ?_ (selLeaf_kept _ _ _ _ _ _)
    exact CmbKept.iff _ _ (CmbKept.count _ _ _ _ (galPage_offCmb _).1)
  | port l =>
    dsimp only
    split
    · exact .queue (CmbKept.refl _) _
    · exact .noRoute (CmbKept.refl _) _ _
  | hall h =>
    dsimp only
    split
    · exact selContinue_kept _ _ _ _ _
    · exact selHall_kept _ _ _ _ _ _

theorem choose_kept (s : State) (id : Nat) (ws : List Wait) (f : Frame) (c : Copy) : SelKept s (s.choose id ws f c) := by
  unfold State.choose
  dsimp only
  split
  · exact .wait (CmbKept.refl _) _ _
  · split
    · split
      · exact .wait (CmbKept.refl _) _ _
      · exact select_kept _ _ _ _ _ _
    · exact select_kept _ _ _ _ _ _

/-! ### Admission and placing -/

theorem dropNew_cmb (s : State) (f : Frame) {page : Nat} (code l : Nat) (ha : page % 4096 = 0) : CmbKept s (s.dropNew f page code l) :=
  CmbKept.of_moved (dropNew_moved s f page code l ha)

theorem giveTreads_cmb (s : State) (f : Frame) : CmbKept s (s.giveTreads f) := CmbKept.of_moved (giveTreads_moved s f)

/-- A frame moves its treads to another pool. -/
theorem moveTreads_cmb (s : State) (f g : Frame) (d id : Nat) (p : Pool) :
    CmbKept s (((s.giveTreads f).poolTake d p f.treads).setFrame id g) := by
  refine CmbKept.trans ?_ (CmbKept.of_eq rfl)
  exact (giveTreads_cmb s f).trans (poolTake_cmb _ _ _ _)

theorem admitLocal_cmb (s : State) (id : Nat) (tested again : Bool) (t : Target) : CmbKept s (s.admitLocal id tested again t) := by
  unfold State.admitLocal
  split
  · exact CmbKept.refl _
  · dsimp only
    split
    · exact dropNew_cmb _ _ _ _ (bufPage_offCmb _).1
    · split
      · split
        · exact waitFor_cmb _ _
        · split
          · exact enqueue_cmb _ _ _
          · exact (newFrame_cmb _ _).trans (enqueue_cmb _ _ _)
      · split
        · split
          · exact waitFor_cmb _ _
          · split
            · split
              · exact (moveTreads_cmb _ _ _ _ _ _).trans (enqueue_cmb _ _ _)
              · exact waitFor_cmb _ _
            · exact enqueue_cmb _ _ _
        · split
          · exact enqueue_cmb _ _ _
          · exact dropNew_cmb _ _ _ _ (bufPage_offCmb _).1

theorem admitCross_cmb (s : State) (id d : Nat) (again : Bool) (ts : List Target) : CmbKept s (s.admitCross id d again ts) := by
  unfold State.admitCross
  split
  · exact CmbKept.refl _
  · dsimp only
    generalize hu : State.each s _ _ = u
    have ht : CmbKept s u := hu ▸ CmbKept.each _ _ (fun _ _ _ => dropNew_cmb _ _ _ _ (bufPage_offCmb _).1) s
    refine CmbKept.ite ht (CmbKept.ite (ht.trans (waitFor_cmb _ _)) ?_)
    refine ht.trans (CmbKept.trans ?_ (waitFor_cmb _ _))
    refine CmbKept.trans ?_ (newFrame_cmb _ _)
    exact CmbKept.iff _ _ (moveTreads_cmb _ _ _ _ _ _)

theorem noEscape_cmb (s : State) (d : Nat) : CmbKept s (s.noEscape d) := by
  unfold State.noEscape
  refine CmbKept.trans ?_ (CmbKept.irq _ _ (galPage_offCmb d).1)
  exact CmbKept.count _ _ _ _ (galPage_offCmb d).1

theorem foldl_cmb {α β : Type} {f : β × State → α → β × State} (h : ∀ a x, CmbKept a.2 (f a x).2) (l : List α) (a : β × State) :
    CmbKept a.2 (l.foldl f a).2 := by
  induction l generalizing a with
  | nil => exact CmbKept.refl _
  | cons x l ih => exact (h a x).trans (ih (f a x))

theorem selectAll_cmb (s : State) (id : Nat) (counted : Bool) (ws : List Wait) (cs : List Copy) :
    CmbKept s (s.selectAll id counted ws cs).2 := by
  unfold State.selectAll
  refine foldl_cmb (fun a c => ?_) cs ([], s)
  split
  · exact CmbKept.refl _
  · next f hf =>
    obtain ⟨hkept, hpage⟩ := choose_kept a.2 id ws f c
    dsimp only
    split
    · next h => rw [h] at hkept; exact hkept
    · next h =>
      rw [h] at hkept hpage
      exact hkept.trans (dropNew_cmb _ _ _ _ (hpage _ _ rfl))
    · next h =>
      rw [h] at hkept
      refine hkept.trans (CmbKept.trans ?_ (waitFor_cmb _ _))
      exact CmbKept.iff _ _ (noEscape_cmb _ _)

theorem place_cmb (s : State) (id : Nat) (cs : List Copy) : CmbKept s (s.place id cs) := by
  unfold State.place State.placeBehind
  split
  · exact CmbKept.refl _
  · refine CmbKept.trans ?_ (release_cmb _ _)
    refine CmbKept.trans ?_ (CmbKept.each _ _ (fun _ _ _ => CmbKept.iff _ _ (admitCross_cmb _ _ _ _ _)) _)
    refine CmbKept.trans ?_ (CmbKept.each _ _ (fun _ _ _ => admitLocal_cmb _ _ _ _ _) _)
    exact selectAll_cmb _ _ _ _ _

/-! ### Frames of the device -/

theorem destinations_cmb (s : State) (d : Nat) (from_ : Option Nat) (fea : Nat) : CmbKept s (s.destinations d from_ fea).2 := by
  unfold State.destinations
  split
  · exact CmbKept.refl _
  · split
    · split <;> exact CmbKept.refl _
    · split
      · dsimp only
        exact CmbKept.count _ _ _ _ (fwdPage_offCmb d).1
      · exact CmbKept.refl _

theorem copiesTo_cmb (s : State) (d : Nat) (from_ : Option Nat) (hs : List CopyHdr) : CmbKept s (s.copiesTo d from_ hs).2 := by
  unfold State.copiesTo
  refine foldl_cmb (fun a h => ?_) hs ([], s)
  exact destinations_cmb a.2 d from_ h.fea

theorem placeTo_cmb (s : State) (id d : Nat) (hs : List CopyHdr) : CmbKept s (s.placeTo id d hs) := by
  unfold State.placeTo
  exact (copiesTo_cmb _ _ _ _).trans (place_cmb _ _ _)

theorem dropAt_cmb (s : State) {page : Nat} (code cls src : Nat) (ha : page % 4096 = 0) : CmbKept s (s.dropAt page code cls src) :=
  CmbKept.of_moved (dropAt_moved s page code cls src ha)

theorem sendFrom_cmb (s : State) (d c fea : Nat) (h : Hjt) : CmbKept s (s.sendFrom d c fea h) := by
  unfold State.sendFrom
  dsimp only
  split
  · exact (newFrame_cmb _ _).trans (placeTo_cmb _ _ _ _)
  · exact dropAt_cmb _ _ _ _ (bufPage_offCmb d).1

/-! ### Landings freed, and entries that end -/

theorem dropEvent_cmb (s : State) (e : FlightEvent) : CmbKept s (s.dropEvent e) := by
  unfold State.dropEvent
  split
  · exact release_cmb _ _
  · exact CmbKept.refl _

theorem stopLanding_cmb (s : State) (k : Key) (l : Landing) : CmbKept s (s.stopLanding k l) := by
  unfold State.stopLanding
  dsimp only
  refine CmbKept.trans ?_ (CmbKept.iff _ _ ?_)
  · refine CmbKept.trans ?_ (CmbKept.of_eq rfl)
    refine CmbKept.trans ?_ (CmbKept.each _ _ (fun _ _ _ => dropEvent_cmb _ _) _)
    exact CmbKept.each _ _ (fun _ _ _ => dropEvent_cmb _ _) _
  · refine CmbKept.trans ?_ (CmbKept.irq _ _ (arrPage_offCmb _).1)
    refine CmbKept.trans ?_ (CmbKept.count _ _ _ _ (arrPage_offCmb _).1)
    exact CmbKept.wr _ _ (arrPage_offCmb _) (by decide) (by decide)

theorem freeLanding_cmb (s : State) (k : Key) (l : Landing) : CmbKept s (s.freeLanding k l) := by
  unfold State.freeLanding
  dsimp only
  refine CmbKept.trans ?_ (CmbKept.of_eq rfl)
  unfold State.releaseArea
  refine CmbKept.trans ?_ (CmbKept.iff _ _ (CmbKept.of_eq rfl))
  exact (stopLanding_cmb s k l).trans (CmbKept.of_moved (poolMove_moved _ _ _ _))

theorem freeAll_cmb (s : State) (e : Entry) : CmbKept s (s.freeAll e) := CmbKept.each _ _ (fun _ _ _ => freeLanding_cmb _ _ _) s

theorem disableGroup_cmb (s : State) (g : Nat) : CmbKept s (s.disableGroup g) := by
  unfold State.disableGroup
  dsimp only
  split
  · exact CmbKept.refl _
  · refine CmbKept.trans ?_ (CmbKept.each _ _ (fun _ _ _ => CmbKept.irq _ _ (grpPage_offCmb _).1) _)
    exact CmbKept.of_eq rfl

theorem fired_cmb (s : State) (t : Nat) (pageIrq : Bool) : CmbKept s (s.fired t pageIrq) := by
  unfold State.fired
  dsimp only
  refine CmbKept.trans ?_ (CmbKept.iff _ _ ?_)
  · refine CmbKept.trans ?_ (CmbKept.count _ _ _ _ (trgPage_offCmb _).1)
    exact CmbKept.wr _ _ (trgPage_offCmb _) (by decide) (by decide)
  · refine CmbKept.trans ?_ (CmbKept.irq _ _ (trgPage_offCmb _).1)
    exact CmbKept.wr _ _ (trgPage_offCmb _) (by decide) (by decide)

theorem setTrigger_cmb (s : State) (t : Nat) (x : Trigger) : CmbKept s (s.setTrigger t x) := CmbKept.of_eq rfl

theorem triggerEvent_cmb (fuel : Nat) (arm : Bool) (t : Nat) (s : State) : CmbKept s (s.triggerEvent fuel arm t) := by
  induction fuel generalizing arm t s with
  | zero =>
    unfold State.triggerEvent
    dsimp only
    refine CmbKept.trans (CmbKept.ite (CmbKept.refl _) (setTrigger_cmb _ _ _)) (CmbKept.ite (CmbKept.refl _) ?_)
    refine CmbKept.trans (fired_cmb _ _ _) (CmbKept.ite (disableGroup_cmb _ _) (CmbKept.ite ?_ (CmbKept.refl _)))
    refine CmbKept.trans ?_ (CmbKept.count _ _ _ _ (trgPage_offCmb _).1)
    exact CmbKept.irq _ _ (trgPage_offCmb _).1
  | succ k ih =>
    unfold State.triggerEvent
    dsimp only
    refine CmbKept.trans (CmbKept.ite (CmbKept.refl _) (setTrigger_cmb _ _ _)) (CmbKept.ite (CmbKept.refl _) ?_)
    exact CmbKept.trans (fired_cmb _ _ _) (CmbKept.ite (disableGroup_cmb _ _) (CmbKept.ite (ih _ _ _) (CmbKept.refl _)))

theorem triggerSource_cmb (s : State) (src group step : Nat) : CmbKept s (s.triggerSource src group step) :=
  CmbKept.each _ _ (fun _ _ _ => triggerEvent_cmb _ _ _ _) s

theorem bury_cmb (s : State) (k : Key) : CmbKept s (s.bury k) := CmbKept.of_eq rfl

theorem incomplete_cmb (s : State) (e : Entry) : CmbKept s (s.incomplete e) := by
  unfold State.incomplete
  dsimp only
  have hfree : CmbKept s ((s.freeAll e).dropHeld e) :=
    (freeAll_cmb s e).trans (CmbKept.each _ _ (fun _ _ _ => release_cmb _ _) _)
  refine hfree.trans (CmbKept.ite (bury_cmb _ _) ?_)
  refine CmbKept.trans ?_ (triggerSource_cmb _ _ _ _)
  refine CmbKept.trans ?_ (bury_cmb _ _)
  refine CmbKept.trans ?_ (CmbKept.irq _ _ (lndPage_offCmb _).1)
  refine CmbKept.trans ?_ (CmbKept.count _ _ _ _ (lndPage_offCmb _).1)
  refine CmbKept.trans ?_ (event_cmb _ _ _ _ _ _ _)
  exact CmbKept.each _ _ (fun _ _ _ => sendFrom_cmb _ _ _ _ _) _

/-! ### Fragments that land again -/

theorem passAdvance_cmb (s : State) (k : Key) : CmbKept s (s.passAdvance k) := by
  unfold State.passAdvance
  refine CmbKept.iff _ _ ?_
  refine CmbKept.trans ?_ (CmbKept.count _ _ _ _ (galPage_offCmb _).1)
  exact CmbKept.of_eq rfl

theorem raise_cmb (s : State) (c : Nat) (e : FlightEvent) : CmbKept s (s.raise c e) := by
  unfold State.raise
  refine CmbKept.trans ?_ (CmbKept.iff _ _ (CmbKept.count _ _ _ _ (cmbPage_aligned c)))
  exact CmbKept.of_eq rfl

theorem claim_cmb (s : State) (k : Key) (x : Group) (kind : LandingKind) (pass : Bool) (cluster : Nat) :
    CmbKept s (s.claim k x kind pass cluster).2 := by
  unfold State.claim
  dsimp only
  split
  · dsimp only
    refine CmbKept.trans ?_ (raise_cmb _ _ _)
    refine CmbKept.trans ?_ (CmbKept.count _ _ _ _ (lndPage_offCmb _).1)
    exact poolTake_cmb _ _ _ _
  · dsimp only
    refine CmbKept.trans ?_ (CmbKept.irq _ _ (lndPage_offCmb _).1)
    refine CmbKept.trans ?_ (CmbKept.count _ _ _ _ (lndPage_offCmb _).1)
    refine CmbKept.trans ?_ (CmbKept.wr _ _ (lndPage_offCmb _) (by decide) (by decide))
    refine CmbKept.trans ?_ (CmbKept.wr _ _ (lndPage_offCmb _) (by decide) (by decide))
    refine CmbKept.trans ?_ (CmbKept.wr _ _ (lndPage_offCmb _) (by decide) (by decide))
    exact CmbKept.wr _ _ (lndPage_offCmb _) (by decide) (by decide)

theorem toDropClass_cmb (s : State) (id : Nat) (f : Frame) : CmbKept s (s.toDropClass id f).2 := by
  unfold State.toDropClass
  dsimp only
  have hcount : CmbKept s (s.uncount f) := CmbKept.iff _ _ (CmbKept.of_moved (setIngress_moved _ _ _ _))
  split
  · exact hcount.trans (CmbKept.of_eq rfl)
  · split
    · exact hcount.trans (moveTreads_cmb _ _ _ _ _ _)
    · refine hcount.trans (CmbKept.trans ?_ (dropAt_cmb _ _ _ _ (bufPage_offCmb _).1))
      exact CmbKept.of_eq rfl

theorem passOn_cmb (s : State) (id : Nat) (unreduced : Bool) (feas : List Nat) : CmbKept s (s.passOn id unreduced feas) := by
  unfold State.passOn
  split
  · exact CmbKept.refl _
  · next f hf =>
    have hdrop : CmbKept s (if unreduced then s.toDropClass id f else (true, s)).2 := by
      split
      · exact toDropClass_cmb _ _ _
      · exact CmbKept.refl _
    dsimp only
    exact hdrop.trans (CmbKept.ite (placeTo_cmb _ _ _ _) (release_cmb _ _))

theorem dispatchFragment_cmb (s : State) (k : Key) (id : Nat) : CmbKept s (s.dispatchFragment k id) := by
  unfold State.dispatchFragment
  split
  · split
    · refine CmbKept.trans ?_ (raise_cmb _ _ _)
      exact CmbKept.of_eq rfl
    · exact release_cmb _ _
  · exact release_cmb _ _

theorem writeLag_cmb (s : State) (e : Entry) : CmbKept s (s.writeLag e) := by
  unfold State.writeLag
  dsimp only
  split
  · exact CmbKept.refl _
  · refine CmbKept.trans ?_ (CmbKept.count _ _ _ _ (ctrDiePage_offCmb _).1)
    refine CmbKept.trans ?_ (CmbKept.wr _ _ (ctrDiePage_offCmb _) (by decide) (by decide))
    exact CmbKept.of_eq rfl

theorem setEntry_cmb (s : State) (e : Entry) : CmbKept s (s.setEntry e) := by
  unfold State.setEntry
  split <;> exact CmbKept.of_eq rfl

theorem landFragment_cmb (s : State) (k : Key) (x : Group) (id cluster : Nat) : CmbKept s (s.landFragment k x id cluster) := by
  unfold State.landFragment
  split
  · exact release_cmb _ _
  · split
    · split
      · exact CmbKept.of_eq rfl
      · exact dispatchFragment_cmb _ _ _
    · dsimp only
      split
      · exact passOn_cmb _ _ _ _
      · have hclaim := claim_cmb s k x .head true cluster
        split
        · next h =>
          rw [h] at hclaim
          refine hclaim.trans (CmbKept.trans ?_ (dispatchFragment_cmb _ _ _))
          exact (setEntry_cmb _ _).trans (CmbKept.iff _ _ (writeLag_cmb _ _))
        · next h =>
          rw [h] at hclaim
          refine hclaim.trans (CmbKept.trans ?_ (passOn_cmb _ _ _ _))
          exact CmbKept.of_eq rfl

/-- Abandoning a landing leaves the registers of the combine pages alone. -/
theorem abandon_cmb (s : State) (k : Key) : CmbKept s (s.abandon k) := by
  unfold State.abandon
  split
  · exact CmbKept.refl _
  · refine CmbKept.ite (CmbKept.refl _) ?_
    dsimp only
    have hcount : CmbKept s ((s.count (lndPage k.home) 0x88).irq (lndPage k.home) 6) :=
      CmbKept.trans (CmbKept.count _ _ _ _ (lndPage_offCmb _).1) (CmbKept.irq _ _ (lndPage_offCmb _).1)
    refine hcount.trans (CmbKept.ite (incomplete_cmb _ _) ?_)
    refine CmbKept.trans ?_ (CmbKept.each _ _ (fun _ _ _ => landFragment_cmb _ _ _ _ _) _)
    refine CmbKept.trans ?_ (passAdvance_cmb _ _)
    refine CmbKept.trans ?_ (CmbKept.of_eq rfl)
    exact (freeAll_cmb _ _).trans (CmbKept.each _ _ (fun _ _ _ => sendFrom_cmb _ _ _ _ _) _)

end Sys2Proof.Machine
end

section
/-! SUPPORT. The vector and exact-sum instructions from the run that their issue begins, and the FORMAT fault of XADD. -/

namespace Sys2Proof.Machine

/-- An issue that finds nothing wrong, with no injection armed, begins a sound run. -/
theorem begun_sound {s : State} {c i : Nat} {a : Activation} {e : Entry} {l : Landing} {find : Find} {eng : Nat}
    (hf : find = .ok ∨ ∃ x, find = .corrected x) (hv : (s.core c).vecArm = []) (hx : (s.core c).xseArm = []) :
    Run.Sound (s.begun c i a e l find eng) := by
  have hcore : (s.begun c i a e l find eng).st.core c = s.core c :=
    (Calm.of_kept (begun_still s c i a e l find eng)).core c
  have hfind : (s.begun c i a e l find eng).find = find := rfl
  constructor
  · intro x h; rw [hfind] at h; rcases hf with hf | ⟨y, hf⟩ <;> rw [hf] at h <;> cases h
  · intro g b u x o y z h; rw [hfind] at h; rcases hf with hf | ⟨w, hf⟩ <;> rw [hf] at h <;> cases h
  · exact (congrArg Core.vecArm hcore).trans hv
  · exact (congrArg Core.xseArm hcore).trans hx

theorem begun_port {s : State} {c i : Nat} {a : Activation} {e : Entry} {l : Landing} {find : Find} {eng j : Nat} {x : Stream}
    (h : (a.sp.find? fun y => y.1 == j) = some (j, x)) : (s.begun c i a e l find eng).port j = .ok x := port_ok h

theorem begun_planHall (s : State) (c i : Nat) (a : Activation) (e : Entry) (l : Landing) (find : Find) (eng : Nat) :
    (s.begun c i a e l find eng).st.planHall = s.planHall := by
  unfold State.planHall
  rw [(begun_still s c i a e l find eng).boot]
  rfl

/-- An instruction of no elements retires with nothing done. -/
theorem retires_noop {cmd : Instr} {s : State} {c i w : Nat} {a : Activation} {e : Entry} {l : Landing} {op : Nat} {find : Find} {eng : Nat}
    {f : Nat → Run → Flow Run} (hcmd : exec cmd s = s.command (issue op c i find eng f)) (hi : s.issues c i w a e l)
    (hm : s.mayIssue c i w a e l) (hop : opOf w = op) (hf : f w (s.begun c i a e l find eng) = .ok (s.begun c i a e l find eng)) :
    Retires cmd s c i a.event.key e (a.next (a.pc + 1)) l :=
  retires_of_ok hcmd hi hm hop hf (Run.Onward.refl _)

theorem begun_withEng (s : State) (c i : Nat) (a : Activation) (e : Entry) (l : Landing) (find : Find) (eng k : Nat) :
    ({ s.begun c i a e l find eng with eng := k } : Run) = s.begun c i a e l find k := by
  simp only [State.begun]

theorem pass_lnd (q : Run) (i n b : Nat) : (q.pass i n b).lnd = q.lnd := by
  unfold Run.pass
  cases q.port i <;> rfl

theorem withLnd_pass_act (q : Run) (m : Landing) (i n b : Nat) : (Run.pass { q with lnd := m } i n b).act = (q.pass i n b).act := by
  have hp : Run.port { q with lnd := m } i = q.port i := rfl
  unfold Run.pass
  rw [hp]
  cases q.port i <;> rfl

theorem positions_ok {q : Run} {off n : Nat} {c : List Val}
    (h : if q.grp.exactSums then ∃ old, q.accums off n = .ok old ∧ c = old.map fun z => z.val q.grp.inFmt q.grp.inMx
      else q.vals ⟨.window, if q.grp.inFmt = 0 then 0 else 1, false, false, 0, off, 0, 0⟩ n = .ok c) : q.positions off n = .ok c := by
  unfold Run.positions
  split_ifs at h ⊢
  · obtain ⟨old, hold, rfl⟩ := h
    rw [hold]
    rfl
  · exact h
  · exact h

/-! ### A flight fault -/

theorem cmbFault_isCmb {f : Fld} (c : Nat) (hc : c < 32) (h1 : 0x100 ≤ f.offAt 0) (h2 : f.offAt 0 < 0xF00) (h3 : f.loAt 0 < 64) :
    isCmb (f.key (cmbPage c) 0) := by
  obtain ⟨hp, ho⟩ := key_place f (cmbPage c) 0 (cmbPage_aligned c) (by omega) h3
  unfold isCmb
  rw [hp, ho]
  unfold cmbPage diePage
  omega

/-- A flight fault records its reason. -/
theorem faultRegs_reason (s : State) {c : Nat} (hc : c < 32) (slot pc w group job reason : Nat) :
    (s.faultRegs c slot pc w group job reason).rd CMB_FAULT.reason (cmbPage c) = reason % 16 := by
  have hk : isCmb (CMB_FAULT.reason.key (cmbPage c) 0) := cmbFault_isCmb c hc (by decide) (by decide) (by decide)
  unfold State.faultRegs
  dsimp only
  rw [(CmbKept.irq _ _ (cmbPage_aligned c)).rd hk, (CmbKept.count _ _ _ _ (cmbPage_aligned c)).rd hk]
  rw [State.rd_wr_ne _ _ (key_ne _ _ _ _ _ (by decide)), State.inc, State.rd_wr_ne _ _ (key_ne _ _ _ _ _ (by decide)),
    State.rd_wr_ne _ _ (key_ne _ _ _ _ _ (by decide)), State.rd_wr_ne _ _ (key_ne _ _ _ _ _ (by decide)),
    State.rd_wr_ne _ _ (key_ne _ _ _ _ _ (by decide)), State.rd_wr_ne _ _ (key_ne _ _ _ _ _ (by decide)), State.rd_wr_same]
  rfl

/-- An instruction whose effect faults leaves its reason in CMB_FAULT. -/
theorem completes_fault {cmd : Instr} {s : State} {c i w : Nat} {a : Activation} {e : Entry} {l : Landing} {op : Nat} {find : Find} {eng n : Nat}
    {f : Nat → Run → Flow Run} (hcmd : exec cmd s = s.command (issue op c i find eng f)) (hi : s.issues c i w a e l)
    (hm : s.mayIssue c i w a e l) (hop : opOf w = op) (hc : c < 32) (hf : f w (s.begun c i a e l find eng) = .error (.fault n)) :
    Completes cmd s fun t => t.rd CMB_FAULT.reason (cmbPage c) = n % 16 := by
  refine ⟨_, hcmd, ?_⟩
  dsimp only
  rw [State.run_rd, issue_eq hi hm hop, hf]
  dsimp only
  unfold Run.halt Run.faulted
  dsimp only
  have hk : isCmb (CMB_FAULT.reason.key (cmbPage c) 0) := cmbFault_isCmb c hc (by decide) (by decide) (by decide)
  rw [(abandon_cmb _ _).rd hk]
  exact faultRegs_reason _ hc _ _ _ _ _ _

/-! ### Rows that retire in several ways -/

section
variable {s : State} {core : Fin 32} {ctx : Fin 4} {w : Nat} {a : Activation} {e : Entry} {l : Landing} {find : Find} {eng : Fin 2} {u : Run}
  {x : Stream}

theorem vbin_retires (hi : s.issues core.val ctx.val w a e l) (hm : s.mayIssue core.val ctx.val w a e l) (hop : opOf w = 0x1C)
    (h : Flow.Ends (s.begun core.val ctx.val a e l find 0) ((s.begun core.val ctx.val a e l find 0).vbin w) u) :
    Retires (.vbin core ctx find) s core.val ctx.val a.event.key e u.act u.lnd :=
  retires_of_ends (f := fun w r => r.vbin w) rfl hi hm hop h

theorem vquant_retires (hi : s.issues core.val ctx.val w a e l) (hm : s.mayIssue core.val ctx.val w a e l) (hop : opOf w = 0x1E)
    (h : Flow.Ends (s.begun core.val ctx.val a e l find 0) ((s.begun core.val ctx.val a e l find 0).vquant w) u) :
    Retires (.vquant core ctx find) s core.val ctx.val a.event.key e u.act u.lnd :=
  retires_of_ends (f := fun w r => r.vquant w) rfl hi hm hop h

theorem xround_retires (hi : s.issues core.val ctx.val w a e l) (hm : s.mayIssue core.val ctx.val w a e l) (hop : opOf w = 0x21)
    (h : Flow.Ends (s.begun core.val ctx.val a e l find eng.val) ((s.begun core.val ctx.val a e l find eng.val).xround w) u) :
    Retires (.xround core ctx find eng) s core.val ctx.val a.event.key e u.act u.lnd :=
  retires_of_ends (f := fun w r => r.xround w) rfl hi hm hop h

theorem xadd_retires (hi : s.issues core.val ctx.val w a e l) (hm : s.mayIssue core.val ctx.val w a e l) (hop : opOf w = 0x20)
    (h : Flow.Ends (s.begun core.val ctx.val a e l find eng.val) ((s.begun core.val ctx.val a e l find eng.val).xadd w) u) :
    Retires (.xadd core ctx find eng) s core.val ctx.val a.event.key e u.act u.lnd :=
  retires_of_ends (f := fun w r => r.xadd w) rfl hi hm hop h

/-- XADD that stores sums changes the window alone of the landing. -/
theorem xadd_retires_summed {off i n b : Nat} {new : List (Accum × Bool)} (hi : s.issues core.val ctx.val w a e l)
    (hm : s.mayIssue core.val ctx.val w a e l) (hop : opOf w = 0x20)
    (h : Flow.Ends (s.begun core.val ctx.val a e l find eng.val) ((s.begun core.val ctx.val a e l find eng.val).xadd w)
      (((s.begun core.val ctx.val a e l find eng.val).summed off new).pass i n b)) :
    Retires (.xadd core ctx find eng) s core.val ctx.val a.event.key e ((s.begun core.val ctx.val a e l find eng.val).pass i n b).act
      ((s.begun core.val ctx.val a e l find eng.val).summed off new).lnd := by
  have hr := xadd_retires hi hm hop h
  rwa [pass_lnd, Run.summed, withLnd_pass_act] at hr

/-- XADD that combines running values marks its positions written. -/
theorem xadd_retires_wrote {off i n m : Nat} (hi : s.issues core.val ctx.val w a e l) (hm : s.mayIssue core.val ctx.val w a e l)
    (hop : opOf w = 0x20)
    (h : Flow.Ends (s.begun core.val ctx.val a e l find eng.val) ((s.begun core.val ctx.val a e l find eng.val).xadd w)
      ((u.wrote off n).pass i m 0)) :
    Retires (.xadd core ctx find eng) s core.val ctx.val a.event.key e (u.pass i m 0).act (u.wrote off n).lnd := by
  have hr := xadd_retires hi hm hop h
  rwa [pass_lnd, Run.wrote, withLnd_pass_act] at hr

end

end Sys2Proof.Machine

open Sys2Proof Sys2Proof.Machine

/-- Settles O55: each row's effect succeeds from the run that its issue begins, with what its rule writes; in FAST mode XADD faults, and the
abandonment that follows leaves the fault's registers alone. -/
theorem vectorAndExactInstructionsRetire : Obligations.VectorAndExactInstructionsRetire := by
  intro s core ctx w a e l find eng hi hm hfind hva hxa run r still g goes ends reg port p q v cvt
  have hs : ∀ n, Run.Sound (s.begun core.val ctx.val a e l find n) := fun n => begun_sound hfind hva hxa
  have hr0 : ({ r with eng := 0 } : Run) = s.begun core.val ctx.val a e l find 0 := begun_withEng s core.val ctx.val a e l find eng.val 0
  have hstill : still = s.begun core.val ctx.val a e l .ok 0 := by
    simp only [still, run]
    exact begun_withEng s core.val ctx.val a e l .ok eng.val 0
  refine ⟨fun hop => ?vld, fun hop => ?vst, fun hop => ?vbin, fun hop => ?vcvt, fun hop => ?vquant, fun hop => ?xadd, fun hop => ?xround⟩
  case vld =>
    intro x c hv hp hx hc
    rw [hr0] at hc
    have hport := begun_port (s := s) (c := core.val) (i := ctx.val) (e := e) (l := l) (find := find) (eng := 0) hp
    exact retires_of_ends (cmd := .vld core ctx find) (f := fun w r => r.vld w) rfl hi hm hop (vld_ends (hs 0) hv hport hx hc)
  case vst =>
    intro y u hp hy hu
    rw [hstill] at hu
    have hport := begun_port (s := s) (c := core.val) (i := ctx.val) (e := e) (l := l) (find := .ok) (eng := 0) hp
    exact retires_of_ends (cmd := .vst core ctx) (f := fun w r => r.vst w) rfl hi hm hop (vst_ends hport hy hu)
  case vbin =>
    intro n op ty kind b k
    have hk : k = s.begun core.val ctx.val a e l find 0 := hr0
    refine ⟨fun hn => retires_noop rfl hi hm hop (vbin_zero hn), fun hn hty x y hq hx hy => ⟨fun h0 hf hmx hacc => ?mov, ?arithmetic⟩⟩
    case mov =>
      have hmoves : (s.begun core.val ctx.val a e l find 0).Moves q p x y := ⟨hq, begun_port hx, begun_port hy, hf, hmx, hacc⟩
      refine ⟨fun hxm hpos c u hc hu => ?_, fun hxm hw c u hc hu => ?_, fun hxm hw c u hc hu => ?_⟩
      · rw [hk] at hc hu
        exact vbin_retires hi hm hop (vbin_mov hn hty h0 fun r hl =>
          vmov_ends_blocks hl ((hs 0).onward hl.onward) hmoves hxm hpos hc hu)
      · rw [hk] at hc hu
        exact vbin_retires hi hm hop (vbin_mov hn hty h0 fun r hl =>
          vmov_ends_wps hl ((hs 0).onward hl.onward) hmoves hxm hw hc hu)
      · rw [hk] at hc hu
        exact vbin_retires hi hm hop (vbin_mov hn hty h0 fun r hl =>
          vmov_ends_codes hl ((hs 0).onward hl.onward) hmoves hxm hw hc hu)
    case arithmetic =>
      intro h0 h10 hf hmx hacc va vb ks more vc u ha hb hc hu
      rw [hk] at ha hb hc hu
      exact vbin_retires hi hm hop
        (vbin_ends (hs 0) ⟨hn, hty, h0, h10, hq, begun_port hx, begun_port hy, hf, hmx, hacc, ha, hb, hc⟩ hu)
  case vcvt =>
    intro n site mode own k hall by_
    have hk : k = s.begun core.val ctx.val a e l find 0 := hr0
    refine ⟨fun hn => retires_noop rfl hi hm hop (vcvt_zero hn), fun hn hsite hmode x y c u o z b hq hx hy hf hacc hc hu hb hb' => ?_⟩
    have hby : by_ = (s.begun core.val ctx.val a e l find 0).vcvtBy w := by
      rw [Run.vcvtBy, begun_planHall]
      rfl
    rw [hk] at hc hu hb'
    rw [hby] at hu
    exact retires_of_ends (cmd := .vcvt core ctx find) (f := fun w r => r.vcvt w) rfl hi hm hop
      (vcvt_ends (hs 0) ⟨hn, hsite, hmode, hq, begun_port hx, begun_port hy, hf, hacc, hc, hb, hb'⟩ hu)
  case vquant =>
    intro n d k
    have hk : k = s.begun core.val ctx.val a e l find 0 := hr0
    refine ⟨fun hn => retires_noop rfl hi hm hop (vquant_zero hn), ?_⟩
    intro hn hwhole x y c u hq hx hy hf hxm hacc hym hc
    dsimp only
    intro hu
    have hblocks : k.blockAll ⟨cvt, g.saturate, 2, s.planHall, 1⟩ y.fmt (y.base + y.pos) c
        = (s.begun core.val ctx.val a e l find 0).blockAll ⟨(s.begun core.val ctx.val a e l find 0).grp.rounding,
          (s.begun core.val ctx.val a e l find 0).grp.saturate, 2, (s.begun core.val ctx.val a e l find 0).st.planHall, 1⟩ y.fmt (y.base + y.pos)
          c := by
      rw [begun_planHall, hk]
      rfl
    rw [hblocks] at hu ⊢
    rw [hk] at hc hu
    have hquant : (s.begun core.val ctx.val a e l find 0).Quantizes w x y c _ u :=
      ⟨hn, hwhole, hq, begun_port hx, begun_port hy, hf, hxm, hacc, hym, hc, rfl, hu⟩
    refine ⟨fun hr => ?_, fun hr z o hz hzf hzm hza ho => ?_⟩
    · exact vquant_retires hi hm hop (vquant_ends (hs 0) hquant hr)
    · exact vquant_retires hi hm hop (vquant_ends_errors (hs 0) hquant hr hz hzf hzm hza ho)
  case xadd =>
    intro off n kind cmd size run0
    refine ⟨fun hn => retires_noop (cmd := .xadd core ctx find eng) rfl hi hm hop (xadd_zero hn), fun hn hmode hex => ?fast,
      fun hn hmode hkind x hp hx => ?run⟩
    case fast =>
      exact completes_fault (cmd := .xadd core ctx find eng) (f := fun w r => r.xadd w) rfl hi hm hop core.isLt (xadd_fast hn hmode hex)
    case run =>
      have hlike := (Run.Like.refl (s.begun core.val ctx.val a e l find eng.val)).areaOps [p]
      have hsound := (hs eng.val).onward hlike.onward
      intro own partial_ summed
      refine ⟨fun hsums old hold => ?sums, fun hsums hk hacc hown => ?runs⟩
      case sums =>
        have hxadd := xadd_of_sums (q := s.begun core.val ctx.val a e l find eng.val) (w := w) hn hmode hkind hp (begun_port hx) hsums
        refine ⟨fun hk hf hacc hown c hc => ?_, fun hk hf hacc hxm c hc => ?_, fun hk hacc c hc => ?_⟩
        · refine xadd_retires_summed hi hm hop ?_
          rw [hxadd, show bits w 11 2 = 0 from hk]
          exact xaddSum_ends_vals hlike hsound hold hf hacc hown hc
        · refine xadd_retires_summed hi hm hop ?_
          rw [hxadd]
          exact xaddSum_ends_wps hlike hsound hold hk hf hacc hxm hc
        · refine xadd_retires_summed hi hm hop ?_
          rw [hxadd, show bits w 11 2 = 2 from hk]
          exact xaddSum_ends_words hlike hsound hold hacc hc
      case runs =>
        have hxadd := xadd_of_runs (q := s.begun core.val ctx.val a e l find eng.val) (w := w) hn hmode hkind hp (begun_port hx) hsums
        have hcombines : (s.begun core.val ctx.val a e l find eng.val).Combines kind x := ⟨hk, hacc, hown.1, hown.2⟩
        dsimp only
        refine ⟨fun hxm old new u hold hnew hu => ?_, fun hxm hoff hpos old new u hold hnew => ?_⟩
        · refine xadd_retires_wrote hi hm hop ?_
          rw [hxadd]
          exact xaddRun_ends_codes hlike hsound hcombines hxm hold hnew hu
        · have hblocks : (s.begun core.val ctx.val a e l find eng.val).CombinesBlocks off n kind x old new :=
            ⟨hcombines, hxm, hoff, hpos, hold, hnew⟩
          refine ⟨fun hnot hu => ?_, fun hminmax hu => ?_⟩
          · refine xadd_retires_wrote hi hm hop ?_
            rw [hxadd]
            exact xaddRun_ends_blocks hlike hsound hblocks hnot hu
          · have hruns : u.lnd.runs = l.runs := putBlocks_runs hu
            have h := xaddRun_ends_runs (i := p) hlike hsound hblocks hminmax hu
            rw [Run.withRuns, hruns] at h
            refine xadd_retires_wrote hi hm hop ?_
            rw [hxadd]
            exact h
  case xround =>
    intro off n target cmd run0
    have hlike := (Run.Like.refl (s.begun core.val ctx.val a e l find eng.val)).areaOps [p]
    have hsound := (hs eng.val).onward hlike.onward
    refine ⟨fun hn => retires_noop (cmd := .xround core ctx find eng) rfl hi hm hop (xround_zero hn), ?sums, ?runs⟩
    case sums =>
      intro hn htarget hex hsums c y u hc
      have hpos := positions_ok (q := s.begun core.val ctx.val a e l find eng.val) hc
      have hby : (s.begun core.val ctx.val a e l find eng.val).xroundBy target =
          ⟨g.rounding, g.saturate, if target = 0 then 0 else if g.mode = mSplit then 1 else 3, if target = 0 then 0 else s.planHall,
            if target = 0 ∧ g.op = opMean then e.members else 1⟩ := by
        rw [Run.xroundBy, begun_planHall]
        rfl
      have hretire : ∀ t : Run, Flow.Ends (s.begun core.val ctx.val a e l find eng.val)
          (((s.begun core.val ctx.val a e l find eng.val).areaOps [p]).xroundSum p off n target) t → ends cmd t := by
        intro t h
        refine xround_retires hi hm hop ?_
        rw [xround_of_sums (q := s.begun core.val ctx.val a e l find eng.val) (w := w) hn htarget hsums]
        exact h
      dsimp only
      refine ⟨fun hf hy hu => hretire _ (xroundSum_ends_wps hlike hsound hex hpos hf hy hu), fun hf hy => ⟨fun hmx hu => ?_, fun hmx hu => ?_⟩⟩
      · rw [← hby] at hu
        exact hretire _ (xroundSum_ends_blocks hlike hsound hex hpos hf hy hmx hu)
      · rw [← hby] at hu
        exact hretire _ (xroundSum_ends_codes hlike hsound hex hpos hf hy hmx hu)
    case runs =>
      intro hn htarget hsums y c u hy
      have hretire : Flow.Ends (s.begun core.val ctx.val a e l find eng.val)
          (((s.begun core.val ctx.val a e l find eng.val).areaOps [p]).xroundRun p off n) (u.pass p n 0) → ends cmd (u.pass p n 0) := by
        intro h
        refine xround_retires hi hm hop ?_
        rw [xround_of_runs (q := s.begun core.val ctx.val a e l find eng.val) (w := w) hn htarget hsums]
        exact h
      refine ⟨fun hmx hc hu => hretire (xroundRun_ends_codes hlike hsound hy hmx hc hu), fun hmx hoff raw hraw => ?_⟩
      dsimp only
      exact ⟨fun hnot hu => hretire (xroundRun_ends_blocks hlike hsound hy hmx hoff hraw hnot hu),
        fun hminmax hu => hretire (xroundRun_ends_runs hlike hsound hy hmx hoff hraw hminmax hu)⟩
end

section
/-! SUPPORT. Frames step by step: what one step changes only, and what the steps of a command come to. -/

namespace Sys2Proof.Machine

/-! ### A frame is kept from step to step -/

theorem Piece.same_refl (y : Piece) (s : State) : y.same s s := by
  cases y with
  | banks => exact ⟨rfl, rfl, rfl⟩
  | _ => rfl

theorem Piece.same_trans {y : Piece} {s t u : State} (h : y.same s t) (k : y.same t u) : y.same s u := by
  cases y with
  | banks =>
    obtain ⟨hshadow, hheld, hseq⟩ := h
    obtain ⟨kshadow, kheld, kseq⟩ := k
    exact ⟨kshadow.trans hshadow, kheld.trans hheld, kseq.trans hseq⟩
  | power =>
    have h1 : { t.power with faultN := s.power.faultN } = s.power := h
    have h2 : { u.power with faultN := t.power.faultN } = t.power := k
    show { u.power with faultN := s.power.faultN } = s.power
    rw [← h1, ← h2]
  | _ => exact Eq.trans k h

/-- What the switch moves beside: every piece but its own, queue pairs and records. -/
theorem Moved.same {p : Nat → Prop} {s t : State} (h : Moved p s t) {y : Piece} (hm : y ≠ .mgmt) (hr : y ≠ .rel) (hs : y ≠ .sw) :
    y.same s t := by
  cases y with
  | banks => exact ⟨h.shadow, h.heldWrites, h.commitSeq⟩
  | mem => exact h.mem
  | power => show { t.power with faultN := s.power.faultN } = s.power; rw [h.power]
  | boot => exact h.boot
  | sec => exact h.sec
  | mgmt => exact absurd rfl hm
  | time => exact h.time
  | subs => exact h.subs
  | modules => exact h.modules
  | byp => exact h.byp
  | rel => exact absurd rfl hr
  | reader => exact h.reader
  | tables => exact h.tables
  | sw => exact absurd rfl hs
  | coll => exact h.coll
  | cores => exact h.cores

namespace ChangesOnly

variable {l m : List Piece} {p q q' : Nat → Prop} {s t u : State}

theorem refl (l : List Piece) (q : Nat → Prop) (s : State) : ChangesOnly l q s s := ⟨rfl, rfl, fun y _ => y.same_refl s, fun _ _ _ => rfl⟩

theorem trans (h : ChangesOnly l q s t) (k : ChangesOnly l q t u) : ChangesOnly l q s u :=
  ⟨k.queue.trans h.queue, k.clock.trans h.clock, fun y hy => Piece.same_trans (h.pieces y hy) (k.pieces y hy),
    fun d i hi => (k.fields d i hi).trans (h.fields d i hi)⟩

theorem mono (h : ChangesOnly l q s t) (hl : l ⊆ m) (hq : ∀ k, q k → q' k) : ChangesOnly m q' s t :=
  ⟨h.queue, h.clock, fun y hy => h.pieces y fun hl' => hy (hl hl'), fun d i hi => h.fields d i fun hq' => hi (hq i hq')⟩

/-- A field under a key that stays reads the same. -/
theorem rd (h : ChangesOnly l q s t) {f : Fld} {a i : Nat} (hk : ¬q (f.key a i)) : t.rd f a i = s.rd f a i := by
  simp [State.rd, h.fields _ _ hk]

theorem byp (h : ChangesOnly l q s t) (hl : .byp ∉ l) : t.byp = s.byp := h.pieces .byp hl
theorem boot (h : ChangesOnly l q s t) (hl : .boot ∉ l) : t.boot = s.boot := h.pieces .boot hl
theorem subs (h : ChangesOnly l q s t) (hl : .subs ∉ l) : t.subs = s.subs := h.pieces .subs hl

theorem of_moved (h : Moved p s t) (hm : .mgmt ∈ l) (hr : .rel ∈ l) (hs : .sw ∈ l) (hq : ∀ k, ¬q k → p k) : ChangesOnly l q s t :=
  ⟨h.pending, h.now, fun _ hy => h.same (fun e => hy (e ▸ hm)) (fun e => hy (e ▸ hr)) (fun e => hy (e ▸ hs)),
    fun d k hk => h.regs d k (hq k hk)⟩

/-- A step that keeps all but registers, outputs, queue pairs and records. -/
theorem of_still (h : Kept p s t) (hm : .mgmt ∈ l ∨ t.mgmt = s.mgmt) (hr : .rel ∈ l ∨ t.rel = s.rel) (hq : ∀ k, ¬q k → p k) :
    ChangesOnly l q s t := by
  refine ⟨h.pending, h.now, fun y hy => ?_, fun d k hk => h.regs d k (hq k hk)⟩
  cases y with
  | mgmt => exact hm.resolve_left hy
  | rel => exact hr.resolve_left hy
  | sw => exact h.sw
  | _ => exact (Moved.of_kept h).same (by decide) (by decide) (by decide)

theorem wr (s : State) (f : Fld) (a v i : Nat) (hq : q (f.key a i)) : ChangesOnly l q s (s.wr f a v i) :=
  of_still (p := fun k => ¬q k) (Kept.wr s f a v i (not_not.mpr hq)) (.inr rfl) (.inr rfl) fun _ h => h

theorem iff (b : Bool) (f : State → State) (h : ChangesOnly l q s (f s)) : ChangesOnly l q s (s.iff b f) := State.iff_rel (refl l q) s b f h

theorem each {α : Type} (xs : List α) (f : α → State → State) (h : ∀ x ∈ xs, ∀ s, ChangesOnly l q s (f x s)) (s : State) :
    ChangesOnly l q s (s.each xs f) := State.each_rel (refl l q) trans f xs h s

/-- The cross-connects' own records, where they may change, count for nothing in a frame. -/
theorem of_byp {b : Bypass} (h : ChangesOnly l q { s with byp := b } t) (hl : .byp ∈ l) : ChangesOnly l q s t := by
  refine ⟨h.queue, h.clock, fun y hy => ?_, h.fields⟩
  cases y with
  | byp => exact absurd hl hy
  | _ => exact h.pieces _ hy

/-- The outputs of the command before count for nothing in a frame. -/
theorem of_cleared (h : ChangesOnly l q s.cleared t) : ChangesOnly l q s t := by
  refine ⟨h.queue, h.clock, fun y hy => ?_, h.fields⟩
  cases y with
  | _ => exact h.pieces _ hy

/-- What the effect of a command changes only, the command changes only. -/
theorem run {f : State → State} (h : ChangesOnly l q s.cleared (f s.cleared)) : ChangesOnly l q s (s.run f) := by
  refine ⟨rfl, rfl, fun y hy => ?_, h.fields⟩
  cases y with
  | power =>
    have hp : { (f s.cleared).power with faultN := s.power.faultN } = s.power := h.pieces .power hy
    show { (s.run f).power with faultN := s.power.faultN } = s.power
    rw [← hp, State.run_power, hp]
  | _ => exact h.pieces _ hy

end ChangesOnly

/-- What a loop makes of each element, where every later step keeps it. -/
theorem State.each_reaches {α : Type} {R : State → State → Prop} {Q : α → State → Prop} (hr : ∀ s, R s s)
    (ht : ∀ {s t u}, R s t → R t u → R s u) (f : α → State → State) (l : List α) (hf : ∀ x ∈ l, ∀ s, R s (f x s) ∧ Q x (f x s))
    (hq : ∀ x ∈ l, ∀ s t, Q x s → R s t → Q x t) (s : State) : ∀ x ∈ l, Q x (s.each l f) := by
  induction l generalizing s with
  | nil => exact fun x hx => absurd hx List.not_mem_nil
  | cons y l ih =>
    intro x hx
    have hl : ∀ z ∈ l, ∀ t, R t (f z t) ∧ Q z (f z t) := fun z hz => hf z (List.mem_cons_of_mem y hz)
    rw [State.each_cons]
    rcases List.mem_cons.mp hx with rfl | hx
    · exact hq x (.head l) _ _ (hf x (.head l) s).2 (State.each_rel hr ht f l (fun z hz t => (hl z hz t).1) _)
    · exact ih hl (fun z hz => hq z (List.mem_cons_of_mem y hz)) _ x hx

/-- A loop whose every step leaves the state as it is. -/
theorem State.each_eq_self {α : Type} {s : State} {f : α → State → State} : ∀ {l : List α}, (∀ x ∈ l, f x s = s) → s.each l f = s
  | [], _ => rfl
  | x :: l, h => by
    rw [State.each_cons, h x (.head l)]
    exact State.each_eq_self fun y hy => h y (.tail x hy)

/-- Registers under different keys that a loop writes, each with a value that registers do not change. -/
theorem State.rd_each_wr {f : Fld} {a : Nat} {g : State → Nat → Nat} (hg : ∀ s v i j, g (s.wr f a v i) j = g s j)
    (hk : ∀ i j, i ≠ j → f.key a i ≠ f.key a j) {i : Nat} {l : List Nat} (hi : i ∈ l) (s : State) :
    (s.each l fun j t => t.wr f a (g t j) j).rd f a i = g s i % 2 ^ f.w := by
  induction l generalizing s with
  | nil => exact absurd hi List.not_mem_nil
  | cons j l ih =>
    rw [State.each_cons]
    by_cases h : i ∈ l
    · rw [ih h, hg]
    · obtain rfl : i = j := (List.mem_cons.mp hi).resolve_right h
      have hrest := State.each_keeps (fun t => t.rd f a i) (fun j t => t.wr f a (g t j) j) l
        (fun x hx t => State.rd_wr_ne _ _ (hk i x fun e => h (e ▸ hx))) (s.wr f a (g s i) i)
      rw [hrest, State.rd_wr_same]

/-! ### What events and completions leave in the records of the management plane -/

/-- The records of the management plane beside queue pairs and the event rings' own counts. -/
def Mgmt.aside (m : Mgmt) : Mgmt := { m with qps := [], evrSeq := [] }

theorem Mgmt.aside_evrSeq (m : Mgmt) (x : Sparse Nat) : ({ m with evrSeq := x } : Mgmt).aside = m.aside := rfl

theorem emit_mgmt (s : State) (o : Output) : (s.emit o).mgmt = s.mgmt := by
  unfold State.emit
  cases o.mgtFrames with
  | none => rfl
  | some x => exact count_mgmt _ _ _ _ _

theorem request_mgmt (s : State) (q : Nat) (x : Request) : ∃ l, (s.request q x).mgmt = { s.mgmt with qps := l } := by
  unfold State.request
  dsimp only
  rw [emit_mgmt]
  exact ⟨_, rfl⟩

theorem request_aside (s : State) (q : Nat) (x : Request) : (s.request q x).mgmt.aside = s.mgmt.aside := by
  obtain ⟨l, h⟩ := request_mgmt s q x
  rw [h]
  rfl

theorem evrPut_aside (s : State) (e code sev page d0 d1 : Nat) : (s.evrPut e code sev page d0 d1).mgmt.aside = s.mgmt.aside := by
  unfold State.evrPut
  simp only [count_mgmt, State.inc, State.wr_mgmt]
  exact (Mgmt.aside_evrSeq _ _).trans (request_aside _ _ _)

/-- An event writes queue pairs and its ring's count alone among the records of the management plane. -/
theorem event_aside (s : State) (e code sev page d0 d1 : Nat) : (s.event e code sev page d0 d1).mgmt.aside = s.mgmt.aside := by
  have h : ∀ t : State, (t.evrOverflow e).mgmt.aside = t.mgmt.aside := fun t => by
    unfold State.evrOverflow
    refine State.iff_keeps (fun t => t.mgmt.aside) _ _ _ ?_
    rw [State.wr_mgmt, evrPut_aside]
  unfold State.event
  dsimp only
  split_ifs
  · rfl
  · rw [count_mgmt, State.incSat, State.wr_mgmt]; exact h s
  · rw [evrPut_aside]; exact h s

theorem State.ring_of_aside {s t : State} (h : t.mgmt.aside = s.mgmt.aside) (r : Nat) : t.ring r = s.ring r := by
  have hr : t.mgmt.rings = s.mgmt.rings := (congrArg Mgmt.rings h :)
  simp [State.ring, hr]

theorem irq_rel (s : State) (a b : Nat) : (s.irq a b).rel = s.rel := by
  unfold State.irq State.irqEdge
  exact State.iff_keeps State.rel _ _ _ (event_rel _ _ _ _ _ _ _)

end Sys2Proof.Machine
end

section
/-! SUPPORT. The oldest command of a ring: how it is performed, what its completion changes (R61, R66), and the second submission of a
dual-controlled opcode (R65, R430). -/

namespace Sys2Proof.Machine

/-! ### A completion -/

/-- Keys that a completion of ring `r` keeps. -/
def offRing (r k : Nat) : Prop := noEvent k ∧ pageOf k ≠ ringPage r

theorem ringPage_aligned (r : Nat) : ringPage r % 4096 = 0 := by unfold ringPage pkgPage; omega

theorem offRing.ctr {r k : Nat} (h : offRing r k) : noCtr k := h.1.ctr

theorem ringStop_kept (s : State) (r reason : Nat) : Kept (offRing r) s (s.ringStop r reason) := by
  have hpage : ∀ f : Fld, f.off = 0x10 → f.stride = 0 → f.step = 0 → f.lo < 64 → ¬offRing r (f.key (ringBlock r) 0) := fun f h1 h2 h3 h4 h => by
    apply h.2
    simp only [pageOf, Fld.key, Fld.offAt, Fld.loAt, ringBlock, ringPage, pkgPage, h1, h2, h3, Nat.zero_mul, Nat.add_zero]
    omega
  unfold State.ringStop
  dsimp only
  refine Kept.trans ?_ ((event_kept _ _ _ _ _ _ _ (s.rd_lt CTL_RING_CFG.event_ring _ _)).mono fun _ h => h.1)
  exact (Kept.wr _ _ _ _ _ (hpage _ rfl rfl rfl (by decide))).trans (Kept.wr _ _ _ _ _ (hpage _ rfl rfl rfl (by decide)))

theorem discardCompletion_kept (s : State) (r : Nat) : Kept (offRing r) s (s.discardCompletion r) := by
  unfold State.discardCompletion
  refine Kept.trans (Kept.wr _ _ _ _ _ fun h => h.2 ?_) (Kept.mgmt _ _)
  exact (key_place _ _ _ (ringPage_aligned r) (by decide) (by decide)).1

/-- A completion changes its ring's page, counters, event rings, queue pairs and outputs. -/
theorem complete_kept (s : State) (r st c1 c2 : Nat) : Kept (offRing r) s (s.complete r st c1 c2) := by
  have hrequest : ∀ (t : State) (q : Nat) (x : Request), Kept (offRing r) t (t.request q x) := fun t q x =>
    (request_kept t q x).mono fun _ h => h.ctr
  have hcount : ∀ (t : State) (code inst : Nat), Kept (offRing r) t (t.count (ringPage r) code inst) := fun t code inst =>
    (count_kept t _ code inst 1 (ringPage_aligned r)).mono fun _ h => h.ctr
  have hring : ∀ (t : State) (x : Ring), Kept (offRing r) t (t.setRing r x) := fun t x => Kept.mgmt t _
  unfold State.complete
  dsimp only
  split
  · exact Kept.refl _ _
  next e rest _ =>
    refine (hring s { s.ring r with inflight := rest, waiting := false }).trans ?_
    split_ifs
    · exact Kept.refl _ _
    · exact discardCompletion_kept _ _
    · exact discardCompletion_kept _ _
    · exact (discardCompletion_kept _ _).trans ((hring _ _).trans (ringStop_kept _ _ _))
    · refine Kept.trans ?_ (Kept.iff _ _ ((hrequest _ _ _).trans (hcount _ _ _)))
      exact ((hrequest _ _ _).trans (hring _ _)).trans (hcount _ _ _)

theorem complete_rel (s : State) (r st c1 c2 : Nat) : (s.complete r st c1 c2).rel = s.rel := by
  unfold State.complete
  dsimp only
  split
  · rfl
  · split_ifs
    · rfl
    · rfl
    · rfl
    · exact event_rel _ _ _ _ _ _ _
    · refine (State.iff_keeps State.rel _ _ _ (by simp only [count_rel, request_rel])).trans ?_
      simp only [count_rel, State.setRing_rel, request_rel]

/-- The commands in flight of ring `r`, whether or not their completions are discarded. -/
def State.flight (s : State) (r : Nat) : List Descriptor := (s.ring r).inflight.map Descriptor.muted

theorem flight_setRing (s : State) (r : Nat) (x : Ring) : (s.setRing r x).flight r = x.inflight.map Descriptor.muted := by
  simp [State.flight, State.ring]

theorem flight_of_aside {s t : State} (h : t.mgmt.aside = s.mgmt.aside) (r : Nat) : t.flight r = s.flight r := by
  rw [State.flight, State.ring_of_aside h]
  rfl

theorem flight_count (s : State) (a code inst n r : Nat) : (s.count a code inst n).flight r = s.flight r :=
  flight_of_aside (by rw [count_mgmt]) r

theorem flight_request (s : State) (q : Nat) (x : Request) (r : Nat) : (s.request q x).flight r = s.flight r :=
  flight_of_aside (request_aside s q x) r

theorem flight_discardCompletion (s : State) (r : Nat) : (s.discardCompletion r).flight r = s.flight r := flight_setRing _ r _

theorem flight_ringMute (s : State) (r : Nat) : (s.ringMute r).flight r = s.flight r := by
  unfold State.ringMute State.ringStop
  dsimp only
  rw [flight_of_aside (event_aside _ _ _ _ _ _ _)]
  exact (flight_setRing s r _).trans (by simp [State.flight, Function.comp_def, Descriptor.muted])

/-- A completion takes the oldest command out of its ring. -/
theorem complete_left (s : State) (r st c1 c2 : Nat) : Left s (s.complete r st c1 c2) r := by
  show (s.complete r st c1 c2).flight r = _
  unfold State.complete
  dsimp only
  split
  next h => simp [State.flight, h]
  next e rest h =>
    rw [h, List.tail_cons]
    split_ifs
    · exact flight_setRing s r _
    · exact (flight_discardCompletion _ r).trans (flight_setRing s r _)
    · exact (flight_discardCompletion _ r).trans (flight_setRing s r _)
    · exact (flight_ringMute _ r).trans ((flight_discardCompletion _ r).trans (flight_setRing s r _))
    · refine (State.iff_keeps (fun t => t.flight r) _ _ _ (by simp only [flight_count, flight_request])).trans ?_
      rw [flight_count, flight_setRing, ← State.flight, flight_request, flight_setRing]

/-! ### A command at the front of its ring -/

theorem State.atFront.cleared {s : State} {r op : Nat} {fw : Bool} {e : Descriptor} (h : s.atFront r op fw e) : s.cleared.atFront r op fw e :=
  ⟨h.front, h.good, h.code, h.idle, h.allowed, h.core⟩

/-- A command at the front that its session may give is performed, and its ring goes on. -/
theorem State.atFront.performAllowed {s : State} {r op : Nat} {fw : Bool} {e : Descriptor} (h : s.atFront r op fw e)
    (hop : knownOpcodes.contains op = true) (act : Descriptor → State → State) : s.performAllowed r op fw act = (act e s).settled r := by
  obtain ⟨rest, hl⟩ : ∃ rest, (s.ring r).inflight = e :: rest := List.head?_eq_some_iff.mp h.front
  have hsettle : s.settle r (s.ring r).inflight.length = s := by
    rw [hl, List.length_cons, State.settle, hl]
    simp only [h.good, h.code, hop, Bool.false_eq_true, if_false, if_true]
  have hfront : s.front r op fw = some e := by
    rw [State.front, hl]
    refine if_pos ⟨h.code, h.idle, ?_⟩
    cases fw with
    | false => exact .inl rfl
    | true => exact .inr (h.core rfl)
  unfold State.performAllowed State.perform
  rw [hsettle]
  simp only [hfront, h.allowed, if_true]
  rfl

theorem Answers.of_performed {c : Instr} {s v : State} {f : State → State} {r st c1 c2 : Nat} {P : State → Prop} (hc : exec c s = .next (s.run f))
    (hf : f s.cleared = (v.answer r (some (st, c1, c2))).settled r) (hv : P v) : Answers c s r st c1 c2 P :=
  ⟨v, hv, by rw [hc, State.run_congr (g := fun _ => (v.complete r st c1 c2).settled r) hf]⟩

theorem Waits.of_performed {c : Instr} {s v : State} {f : State → State} {r : Nat} {P : State → Prop} (hc : exec c s = .next (s.run f))
    (hf : f s.cleared = (v.answer r none).settled r) (hv : P v) : Waits c s r P :=
  ⟨v, hv, by rw [hc, State.run_congr (g := fun _ => (v.answer r none).settled r) hf]⟩

/-! ### The second submission of a dual-controlled opcode -/

/-- Item `x` has met its second submission: it leaves the list, and its first session is told (R430). -/
def State.seconded (s : State) (x : DualItem) : State := (s.dualDrop x).dualEvent x 0x0050 0

theorem dualSubmit_second {s : State} {r op digest : Nat} {e : Descriptor} {x : DualItem} (act : State → State)
    (hx : s.dualOpcode? op e.d = some x) (hc : sameCred x.ephemeral x.cred e.cred.1 e.cred.2 = false) (hd : x.digest = digest) :
    s.dualSubmit r e op digest act = act (s.seconded x) := by
  simp only [State.dualSubmit, hx, hc, hd, Bool.false_eq_true, ne_eq, not_true, if_false]
  rfl

/-- The second submission changes the security page, event rings, counters, queue pairs and outputs, and the items pending. -/
theorem seconded_kept (s : State) (x : DualItem) : Kept (fun k => noEvent k ∧ pageOf k ≠ secPage) s (s.seconded x) := by
  unfold State.seconded State.dualDrop State.setDual State.dualEvent
  refine Kept.trans ((Kept.mgmt s _).trans (Kept.wr _ _ _ _ _ fun h => h.2 ?_)) (Kept.iff _ _ ?_)
  · exact (key_place _ secPage _ (by decide) (by decide) (by decide)).1
  · exact (event_kept _ _ _ _ _ _ _ (State.rd_lt _ CTL_RING_CFG.event_ring _ _)).mono fun _ h => h.1

theorem seconded_dual (s : State) (x : DualItem) : (s.seconded x).mgmt.dual = s.mgmt.dual.filter fun y => y.ticket != x.ticket := by
  have haside : (s.seconded x).mgmt.aside = (s.dualDrop x).mgmt.aside := by
    unfold State.seconded State.dualEvent
    exact State.iff_keeps (fun t => t.mgmt.aside) _ _ _ (event_aside _ _ _ _ _ _ _)
  exact (congrArg Mgmt.dual haside :)

end Sys2Proof.Machine
end

section
/-! SUPPORT. Switchings of an engine's cross-connect: their queue, the checks of BYPASS_ENABLE and BYPASS_RESET, and the waits of check 5
(R102 to R104). -/

namespace Sys2Proof.Machine

/-! ### Pages of the cross-connects -/

theorem bypPage_aligned (e : Nat) : bypPage e % 4096 = 0 := by unfold bypPage diePage; omega

theorem bypPage_range (e : Nat) (he : e < 16) : bypPage e % 0x4000000 < 0x1C000 ∧ 0x18000 ≤ bypPage e % 0x4000000 ∧ bypPage e < 0xF000000 := by
  unfold bypPage diePage
  omega

theorem byp_place (f : Fld) (e i : Nat) (h1 : f.offAt i < 4096) (h2 : f.loAt i < 64) :
    pageOf (f.key (bypPage e) i) = bypPage e ∧ offOf (f.key (bypPage e) i) = f.offAt i :=
  key_place f _ i (bypPage_aligned e) h1 h2

/-- A field of a cross-connect's page away from the counters is one that events keep. -/
theorem byp_noEvent (f : Fld) (e i : Nat) (he : e < 16) (h1 : f.offAt i < 0xF00) (h2 : f.loAt i < 64) : noEvent (f.key (bypPage e) i) :=
  pkg_noEvent f _ i (bypPage_aligned e) (.inl (by have := bypPage_range e he; omega)) h1 h2

/-! ### The queue of an engine -/

/-- From `s` to `u` switching `x` has joined the end of engine `e`'s queue, and BYP_STATUS counts it. -/
structure SwitchingJoins (s u : State) (e : Nat) (x : Switching) : Prop where
  queue : u.switchQueue e = s.switchQueue e ++ [x]
  switching : u.switching e = s.switching e
  queued : u.rd BYP_STATUS.queued (bypPage e) = ((s.switchQueue e).length - b2n (s.switching e)
    + if (s.switchQueue e).length < b2n (s.switching e) then 0 else 1) % 256
  rest : { u.byp with queue := s.byp.queue } = s.byp

/-- The cross-connects' records and the switching in progress alone say what joins. -/
theorem SwitchingJoins.of_same {s t u : State} {e : Nat} {x : Switching} (h : SwitchingJoins t u e x) (hb : t.byp = s.byp)
    (hs : t.switching e = s.switching e) : SwitchingJoins s u e x := by
  have hq : t.switchQueue e = s.switchQueue e := by rw [State.switchQueue, hb]; rfl
  obtain ⟨h1, h2, h3, h4⟩ := h
  rw [hq] at h1 h3
  rw [hs] at h2 h3
  rw [hb] at h4
  exact ⟨h1, h2, h3, h4⟩

theorem switchQueue_setSwitchQueue (s : State) (e : Nat) (q : List Switching) (b : Bool) : (s.setSwitchQueue e q b).switchQueue e = q := by
  show Sparse.get [] (if q = [] then Sparse.del s.byp.queue e else Sparse.set s.byp.queue e q) e = q
  split_ifs with h
  · rw [Sparse.get_del, if_pos rfl, h]
  · exact Sparse.get_set_same _ _ _ _

theorem switching_setSwitchQueue (s : State) (e : Nat) (q : List Switching) (b : Bool) : (s.setSwitchQueue e q b).switching e = b := by
  unfold State.switching State.setSwitchQueue
  rw [State.flag_wr_ne _ _ (key_ne _ _ _ _ _ (by decide)), State.flag_wr_same]
  cases b <;> rfl

/-- What a new queue changes: the queue's own record, and BYP_STATUS. -/
theorem setSwitchQueue_changes (s : State) (e : Nat) (q : List Switching) (b : Bool) :
    ChangesOnly [.byp] (fun k => pageOf k = bypPage e ∧ offOf k = 0x130) s (s.setSwitchQueue e q b) := by
  unfold State.setSwitchQueue
  refine ChangesOnly.of_byp (b := { s.byp with queue := if q = [] then Sparse.del s.byp.queue e else Sparse.set s.byp.queue e q }) ?_ (by simp)
  exact ((ChangesOnly.refl _ _ _).trans (ChangesOnly.wr _ BYP_STATUS.switching _ _ _ (byp_place _ _ _ (by decide) (by decide)))).trans
    (ChangesOnly.wr _ BYP_STATUS.queued _ _ _ (byp_place _ _ _ (by decide) (by decide)))

/-- A switching joins the queue where fewer than 16 wait. -/
theorem queueSwitching_room {s : State} {e : Nat} (x : Switching) (h : (s.switchQueue e).length - b2n (s.switching e) < 16) :
    s.queueSwitching e x = (none, s.setSwitchQueue e (s.switchQueue e ++ [x]) (s.switching e)) := if_neg (Nat.not_le.mpr h)

/-- A switching is refused where 16 wait. -/
theorem queueSwitching_full {s : State} {e : Nat} (x : Switching) (h : 16 ≤ (s.switchQueue e).length - b2n (s.switching e)) :
    s.queueSwitching e x = (some stBusy, s) := if_pos h

theorem setSwitchQueue_joins (s : State) (e : Nat) (x : Switching) :
    SwitchingJoins s (s.setSwitchQueue e (s.switchQueue e ++ [x]) (s.switching e)) e x := by
  refine ⟨switchQueue_setSwitchQueue _ _ _ _, switching_setSwitchQueue _ _ _ _, ?_, rfl⟩
  unfold State.setSwitchQueue
  rw [State.rd_wr_same, List.length_append, List.length_singleton]
  show (_ - _) % 256 = _ % 256
  have hb : b2n (s.switching e) ≤ 1 := by cases s.switching e <;> decide
  split_ifs <;> congr 1 <;> omega

/-! ### The checks of BYPASS_ENABLE and BYPASS_RESET -/

/-- Ports `p` and `q` lie in one engine and the plan pairs them (R102, checks 1 and 2). -/
def State.pairs (s : State) (p q : Nat) : Prop := p / 32 = q / 32 ∧ p ≠ q ∧ s.plannedPair (p / 32) (p % 32) (q % 32) = true

/-- Ports `p` and `q` of engine `g` do not drain, and are in no circuit with another port (R102, checks 3 and 4). -/
def State.joinable (s : State) (p q : Nat) : Prop :=
  Sparse.has s.byp.draining p = false ∧ Sparse.has s.byp.draining q = false
    ∧ (s.partnerCode (p / 32) (p % 32) < 32 → s.partnerCode (p / 32) (p % 32) = q % 32)
    ∧ (s.partnerCode (p / 32) (q % 32) < 32 → s.partnerCode (p / 32) (q % 32) = p % 32)

/-- The fabric joins ports `p` and `q` of one engine, and some cell of theirs is not BAR (R104). -/
def State.joins (s : State) (p q : Nat) : Prop :=
  p / 32 = q / 32 ∧ p ≠ q ∧ s.path (p / 32) (p % 32) = some (q % 32) ∧ s.path (p / 32) (q % 32) = some (p % 32)
    ∧ ∃ x ∈ [(p % 32, 0), (p % 32, 1), (q % 32, 0), (q % 32, 1)], s.cell (p / 32) x.1 x.2 ≠ 0

theorem partnerCode_congr {s t : State} (h : t.byp = s.byp) (e j : Nat) : t.partnerCode e j = s.partnerCode e j := by
  show ({ s with byp := t.byp } : State).partnerCode e j = s.partnerCode e j
  rw [h]

theorem State.joinable_congr {s t : State} (h : t.byp = s.byp) (p q : Nat) : t.joinable p q ↔ s.joinable p q := by
  simp only [State.joinable, partnerCode_congr h, h]

theorem State.pairs_congr {s t : State} (h : t.boot = s.boot) (p q : Nat) : t.pairs p q ↔ s.pairs p q := by
  simp only [State.pairs, State.plannedPair, State.planRec, h]

/-- A partner's code names no port but `k`. -/
theorem noOther_iff (c k : Nat) : (decide (c < 32) && c != k) = false ↔ (c < 32 → c = k) := by simp

theorem joined_iff (s : State) (g a b : Nat) :
    (s.path g a == some b && s.path g b == some a && [s.cell g a 0, s.cell g a 1, s.cell g b 0, s.cell g b 1].any fun c => c != 0) = true
      ↔ s.path g a = some b ∧ s.path g b = some a ∧ ∃ x ∈ [(a, 0), (a, 1), (b, 0), (b, 1)], s.cell g x.1 x.2 ≠ 0 := by
  simp [and_assoc]

section
variable {s : State} {r d p q : Nat} (hp : p = bits d 0 9) (hq : q = bits d 16 9)
include hp hq

theorem opBypassEnable_unpaired (h : ¬s.pairs p q) : s.opBypassEnable r d = (some stInvalid, s) := by
  unfold State.opBypassEnable
  simp only [← hp, ← hq]
  split_ifs with h1 h2
  · rfl
  · rfl
  all_goals exact absurd ⟨by omega, by omega, by simpa using h2⟩ h

theorem opBypassEnable_unready (h1 : s.pairs p q) (h2 : ¬s.joinable p q) : s.opBypassEnable r d = (some stBusy, s) := by
  obtain ⟨heng, hne, hplan⟩ := h1
  unfold State.opBypassEnable
  simp only [← hp, ← hq]
  rw [if_neg (by omega), if_neg (by simp [hplan])]
  split_ifs with hdrain hother
  · rfl
  · rfl
  all_goals
    refine absurd ⟨by simpa using fun e => hdrain (.inl e), by simpa using fun e => hdrain (.inr e), ?_⟩ h2
    rwa [Bool.not_eq_true, Bool.or_eq_false_iff, noOther_iff, noOther_iff] at hother

theorem opBypassEnable_ready (h1 : s.pairs p q) (h2 : s.joinable p q) : s.opBypassEnable r d =
    if 850 ≤ s.rd OPT_ENG_STATUS.temp (engPage (p / 32)) then
      (none, { s with byp := { s.byp with hot := s.byp.hot ++ [⟨p / 32, p % 32, q % 32, r⟩] } })
    else s.queueSwitching (p / 32) ⟨true, p % 32, q % 32, r⟩ := by
  obtain ⟨heng, hne, hplan⟩ := h1
  obtain ⟨hdp, hdq, hcp, hcq⟩ := h2
  unfold State.opBypassEnable
  simp only [← hp, ← hq]
  rw [if_neg (by omega), if_neg (by simp [hplan]), if_neg (by simp [hdp, hdq]), if_neg, hotLimit]
  rw [Bool.not_eq_true, Bool.or_eq_false_iff, noOther_iff, noOther_iff]
  exact ⟨hcp, hcq⟩

theorem opBypassReset_joined (h : s.joins p q) : s.opBypassReset r d = s.queueSwitching (p / 32) ⟨false, p % 32, q % 32, r⟩ := by
  obtain ⟨heng, hne, hjoined⟩ := h
  unfold State.opBypassReset
  simp only [← hp, ← hq]
  refine if_neg (not_or.mpr ⟨by omega, not_or.mpr ⟨hne, ?_⟩⟩)
  rw [(joined_iff _ _ _ _).mpr hjoined]
  decide

theorem opBypassReset_parted (h : ¬s.joins p q) : s.opBypassReset r d = (some stNotFound, s) := by
  unfold State.opBypassReset
  simp only [← hp, ← hq]
  refine if_pos (by_contra fun hc => h ?_)
  rw [not_or, not_or, not_not, Bool.not_eq_false] at hc
  obtain ⟨heng, hne, hjoined⟩ := hc
  exact ⟨heng, hne, (joined_iff _ _ _ _).mp hjoined⟩

end

/-! ### The waits of check 5 -/

/-- From `s` to `t` engine `e`'s queue has not become shorter, and no cell, path or wait of check 5 has changed, nor device memory. -/
structure QueueGrows (e : Nat) (s t : State) : Prop where
  queue : (s.switchQueue e).length ≤ (t.switchQueue e).length
  hot : t.byp.hot = s.byp.hot
  cells : t.byp.cells = s.byp.cells
  paths : t.byp.paths = s.byp.paths
  mem : t.mem = s.mem

namespace QueueGrows

variable {e : Nat} {s t u : State}

theorem refl (s : State) : QueueGrows e s s := ⟨le_refl _, rfl, rfl, rfl, rfl⟩
theorem trans (h : QueueGrows e s t) (k : QueueGrows e t u) : QueueGrows e s u :=
  ⟨h.queue.trans k.queue, k.hot.trans h.hot, k.cells.trans h.cells, k.paths.trans h.paths, k.mem.trans h.mem⟩

theorem of_kept {p : Nat → Prop} (h : Kept p s t) : QueueGrows e s t := by
  have hb := h.byp
  exact ⟨by rw [State.switchQueue, State.switchQueue, hb], by rw [hb], by rw [hb], by rw [hb], h.mem⟩

end QueueGrows

/-- A wait of check 5 that ends with the engine cool: its switching is queued, or its command answered with BUSY. -/
def State.queueCooled (s : State) (e : Nat) (x : HotWait) : State :=
  match s.queueSwitching e ⟨true, x.a, x.b, x.ring⟩ with
  | (some st, s) => s.complete x.ring st 0 0
  | (none, s) => s

theorem hotCheck_hot {s : State} {e : Nat} (h : 850 ≤ s.rd OPT_ENG_STATUS.temp (engPage e)) : s.hotCheck e = s := if_pos h

theorem hotCheck_cool {s : State} {e : Nat} (h : s.rd OPT_ENG_STATUS.temp (engPage e) < 850) : s.hotCheck e =
    State.each { s with byp := { s.byp with hot := s.byp.hot.filter fun x => x.engine != e } } (s.byp.hot.filter fun x => x.engine == e)
      fun x s => s.queueCooled e x := if_neg (Nat.not_le.mpr h)

theorem queueCooled_grows (s : State) (e : Nat) (x : HotWait) : QueueGrows e s (s.queueCooled e x) := by
  unfold State.queueCooled
  by_cases h : 16 ≤ (s.switchQueue e).length - b2n (s.switching e)
  · rw [queueSwitching_full _ h]
    exact QueueGrows.of_kept (complete_kept _ _ _ _ _)
  · rw [queueSwitching_room _ (Nat.not_le.mp h)]
    refine ⟨?_, rfl, rfl, rfl, rfl⟩
    rw [switchQueue_setSwitchQueue, List.length_append]
    exact Nat.le_add_right _ _

/-- The waits of an engine that has cooled leave the list, and its queue takes them as far as it has room. -/
theorem hotCheck_spec {s : State} {e : Nat} (h : s.rd OPT_ENG_STATUS.temp (engPage e) < 850) :
    QueueGrows e { s with byp := { s.byp with hot := s.byp.hot.filter fun x => x.engine != e } } (s.hotCheck e) := by
  rw [hotCheck_cool h]
  exact State.each_rel QueueGrows.refl QueueGrows.trans _ _ (fun x _ t => queueCooled_grows t e x) _

/-- The end of a wait with the engine cool finds no wait of it left. -/
theorem waitExpiry_cool {s : State} {e : Nat} (h : s.rd OPT_ENG_STATUS.temp (engPage e) < 850) : bypassTemperatureWaitExpiry e s = s.hotCheck e := by
  have hnone : ((s.hotCheck e).byp.hot.find? fun x => x.engine == e) = none := by
    rw [(hotCheck_spec h).hot]
    exact List.find?_eq_none.mpr fun x hx => by simpa using (List.mem_filter.mp hx).2
  simp only [bypassTemperatureWaitExpiry, hnone]

/-- The end of the oldest wait of an engine still too hot completes its command with outcome 2. -/
theorem waitExpiry_hot {s : State} {e : Nat} {w : HotWait} (h : 850 ≤ s.rd OPT_ENG_STATUS.temp (engPage e))
    (hw : (s.byp.hot.find? fun y => y.engine == e) = some w) :
    bypassTemperatureWaitExpiry e s = ({ s with byp := { s.byp with hot := s.byp.hot.erase w } } : State).complete w.ring stOk 2 0 := by
  simp only [bypassTemperatureWaitExpiry, hotCheck_hot h, hw]

theorem waitExpiry_idle {s : State} {e : Nat} (h : 850 ≤ s.rd OPT_ENG_STATUS.temp (engPage e)) (hw : ∀ y ∈ s.byp.hot, y.engine ≠ e) :
    bypassTemperatureWaitExpiry e s = s := by
  have hnone : (s.byp.hot.find? fun y => y.engine == e) = none := List.find?_eq_none.mpr fun y hy => by simpa using hw y hy
  simp only [bypassTemperatureWaitExpiry, hotCheck_hot h, hnone]

end Sys2Proof.Machine
end

section
/-! SUPPORT. Readbacks of an engine's cells (R106, R108 to R110): what they show, what they take out of service, and what they leave. -/

namespace Sys2Proof.Machine

/-! ### A sub-port that is stopped by the device -/

/-- Keys that stopping sub-port `l` may write. -/
def isStop (l k : Nat) : Prop :=
  ¬noSwitch k ∨ isIrq (portPage (l / 4)) k ∨ k = OPT_PORT_STATE.state.key (portPage (l / 4)) (l % 4)
    ∨ k = OPT_PORT_STATE.last_cause.key (portPage (l / 4)) 0

/-- The pieces that leaving service changes. -/
def stopPieces : List Piece := [.mgmt, .subs, .sw, .rel]

theorem not_isStop {l k : Nat} (h : ¬isStop l k) : noSwitch k ∧ ¬isIrq (portPage (l / 4)) k := by
  simp only [isStop, not_or, not_not] at h
  exact ⟨h.1, h.2.1⟩

/-- A state key reads its own sub-port alone. -/
theorem linkState_key_ne {k l : Nat} (h : k ≠ l) :
    OPT_PORT_STATE.state.key (portPage (k / 4)) (k % 4) ≠ OPT_PORT_STATE.state.key (portPage (l / 4)) (l % 4) := by
  simp only [ne_eq, Fld.key, Fld.offAt, Fld.loAt, OPT_PORT_STATE.state, portPage, diePage]
  omega

theorem linkState_noSwitch {k : Nat} (hk : k < 2048) : noSwitch (OPT_PORT_STATE.state.key (portPage (k / 4)) (k % 4)) :=
  port_noSwitch _ _ _ (by omega) (by simp [Fld.offAt, OPT_PORT_STATE.state]) (by simp [Fld.loAt, OPT_PORT_STATE.state]; omega)

theorem linkState_not_isStop {k l : Nat} (hk : k < 2048) (h : k ≠ l) : ¬isStop l (OPT_PORT_STATE.state.key (portPage (k / 4)) (k % 4)) := by
  simp only [isStop, not_or, not_not]
  refine ⟨linkState_noSwitch hk, (noIrqLink _ _ _ (by omega)).2, linkState_key_ne h, ?_⟩
  simp only [Fld.key, Fld.offAt, Fld.loAt, OPT_PORT_STATE.state, OPT_PORT_STATE.last_cause, portPage, diePage]
  omega

section
variable {l : Nat} (s : State)

theorem setSub_stops (x : SubPort) : ChangesOnly stopPieces (isStop l) s (s.setSub l x) := by
  refine ⟨rfl, rfl, fun y hy => ?_, fun _ _ _ => rfl⟩
  cases y with
  | subs => exact absurd (by decide) hy
  | banks => exact ⟨rfl, rfl, rfl⟩
  | _ => rfl

theorem setLink_stops (v : Nat) : ChangesOnly stopPieces (isStop l) s (s.setLink l v) := ChangesOnly.wr _ _ _ _ _ (.inr (.inr (.inl rfl)))

theorem moved_stops {p : Nat → Prop} {s t : State} (h : Moved p s t) (hp : ∀ k, noSwitch k ∧ ¬isIrq (portPage (l / 4)) k → p k) :
    ChangesOnly stopPieces (isStop l) s t :=
  ChangesOnly.of_moved h (by decide) (by decide) (by decide) fun k hk => hp k (not_isStop hk)

theorem goDark_stops (v : Nat) : ChangesOnly stopPieces (isStop l) s (s.goDark l v) := (setLink_stops s v).trans (setSub_stops _ _)

theorem linkDown_stops (cause flush : Nat) : ChangesOnly stopPieces (isStop l) s (s.linkDown l cause flush) := by
  have hpage := portPage_aligned (l / 4)
  unfold State.linkDown
  dsimp only
  refine ChangesOnly.trans ?_ (moved_stops (flushPort_moved _ _ _) fun _ h => h.1)
  refine ChangesOnly.trans ?_ (moved_stops (Moved.of_kept (penalty_kept noSwitch _ _ _)) fun _ h => h.1)
  refine ChangesOnly.trans ?_ (moved_stops (Moved.of_kept (count_kept _ _ _ _ _ hpage)) fun _ h => h.1.1.ctr)
  refine ChangesOnly.trans ?_ (moved_stops (Moved.of_kept (alarm_kept _ _ _ _ _ _)) fun _ h => h.1.1)
  refine ChangesOnly.trans ?_ (moved_stops (Moved.of_kept (irq_kept _ _ _ hpage)) fun _ h => ⟨h.1.1, h.2⟩)
  refine ChangesOnly.trans ?_ (ChangesOnly.wr _ OPT_PORT_STATE.last_cause _ _ _ (.inr (.inr (.inr rfl))))
  exact (setSub_stops s _).trans (setLink_stops _ _)

/-- A sub-port that the device stops for good changes its state, what its frames and their queues leave, and nothing else. -/
theorem stopSub_stops (cause flush : Nat) : ChangesOnly stopPieces (isStop l) s (s.stopSub l cause flush .stay) := by
  have hlldp : ChangesOnly stopPieces (isStop l) s (s.lldpShutdown l) := by
    unfold State.lldpShutdown
    exact ChangesOnly.iff _ _ (moved_stops (sendWire_moved _ _ _) fun _ h => h.1)
  have hdown := hlldp.trans (ChangesOnly.iff ((s.lldpShutdown l).isUp l) (fun s => s.linkDown l cause flush) (linkDown_stops _ _ _))
  unfold State.stopSub
  dsimp only
  split_ifs
  · exact hdown.trans (goDark_stops _ _)
  · refine hdown.trans ?_
    refine ChangesOnly.trans ?_ (ChangesOnly.iff _ _ (moved_stops (Moved.of_kept (emit_kept _ _)) fun _ h => h.1.1.ctr))
    exact (setLink_stops _ _).trans (setSub_stops _ _)

theorem isUp_setLink (v : Nat) : (s.setLink l v).isUp l = (v % 16 == 6) := by rw [State.isUp, State.linkState_setLink_same]

/-- A sub-port at rest is not UP. -/
theorem restState_not_up (l : Nat) : s.restState l % 16 = s.restState l ∧ (s.restState l == 6) = false := by
  unfold State.restState
  split_ifs <;> exact ⟨rfl, rfl⟩

/-- A sub-port that the device stops is not UP. -/
theorem stopSub_down (cause flush : Nat) : (s.stopSub l cause flush .stay).isUp l = false := by
  unfold State.stopSub
  dsimp only
  split_ifs
  · obtain ⟨hmod, hup⟩ := restState_not_up _ l
    rw [State.isUp, State.linkState_goDark, hmod, hup]
  · refine (State.iff_keeps (fun t => t.isUp l) _ _ _ ?_).trans (isUp_setLink _ _)
    exact congrArg (· == 6) (emit_rd _ _ _ _ _ rfl)

end

/-! ### Ports whose cells are not BAR -/

/-- Logical port `l` of engine `e` has a cell that is not BAR and does not drain (R105, R109). -/
def State.outside (s : State) (e l : Nat) : Prop := l / 128 = e ∧ s.cellsBar (l / 4) = false ∧ Sparse.has s.byp.draining (l / 4) = false

theorem mem_lportsOf {p l : Nat} : l ∈ lportsOf [p] ↔ l / 4 = p := by
  simp only [lportsOf, List.flatMap_cons, List.flatMap_nil, List.append_nil, List.mem_cons, List.not_mem_nil, or_false]
  omega

theorem mem_engPorts {p e : Nat} : p ∈ engPorts e ↔ p / 32 = e := by
  simp only [engPorts, List.mem_map, List.mem_range]
  exact ⟨fun ⟨j, hj, h⟩ => by omega, fun h => ⟨p % 32, by omega, by omega⟩⟩

/-- The ports that a readback takes out of service. -/
theorem mem_outOfService {s : State} {e p : Nat} :
    p ∈ ((engPorts e).filter fun p => !s.cellsBar p && !Sparse.has s.byp.draining p)
      ↔ p / 32 = e ∧ s.cellsBar p = false ∧ Sparse.has s.byp.draining p = false := by
  simp [mem_engPorts]

/-- Sub-port `l` is stopped unless it is dark and at rest already. -/
def State.withdraw (s : State) (l : Nat) : State :=
  s.iff (decide ((s.sub l).tx ≠ .dark) || s.linkState l != s.restState l) fun s => s.stopSub l cAdmin 0x1B .stay

theorem outOfService_eq (s : State) (e : Nat) : s.outOfService e =
    s.each ((engPorts e).filter fun p => !s.cellsBar p && !Sparse.has s.byp.draining p) fun p s => s.each (lportsOf [p]) fun l s => s.withdraw l := rfl

/-- From `s` to `t` sub-ports have left service: those down stay down. -/
structure Withdraws (s t : State) : Prop where
  only : ChangesOnly stopPieces (fun k => ¬noPort k) s t
  down : ∀ l, l < 2048 → s.isUp l = false → t.isUp l = false

theorem Withdraws.refl (s : State) : Withdraws s s := ⟨ChangesOnly.refl _ _ s, fun _ _ h => h⟩
theorem Withdraws.trans {s t u : State} (h : Withdraws s t) (k : Withdraws t u) : Withdraws s u :=
  ⟨h.only.trans k.only, fun l hl hs => k.down l hl (h.down l hl hs)⟩

theorem isStop_not_noPort {l k : Nat} (hl : l < 2048) (h : isStop l k) : ¬noPort k := by
  intro hn
  rcases h with h | h | h | h
  · exact h hn.1
  · exact (noPort_irq (l / 4) k (by omega) hn).2 h
  · exact state_key_noPort l hl (h ▸ hn)
  · exact hn.2 (.inl (h ▸ isPort_key _ _ _ (by omega) (by decide) (by decide)))

theorem withdraw_spec (s : State) {l : Nat} (hl : l < 2048) : Withdraws s (s.withdraw l) ∧ (s.withdraw l).isUp l = false := by
  have hstop : ChangesOnly stopPieces (isStop l) s (s.withdraw l) := ChangesOnly.iff _ _ (stopSub_stops s _ _)
  have hdown : (s.withdraw l).isUp l = false := by
    unfold State.withdraw
    cases h : (decide ((s.sub l).tx ≠ .dark) || s.linkState l != s.restState l)
    · rw [Bool.or_eq_false_iff, bne_eq_false_iff_eq] at h
      rw [State.iff_false, State.isUp, h.2, (restState_not_up s l).2]
    · exact stopSub_down s _ _
  refine ⟨⟨hstop.mono (fun _ h => h) fun k hk => isStop_not_noPort hl hk, fun k hk hs => ?_⟩, hdown⟩
  by_cases h : k = l
  · rw [h, hdown]
  · rw [← hs]
    exact congrArg (· == 6) (hstop.rd (linkState_not_isStop hk h))

/-- A port leaves service with its sub-ports. -/
theorem port_withdraws (s : State) {p : Nat} (hp : p < 512) :
    Withdraws s (s.each (lportsOf [p]) fun l s => s.withdraw l) ∧ ∀ l ∈ lportsOf [p], (s.each (lportsOf [p]) fun l s => s.withdraw l).isUp l = false := by
  have hlt : ∀ l ∈ lportsOf [p], l < 2048 := fun l hl => by rw [mem_lportsOf] at hl; omega
  exact ⟨State.each_rel Withdraws.refl Withdraws.trans _ _ (fun l hl t => (withdraw_spec t (hlt l hl)).1) s,
    State.each_reaches (Q := fun l t => t.isUp l = false) Withdraws.refl Withdraws.trans _ _ (fun l hl t => withdraw_spec t (hlt l hl))
      (fun l hl t u ht htu => htu.down l (hlt l hl) ht) s⟩

/-- Every port of the engine with a cell that is not BAR leaves service. -/
theorem outOfService_spec (s : State) {e : Nat} (he : e < 16) :
    Withdraws s (s.outOfService e) ∧ ∀ l, s.outside e l → (s.outOfService e).isUp l = false := by
  rw [outOfService_eq]
  have hlt : ∀ p ∈ ((engPorts e).filter fun p => !s.cellsBar p && !Sparse.has s.byp.draining p), p < 512 := fun p hp => by
    obtain ⟨h, -⟩ := mem_outOfService.mp hp
    omega
  refine ⟨State.each_rel Withdraws.refl Withdraws.trans _ _ (fun p hp t => (port_withdraws t (hlt p hp)).1) s, fun l hl => ?_⟩
  obtain ⟨hle, hbar, hdrain⟩ := hl
  refine State.each_reaches (Q := fun p t => ∀ l ∈ lportsOf [p], t.isUp l = false) Withdraws.refl Withdraws.trans _ _
    (fun p hp t => port_withdraws t (hlt p hp)) (fun p hp t u ht htu l hl => htu.down l ?_ (ht l hl)) s (l / 4)
    (mem_outOfService.mpr ⟨by omega, hbar, hdrain⟩) l (mem_lportsOf.mpr rfl)
  have := hlt p hp
  rw [mem_lportsOf] at hl
  omega

theorem get_of_has_false {α : Type} (d : α) {m : Sparse α} {k : Nat} (h : Sparse.has m k = false) : Sparse.get d m k = d := by
  induction m with
  | nil => rfl
  | cons x m ih =>
    obtain ⟨i, v⟩ := x
    rw [Sparse.has] at h
    rw [Sparse.get]
    split_ifs at h ⊢
    exact ih h

/-- A port with a cell that is not BAR is treated as BYPASS, so that its sub-ports rest DISABLED (R100, R105). -/
theorem restState_outside {s : State} {e l : Nat} (h : s.outside e l) : s.restState l = psDisabled := by
  obtain ⟨-, hbar, hdrain⟩ := h
  have hrole : s.role (l / 4) = 2 := by
    unfold State.role State.portRec
    dsimp only
    rw [get_of_has_false _ hdrain, hbar]
    rfl
  unfold State.restState State.wanted
  simp [hrole, hbar, roleDown, roleGallery]

/-- Where those ports are dark and DISABLED already nothing leaves service. -/
theorem outOfService_eq_self {s : State} {e : Nat} (h : ∀ l, s.outside e l → (s.sub l).tx = .dark ∧ s.linkState l = psDisabled) :
    s.outOfService e = s := by
  rw [outOfService_eq]
  refine State.each_eq_self fun p hp => State.each_eq_self fun l hl => ?_
  obtain ⟨he, hbar, hdrain⟩ := mem_outOfService.mp hp
  rw [mem_lportsOf] at hl
  subst hl
  have hout : s.outside e l := ⟨by omega, hbar, hdrain⟩
  obtain ⟨hdark, hstate⟩ := h l hout
  unfold State.withdraw
  rw [hdark, hstate, restState_outside hout]
  rfl

end Sys2Proof.Machine
end

section
/-! SUPPORT. A readback of an engine's cells with its reconciliation (R106, R108 to R110): what it shows, and what it leaves. -/

namespace Sys2Proof.Machine

/-- Keys that a readback of engine `e` may write: counters, event rings, the interrupts of its page, and its page from offset `lo` on. -/
def onByp (e lo k : Nat) : Prop := shared k ∨ isIrq (bypPage e) k ∨ (pageOf k = bypPage e ∧ lo ≤ offOf k)

theorem onByp_mono {e lo lo' : Nat} (h : lo' ≤ lo) : ∀ k, onByp e lo k → onByp e lo' k := by
  rintro k (hk | hk | ⟨hp, ho⟩)
  · exact .inl hk
  · exact .inr (.inl hk)
  · exact .inr (.inr ⟨hp, h.trans ho⟩)

theorem onByp_onPages {e lo k : Nat} (h : onByp e lo k) : onPages [bypPage e] k := by
  rcases h with h | h | h
  · exact .inl h
  · exact .inr (List.mem_singleton.mpr h.1)
  · exact .inr (List.mem_singleton.mpr h.1)

/-- A field of the page at offset `lo` or above is one that a readback may write. -/
theorem onByp_key (f : Fld) (e lo i : Nat) (h : lo ≤ f.offAt i) (h1 : f.offAt i < 4096) (h2 : f.loAt i < 64) : onByp e lo (f.key (bypPage e) i) := by
  obtain ⟨hp, ho⟩ := byp_place f e i h1 h2
  exact .inr (.inr ⟨hp, ho ▸ h⟩)

/-- A field of the page below offset `lo`, away from the interrupts, is one that it does not write there. -/
theorem not_onByp_key (f : Fld) (e lo i : Nat) (he : e < 16) (h : f.offAt i < lo) (h0 : f.offAt i ≠ 0x18) (h1 : f.offAt i < 0xF00) (h2 : f.loAt i < 64) :
    ¬onByp e lo (f.key (bypPage e) i) := by
  obtain ⟨hp, ho⟩ := byp_place f e i (by omega) h2
  obtain ⟨hctr, hevr⟩ := byp_noEvent f e i he h1 h2
  rintro ((hk | hk) | hk | hk)
  · exact hctr hk
  · exact hevr hk
  · exact h0 (ho ▸ hk.2)
  · exact absurd hk.2 (by omega)

theorem byp_noPort (f : Fld) (e i : Nat) (he : e < 16) (h1 : f.offAt i < 0xF00) (h2 : f.loAt i < 64) : noPort (f.key (bypPage e) i) := by
  obtain ⟨hp, ho⟩ := byp_place f e i (by omega) h2
  have hr := bypPage_range e he
  refine ⟨⟨byp_noEvent f e i he h1 h2, ?_⟩, ?_⟩
  · simp only [isBufSwp, hp]; omega
  · rintro (h | ⟨j, h⟩)
    · simp only [isPort, hp] at h; omega
    · rw [h, (eng_key OPT_ENG_STATUS.cal_state j 0 (by decide) (by decide)).1] at hp
      unfold engPage bypPage diePage at hp
      omega

/-! ### What a readback shows -/

/-- The map of partners, the cells, and the status of a readback. -/
def State.showPartners (s : State) (e : Nat) : State :=
  s.each (List.range 32) fun j s => s.wr BYP_CIRCUIT_MAP.partner (bypPage e) (s.partnerCode e j) j
def State.showCells (s : State) (e : Nat) : State :=
  s.each (List.range 64) fun i s => s.wr BYP_CELL_STATE.cell (bypPage e) (s.cell e (i / 2) (i % 2)) i
def State.showValid (s : State) (e : Nat) : State :=
  ((s.wr BYP_STATUS.uncertain (bypPage e) (portMask fun j => s.cellUncertain e j)).wr BYP_STATUS.circuits (bypPage e) (s.circuits e).length).wr
    BYP_STATUS.readback_valid (bypPage e) 1
def State.showTime (s : State) (e : Nat) : State :=
  let s := (s.wr BYP_LAST_READBACK.seconds (bypPage e) (secOf s.time.t0)).wr BYP_LAST_READBACK.nanoseconds (bypPage e) (nsOf s.time.t0)
  let s := s.wearView e
  let bad := ((List.range 64).filter fun i => s.cell e (i / 2) (i % 2) == 2).length
  (s.count (bypPage e) 0x81).iff (bad != 0) fun s => s.count (bypPage e) 0x82 0 bad

theorem readback_eq (s : State) (e : Nat) : s.readback e = (((s.showPartners e).showCells e).showValid e).showTime e := rfl

theorem partner_place (j : Nat) (hj : j < 32) : 0x100 ≤ BYP_CIRCUIT_MAP.partner.offAt j ∧ BYP_CIRCUIT_MAP.partner.offAt j < 0x120
    ∧ BYP_CIRCUIT_MAP.partner.loAt j < 64 := by
  simp only [Fld.offAt, Fld.loAt, BYP_CIRCUIT_MAP.partner]
  omega

theorem cell_place (i : Nat) (hi : i < 64) : 0x120 ≤ BYP_CELL_STATE.cell.offAt i ∧ BYP_CELL_STATE.cell.offAt i < 0x130
    ∧ BYP_CELL_STATE.cell.loAt i < 64 := by
  simp only [Fld.offAt, Fld.loAt, BYP_CELL_STATE.cell]
  omega

theorem rd_showPartners (s : State) (e j : Nat) (hj : j < 32) :
    (s.showPartners e).rd BYP_CIRCUIT_MAP.partner (bypPage e) j = s.partnerCode e j % 256 :=
  State.rd_each_wr (g := fun s j => s.partnerCode e j) (fun _ _ _ _ => rfl)
    (fun i j h => by simp only [ne_eq, Fld.key, Fld.offAt, Fld.loAt, BYP_CIRCUIT_MAP.partner]; omega) (List.mem_range.mpr hj) s

theorem rd_showCells (s : State) (e i : Nat) (hi : i < 64) :
    (s.showCells e).rd BYP_CELL_STATE.cell (bypPage e) i = s.cell e (i / 2) (i % 2) % 4 :=
  State.rd_each_wr (g := fun s i => s.cell e (i / 2) (i % 2)) (fun _ _ _ _ => rfl)
    (fun i j h => by simp only [ne_eq, Fld.key, Fld.offAt, Fld.loAt, BYP_CELL_STATE.cell]; omega) (List.mem_range.mpr hi) s

theorem rd_showValid (s : State) (e : Nat) : (s.showValid e).rd BYP_STATUS.readback_valid (bypPage e) = 1 := State.rd_wr_same _ _ _ _ _

theorem showPartners_only (s : State) (e : Nat) : ChangesOnly [] (onByp e 0x100) s (s.showPartners e) :=
  ChangesOnly.each _ _ (fun j hj t => by
    obtain ⟨h1, h2, h3⟩ := partner_place j (List.mem_range.mp hj)
    exact ChangesOnly.wr _ _ _ _ _ (onByp_key _ _ _ _ h1 (by omega) h3)) s

theorem showCells_only (s : State) (e : Nat) : ChangesOnly [] (onByp e 0x120) s (s.showCells e) :=
  ChangesOnly.each _ _ (fun i hi t => by
    obtain ⟨h1, h2, h3⟩ := cell_place i (List.mem_range.mp hi)
    exact ChangesOnly.wr _ _ _ _ _ (onByp_key _ _ _ _ h1 (by omega) h3)) s

/-- A field of one copy at offset `lo` or above, written. -/
theorem wr_onByp (s : State) (f : Fld) (e lo v : Nat) (h : lo ≤ f.offAt 0) (h1 : f.offAt 0 < 4096) (h2 : f.loAt 0 < 64) :
    ChangesOnly [] (onByp e lo) s (s.wr f (bypPage e) v) := ChangesOnly.wr _ _ _ _ _ (onByp_key _ _ _ _ h h1 h2)

theorem count_onByp (s : State) (e lo code inst n : Nat) : ChangesOnly [] (onByp e lo) s (s.count (bypPage e) code inst n) :=
  ChangesOnly.of_still (count_kept _ _ _ _ _ (bypPage_aligned e)) (.inr (count_mgmt _ _ _ _ _)) (.inr (count_rel _ _ _ _ _))
    fun _ hk h => hk (.inl (.inl h))

theorem irq_onByp (s : State) (e lo b : Nat) : ChangesOnly [.mgmt] (onByp e lo) s (s.irq (bypPage e) b) :=
  ChangesOnly.of_still (irq_kept _ _ _ (bypPage_aligned e)) (.inl (by decide)) (.inr (irq_rel _ _ _))
    fun _ hk => ⟨⟨fun h => hk (.inl (.inl h)), fun h => hk (.inl (.inr h))⟩, fun h => hk (.inr (.inl h))⟩

theorem showValid_only (s : State) (e : Nat) : ChangesOnly [] (onByp e 0x130) s (s.showValid e) :=
  ((wr_onByp _ _ _ _ _ (by decide) (by decide) (by decide)).trans (wr_onByp _ _ _ _ _ (by decide) (by decide) (by decide))).trans
    (wr_onByp _ _ _ _ _ (by decide) (by decide) (by decide))

theorem showTime_only (s : State) (e : Nat) : ChangesOnly [] (onByp e 0x138) s (s.showTime e) := by
  unfold State.showTime State.wearView
  dsimp only
  refine ChangesOnly.trans ?_ (ChangesOnly.iff _ _ (count_onByp _ _ _ _ _ _))
  refine ChangesOnly.trans ?_ (count_onByp _ _ _ _ _ _)
  refine ChangesOnly.trans ?_ (wr_onByp _ BYP_WEAR.side _ _ _ (by decide) (by decide) (by decide))
  refine ChangesOnly.trans ?_ (wr_onByp _ BYP_WEAR.port _ _ _ (by decide) (by decide) (by decide))
  refine ChangesOnly.trans ?_ (wr_onByp _ BYP_WEAR.max_count _ _ _ (by decide) (by decide) (by decide))
  refine ChangesOnly.trans ?_ (wr_onByp _ BYP_LAST_READBACK.nanoseconds _ _ _ (by decide) (by decide) (by decide))
  exact wr_onByp _ BYP_LAST_READBACK.seconds _ _ _ (by decide) (by decide) (by decide)

theorem readback_only (s : State) (e : Nat) : ChangesOnly [] (onByp e 0x100) s (s.readback e) := by
  rw [readback_eq]
  refine (showPartners_only s e).trans (((showCells_only _ e).mono (fun _ h => h) (onByp_mono (by decide))).trans ?_)
  exact ((showValid_only _ e).mono (fun _ h => h) (onByp_mono (by decide))).trans ((showTime_only _ e).mono (fun _ h => h) (onByp_mono (by decide)))

/-- `t` shows the partners and the cells of engine `e` as `s` has them. -/
structure Shows (s t : State) (e : Nat) : Prop where
  partners : ∀ j, j < 32 → t.rd BYP_CIRCUIT_MAP.partner (bypPage e) j = s.partnerCode e j % 256
  cells : ∀ i, i < 64 → t.rd BYP_CELL_STATE.cell (bypPage e) i = s.cell e (i / 2) (i % 2) % 4
  valid : t.rd BYP_STATUS.readback_valid (bypPage e) = 1

/-- What writes none of the shown fields leaves them shown. -/
theorem Shows.mono {s t u : State} {e : Nat} {l : List Piece} {q : Nat → Prop} (h : Shows s t e) (k : ChangesOnly l q t u)
    (hq : ∀ (f : Fld) (i : Nat), 0x100 ≤ f.offAt i → f.offAt i < 0x138 → f.loAt i < 64 → ¬q (f.key (bypPage e) i)) : Shows s u e := by
  refine ⟨fun j hj => ?_, fun i hi => ?_, ?_⟩
  · obtain ⟨h1, h2, h3⟩ := partner_place j hj
    rw [k.rd (hq _ _ h1 (by omega) h3), h.partners j hj]
  · obtain ⟨h1, h2, h3⟩ := cell_place i hi
    rw [k.rd (hq _ _ (by omega) (by omega) h3), h.cells i hi]
  · rw [k.rd (hq _ _ (by decide) (by decide) (by decide)), h.valid]

theorem readback_shows (s : State) {e : Nat} (he : e < 16) : Shows s (s.readback e) e := by
  rw [readback_eq]
  refine Shows.mono ⟨fun j hj => ?_, fun i hi => ?_, rd_showValid _ e⟩ (showTime_only _ e) fun f i h0 h1 h2 =>
    not_onByp_key f e _ i he h1 (by omega) (by omega) h2
  · obtain ⟨h1, h2, h3⟩ := partner_place j hj
    rw [(showValid_only _ e).rd (not_onByp_key _ _ _ _ he (by omega) (by omega) (by omega) h3),
      (showCells_only _ e).rd (not_onByp_key _ _ _ _ he h2 (by omega) (by omega) h3), rd_showPartners s e j hj]
  · obtain ⟨h1, h2, h3⟩ := cell_place i hi
    rw [(showValid_only _ e).rd (not_onByp_key _ _ _ _ he h2 (by omega) (by omega) h3), rd_showCells _ e i hi]
    exact congrArg (fun b : Bypass => Sparse.get 0 b.cells (64 * e + 2 * (i / 2) + i % 2) % 4) ((showPartners_only s e).byp (by decide))

/-! ### The reconciliation -/

/-- BYP_MISMATCH, the drift from the circuit record, and the interrupts of a reconciliation. -/
def State.showMismatch (s : State) (e u m : Nat) (d : Sparse Bool) : State :=
  let t := (s.wr BYP_MISMATCH.unplanned (bypPage e) u).wr BYP_MISMATCH.missing (bypPage e) m
  { t with byp := { t.byp with drift := d } }
def State.raiseFlags (s : State) (e : Nat) (mismatch odd drift : Bool) : State :=
  ((s.iff mismatch fun s => s.irq (bypPage e) 6).iff odd fun s => s.irq (bypPage e) 7).iff drift fun s => s.irq (bypPage e) 8

theorem reconcile_eq (s : State) (e : Nat) :
    ∃ u m d a b c, s.reconcile e = ((s.outOfService e).showMismatch e u m d).raiseFlags e a b c := ⟨_, _, _, _, _, _, rfl⟩

theorem showMismatch_only (s : State) (e u m : Nat) (d : Sparse Bool) : ChangesOnly [.byp] (onByp e 0x138) s (s.showMismatch e u m d) := by
  refine ChangesOnly.of_byp (b := { s.byp with drift := d }) ?_ (by decide)
  exact (((ChangesOnly.refl [] _ _).trans (wr_onByp _ BYP_MISMATCH.unplanned e _ u (by decide) (by decide) (by decide))).trans
    (wr_onByp _ BYP_MISMATCH.missing e _ m (by decide) (by decide) (by decide))).mono (by simp) fun _ h => h

theorem raiseFlags_only (s : State) (e : Nat) (a b c : Bool) : ChangesOnly [.mgmt] (onByp e 0x138) s (s.raiseFlags e a b c) :=
  ((ChangesOnly.iff _ _ (irq_onByp _ _ _ _)).trans (ChangesOnly.iff _ _ (irq_onByp _ _ _ _))).trans (ChangesOnly.iff _ _ (irq_onByp _ _ _ _))

/-- A reconciliation beside the ports it takes out of service: BYP_MISMATCH, the interrupts, and the drift alone of the cross-connects. -/
theorem reconcile_spec (s : State) (e : Nat) : ChangesOnly [.byp, .mgmt] (onByp e 0x138) (s.outOfService e) (s.reconcile e)
    ∧ ∃ d, (s.reconcile e).byp = { (s.outOfService e).byp with drift := d } := by
  obtain ⟨u, m, d, a, b, c, h⟩ := reconcile_eq s e
  rw [h]
  have hflags := raiseFlags_only ((s.outOfService e).showMismatch e u m d) e a b c
  exact ⟨((showMismatch_only _ e u m d).mono (by simp) fun _ h => h).trans (hflags.mono (by simp) fun _ h => h), d, hflags.byp (by decide)⟩

/-! ### A readback with its reconciliation -/

theorem outside_congr {s t : State} (h : t.byp = s.byp) (e l : Nat) : t.outside e l ↔ s.outside e l := by
  show ({ s with byp := t.byp } : State).outside e l ↔ s.outside e l
  rw [h]

/-- Fields of another page away from the counters stay. -/
theorem not_onByp_page {e lo : Nat} (f : Fld) {a i : Nat} (ha : a % 4096 = 0) (hlt : a < 0xF010000) (hne : a ≠ bypPage e) (h1 : f.offAt i < 0xF00)
    (h2 : f.loAt i < 64) : ¬onByp e lo (f.key a i) := by
  obtain ⟨hctr, hevr⟩ := pkg_noEvent f a i ha (.inl hlt) h1 h2
  have hpage := (key_place f a i ha (by omega) h2).1
  rintro ((h | h) | h | h)
  · exact hctr h
  · exact hevr h
  · exact hne (hpage.symm.trans h.1)
  · exact hne (hpage.symm.trans h.1)

/-- The state of a sub-port stays. -/
theorem linkState_not_onByp {e lo l : Nat} (he : e < 16) (hl : l < 2048) : ¬onByp e lo (OPT_PORT_STATE.state.key (portPage (l / 4)) (l % 4)) := by
  have hport := portPage_range (l / 4) (by omega)
  have hbyp := bypPage_range e he
  exact not_onByp_page _ (portPage_aligned _) (by omega) (by omega) (by simp [Fld.offAt, OPT_PORT_STATE.state])
    (by simp [Fld.loAt, OPT_PORT_STATE.state]; omega)

/-- Keys that a readback of engine `e` with its reconciliation may write. -/
def isReadback (e k : Nat) : Prop := onByp e 0x100 k ∨ ¬noPort k

theorem readbackNow_eq (s : State) (e : Nat) : s.readbackNow e = (s.readback e).reconcile e := rfl

section
variable (s : State) {e : Nat} (he : e < 16)
include he

/-- The readback is shown, and of the cross-connects the drift alone may have changed. -/
theorem readbackNow_shows : Shows s (s.readbackNow e) e ∧ { (s.readbackNow e).byp with drift := s.byp.drift } = s.byp := by
  obtain ⟨hout, -⟩ := outOfService_spec (s.readback e) he
  obtain ⟨hrec, d, hd⟩ := reconcile_spec (s.readback e) e
  rw [readbackNow_eq]
  refine ⟨Shows.mono (Shows.mono (readback_shows s he) hout.only fun f i _ h1 h2 => ?_) hrec fun f i h0 h1 h2 =>
    not_onByp_key f e _ i he h1 (by omega) (by omega) h2, ?_⟩
  · exact not_not.mpr (byp_noPort f e i he (by omega) h2)
  · rw [hd, hout.only.byp (by decide), (readback_only s e).byp (by decide)]

/-- Every port with a cell that is not BAR and that does not drain has left service. -/
theorem readbackNow_down {l : Nat} (hl : s.outside e l) : (s.readbackNow e).isUp l = false := by
  obtain ⟨-, hdown⟩ := outOfService_spec (s.readback e) he
  rw [readbackNow_eq, ← hdown l ((outside_congr ((readback_only s e).byp (by decide)) e l).mpr hl)]
  obtain ⟨hle, -, -⟩ := hl
  exact congrArg (· == 6) ((reconcile_spec _ e).1.rd (linkState_not_onByp he (by omega)))

/-- A readback changes its own page, the event rings, and what leaving service changes. -/
theorem readbackNow_only : ChangesOnly [.byp, .mgmt, .subs, .sw, .rel] (isReadback e) s (s.readbackNow e) := by
  obtain ⟨hout, -⟩ := outOfService_spec (s.readback e) he
  have h1 := (readback_only s e).mono (m := [.byp, .mgmt, .subs, .sw, .rel]) (q' := isReadback e) (by simp) fun _ h => .inl h
  have h2 := hout.only.mono (m := [.byp, .mgmt, .subs, .sw, .rel]) (q' := isReadback e) (by simp [stopPieces]) fun _ h => .inr h
  exact (h1.trans h2).trans ((reconcile_spec _ e).1.mono (by simp) fun k h => .inl (onByp_mono (by decide) k h))

end

/-- With every such port dark and DISABLED already nothing leaves service. -/
theorem readbackNow_still {s : State} {e : Nat} (he : e < 16) (h : ∀ l, s.outside e l → (s.sub l).tx = .dark ∧ s.linkState l = psDisabled) :
    ChangesOnly [.byp, .mgmt] (onByp e 0x100) s (s.readbackNow e) := by
  have hread := readback_only s e
  have hself : (s.readback e).outOfService e = s.readback e := outOfService_eq_self fun l hl => by
    obtain ⟨hdark, hstate⟩ := h l ((outside_congr (hread.byp (by decide)) e l).mp hl)
    obtain ⟨hle, -, -⟩ := hl
    rw [State.sub_congr (hread.subs (by decide)), State.linkState, hread.rd (linkState_not_onByp he (by omega))]
    exact ⟨hdark, hstate⟩
  have hrec := (reconcile_spec (s.readback e) e).1
  rw [hself] at hrec
  exact (hread.mono (by simp) fun _ h => h).trans (hrec.mono (fun _ h => h) (onByp_mono (by decide)))

end Sys2Proof.Machine
end

section
/-! SUPPORT. The commands of the cross-connects: BYPASS_ENABLE and BYPASS_RESET as their rings perform them, the readbacks, and the write of
BYP_CTRL.readback (R102, R104, R108, R110). -/

namespace Sys2Proof.Machine

/-! ### BYPASS_ENABLE at its second submission -/

/-- Ring `r` submits BYPASS_ENABLE `e` a second time, under another credential than the first submission, item `x`. -/
structure State.enablesSecond (s : State) (r : Nat) (e : Descriptor) (x : DualItem) : Prop where
  front : s.atFront r 0x040 true e
  item : s.dualOpcode? 0x040 e.d = some x
  cred : sameCred x.ephemeral x.cred e.cred.1 e.cred.2 = false
  digest : x.digest = 0

/-- What every end of a second submission leaves: its item has ended, and device memory stays. -/
def State.spends (s : State) (x : DualItem) (u : State) : Prop :=
  (u.mgmt.dual = s.mgmt.dual.filter fun y => y.ticket != x.ticket) ∧ u.mem = s.mem

theorem seconded_spends (s : State) (x : DualItem) : s.spends x (s.cleared.seconded x) := ⟨seconded_dual _ x, (seconded_kept _ x).mem⟩

theorem opBypassEnable_performed {s : State} {r : Nat} {e : Descriptor} {x : DualItem} (h : s.enablesSecond r e x) :
    let y := (s.cleared.seconded x).opBypassEnable r (e.q 1)
    opBypassEnable r s.cleared = (y.2.answer r (y.1.map fun st => (st, 0, 0))).settled r := by
  unfold opBypassEnable
  rw [h.front.cleared.performAllowed (by decide)]
  dsimp only
  rw [dualSubmit_second (s := s.cleared) _ h.item h.cred h.digest]

section
variable {s : State} {r : Fin 4096} {e : Descriptor} {x : DualItem} {p q : Nat}

/-- BYPASS_ENABLE answered at once. -/
theorem bypassEnable_answers {st : Nat} (h : s.enablesSecond r.val e x)
    (ha : (s.cleared.seconded x).opBypassEnable r (e.q 1) = (some st, s.cleared.seconded x)) :
    Answers (.bypassEnable r) s r.val st 0 0 fun u => u.byp = s.byp ∧ s.spends x u := by
  have hdone := opBypassEnable_performed h
  simp only [ha, Option.map_some] at hdone
  exact Answers.of_performed rfl hdone ⟨(seconded_kept _ x).byp, seconded_spends s x⟩

/-- BYPASS_ENABLE that waits. -/
theorem bypassEnable_waits {v : State} {P : State → Prop} (h : s.enablesSecond r.val e x)
    (ha : (s.cleared.seconded x).opBypassEnable r (e.q 1) = (none, v)) (hv : P v) : Waits (.bypassEnable r) s r.val P := by
  have hdone := opBypassEnable_performed h
  simp only [ha, Option.map_none] at hdone
  exact Waits.of_performed rfl hdone hv

theorem Answers.mono {c : Instr} {n st c1 c2 : Nat} {P Q : State → Prop} (h : Answers c s n st c1 c2 P) (hq : ∀ u, P u → Q u) :
    Answers c s n st c1 c2 Q := by
  obtain ⟨v, hv, hc⟩ := h
  exact ⟨v, hq v hv, hc⟩

theorem seconded_pairs (s : State) (x : DualItem) (p q : Nat) : (s.cleared.seconded x).pairs p q ↔ s.pairs p q :=
  State.pairs_congr (seconded_kept _ x).boot p q

theorem seconded_joinable (s : State) (x : DualItem) (p q : Nat) : (s.cleared.seconded x).joinable p q ↔ s.joinable p q :=
  State.joinable_congr (seconded_kept _ x).byp p q

theorem seconded_temp (s : State) (x : DualItem) {g : Nat} (hg : g < 16) :
    (s.cleared.seconded x).rd OPT_ENG_STATUS.temp (engPage g) = s.rd OPT_ENG_STATUS.temp (engPage g) := by
  have hr := engPage_range g hg
  refine (seconded_kept _ x).rd ⟨pkg_noEvent _ _ _ (engPage_aligned g) (.inl (by omega)) (by decide) (by decide), fun h => ?_⟩
  rw [(eng_key OPT_ENG_STATUS.temp g 0 (by decide) (by decide)).1] at h
  have hsec : secPage = 0xF002000 := rfl
  omega

theorem seconded_switching (s : State) (x : DualItem) {g : Nat} (hg : g < 16) : (s.cleared.seconded x).switching g = s.switching g := by
  have hr := bypPage_range g hg
  refine (seconded_kept _ x).flag ⟨byp_noEvent _ g _ hg (by decide) (by decide), fun h => ?_⟩
  rw [(byp_place BYP_STATUS.switching g 0 (by decide) (by decide)).1] at h
  have hsec : secPage = 0xF002000 := rfl
  omega

/-- Below 85 °C the switching is queued. -/
theorem opBypassEnable_cool (hp : p = bits (e.q 1) 0 9) (hq : q = bits (e.q 1) 16 9) (h1 : s.pairs p q)
    (h2 : s.joinable p q) (hcool : s.rd OPT_ENG_STATUS.temp (engPage (p / 32)) < 850) :
    (s.cleared.seconded x).opBypassEnable r.val (e.q 1)
      = (s.cleared.seconded x).queueSwitching (p / 32) ⟨true, p % 32, q % 32, r.val⟩ := by
  have hg : p / 32 < 16 := by rw [hp, bits]; omega
  rw [opBypassEnable_ready hp hq ((seconded_pairs s x p q).mpr h1) ((seconded_joinable s x p q).mpr h2), seconded_temp s x hg,
    if_neg (Nat.not_le.mpr hcool)]

section
variable (h : s.enablesSecond r.val e x) (hp : p = bits (e.q 1) 0 9) (hq : q = bits (e.q 1) 16 9)
include h hp hq

theorem bypassEnable_unpaired (h1 : ¬s.pairs p q) : Answers (.bypassEnable r) s r.val stInvalid 0 0 fun u => u.byp = s.byp ∧ s.spends x u :=
  bypassEnable_answers h (opBypassEnable_unpaired hp hq ((seconded_pairs s x p q).not.mpr h1))

theorem bypassEnable_unready (h1 : s.pairs p q) (h2 : ¬s.joinable p q) :
    Answers (.bypassEnable r) s r.val stBusy 0 0 fun u => u.byp = s.byp ∧ s.spends x u :=
  bypassEnable_answers h (opBypassEnable_unready hp hq ((seconded_pairs s x p q).mpr h1) ((seconded_joinable s x p q).not.mpr h2))

/-- At 85 °C the command waits for the engine to cool. -/
theorem bypassEnable_hot (h1 : s.pairs p q) (h2 : s.joinable p q) (hhot : ¬s.rd OPT_ENG_STATUS.temp (engPage (p / 32)) < 850) :
    Waits (.bypassEnable r) s r.val fun u =>
      u.byp = { s.byp with hot := s.byp.hot ++ [⟨p / 32, p % 32, q % 32, r.val⟩] } ∧ s.spends x u := by
  have hg : p / 32 < 16 := by rw [hp, bits]; omega
  have heq := opBypassEnable_ready (r := r.val) hp hq ((seconded_pairs s x p q).mpr h1) ((seconded_joinable s x p q).mpr h2)
  rw [seconded_temp s x hg, if_pos (Nat.not_lt.mp hhot)] at heq
  refine bypassEnable_waits h heq ⟨?_, seconded_spends s x⟩
  rw [(seconded_kept s.cleared x).byp]
  rfl

theorem bypassEnable_queues (h1 : s.pairs p q) (h2 : s.joinable p q) (hcool : s.rd OPT_ENG_STATUS.temp (engPage (p / 32)) < 850)
    (hroom : (s.switchQueue (p / 32)).length - b2n (s.switching (p / 32)) < 16) :
    Waits (.bypassEnable r) s r.val fun u => SwitchingJoins s u (p / 32) ⟨true, p % 32, q % 32, r.val⟩ ∧ s.spends x u := by
  have hg : p / 32 < 16 := by rw [hp, bits]; omega
  have hb := (seconded_kept s.cleared x).byp
  have hs := seconded_switching s x hg
  have heq := opBypassEnable_cool (x := x) (r := r) hp hq h1 h2 hcool
  rw [queueSwitching_room _ (by rw [hs, State.switchQueue, hb]; exact hroom)] at heq
  exact bypassEnable_waits h heq ⟨(setSwitchQueue_joins _ _ _).of_same hb hs, seconded_spends s x⟩

theorem bypassEnable_full (h1 : s.pairs p q) (h2 : s.joinable p q) (hcool : s.rd OPT_ENG_STATUS.temp (engPage (p / 32)) < 850)
    (hfull : 16 ≤ (s.switchQueue (p / 32)).length - b2n (s.switching (p / 32))) :
    Answers (.bypassEnable r) s r.val stBusy 0 0 fun u => u.byp = s.byp ∧ s.spends x u := by
  have hg : p / 32 < 16 := by rw [hp, bits]; omega
  have hb := (seconded_kept s.cleared x).byp
  have heq := opBypassEnable_cool (x := x) (r := r) hp hq h1 h2 hcool
  rw [queueSwitching_full _ (by rw [seconded_switching s x hg, State.switchQueue, hb]; exact hfull)] at heq
  exact bypassEnable_answers h heq

end

/-! ### BYPASS_RESET -/

theorem opBypassReset_performed (h : s.atFront r.val 0x041 true e) :
    let y := s.cleared.opBypassReset r.val (e.q 1)
    opBypassReset r.val s.cleared = (y.2.answer r.val (y.1.map fun st => (st, 0, 0))).settled r.val := by
  unfold opBypassReset
  rw [h.cleared.performAllowed (by decide)]

/-- BYPASS_RESET answered at once changes nothing before. -/
theorem bypassReset_answers {st : Nat} (h : s.atFront r.val 0x041 true e) (ha : s.cleared.opBypassReset r.val (e.q 1) = (some st, s.cleared)) :
    Answers (.bypassReset r) s r.val st 0 0 (Unchanged s) := by
  have hdone := opBypassReset_performed h
  simp only [ha, Option.map_some] at hdone
  refine Answers.of_performed rfl hdone ⟨rfl, rfl, fun y _ => ?_, fun _ _ _ => rfl⟩
  exact y.same_refl s

section
variable (h : s.atFront r.val 0x041 true e) (hp : p = bits (e.q 1) 0 9) (hq : q = bits (e.q 1) 16 9)
include h hp hq

theorem bypassReset_parted (hj : ¬s.joins p q) : Answers (.bypassReset r) s r.val stNotFound 0 0 (Unchanged s) :=
  bypassReset_answers h (opBypassReset_parted hp hq hj)

theorem bypassReset_full (hj : s.joins p q) (hfull : 16 ≤ (s.switchQueue (p / 32)).length - b2n (s.switching (p / 32))) :
    Answers (.bypassReset r) s r.val stBusy 0 0 (Unchanged s) :=
  bypassReset_answers h ((opBypassReset_joined (s := s.cleared) hp hq hj).trans (queueSwitching_full _ hfull))

theorem bypassReset_queues (hj : s.joins p q) (hroom : (s.switchQueue (p / 32)).length - b2n (s.switching (p / 32)) < 16) :
    Waits (.bypassReset r) s r.val fun u => SwitchingJoins s u (p / 32) ⟨false, p % 32, q % 32, r.val⟩
      ∧ ChangesOnly [.byp] (fun k => pageOf k = bypPage (p / 32) ∧ offOf k = 0x130) s u := by
  have hdone := opBypassReset_performed h
  simp only [opBypassReset_joined (s := s.cleared) hp hq hj, queueSwitching_room (s := s.cleared) _ hroom, Option.map_none] at hdone
  exact Waits.of_performed rfl hdone ⟨(setSwitchQueue_joins s.cleared _ _).of_same rfl rfl, (setSwitchQueue_changes s.cleared _ _ _).of_cleared⟩

end
end

/-! ### The readbacks -/

/-- From `s` to `u` engine `e` has been read back: its page shows it, ports with a cell that is not BAR have left service, and nothing else has
changed. -/
structure ReadsBack (s u : State) (e : Nat) : Prop where
  shows : Shows s u e
  byp : { u.byp with drift := s.byp.drift } = s.byp
  down : ∀ l, s.outside e l → u.isUp l = false
  still : (∀ l, s.outside e l → (s.sub l).tx = .dark ∧ s.linkState l = psDisabled) → ChangesOnly [.byp, .mgmt] (onPages [bypPage e]) s u
  pieces : ∀ y, y ∉ [Piece.byp, .mgmt, .subs, .sw, .rel] → y.same s u

/-- A command whose effect writes the engine's page at most, and then reads the engine back. -/
theorem readsBack_of_run {s w : State} {f : State → State} {e : Nat} (he : e < 16) (hw : ChangesOnly [] (onByp e 0) s.cleared w)
    (hf : f s.cleared = w.readbackNow e) : ReadsBack s (s.run f) e := by
  have hb : w.byp = s.byp := hw.byp (by decide)
  obtain ⟨hshows, hdrift⟩ := readbackNow_shows w he
  rw [hb] at hdrift
  have hout : ∀ l, w.outside e l ↔ s.outside e l := outside_congr hb e
  refine ⟨⟨fun j hj => ?_, fun i hi => ?_, ?_⟩, ?_, fun l hl => ?_, fun hdark => ?_, fun y hy => ?_⟩
  · rw [State.run_rd, hf, hshows.partners j hj, partnerCode_congr hb]
  · rw [State.run_rd, hf, hshows.cells i hi, State.cell, hb]
    rfl
  · rw [State.run_rd, hf, hshows.valid]
  · rw [State.run_byp, hf, hdrift]
  · rw [State.isUp, State.linkState_run, hf]
    exact readbackNow_down w he ((hout l).mpr hl)
  · have hstill := readbackNow_still he fun l hl => by
      obtain ⟨h1, h2⟩ := hdark l ((hout l).mp hl)
      obtain ⟨hle, -, -⟩ := hl
      rw [State.sub_congr (hw.subs (by decide)), State.linkState, hw.rd (linkState_not_onByp he (by omega))]
      exact ⟨h1, h2⟩
    refine ChangesOnly.run (f := f) ?_
    rw [hf]
    exact (hw.mono (by simp) fun _ hk => onByp_onPages hk).trans (hstill.mono (fun _ h => h) fun _ hk => onByp_onPages hk)
  · refine (ChangesOnly.run (f := f) (q := fun _ => True) (l := [.byp, .mgmt, .subs, .sw, .rel]) ?_).pieces y hy
    rw [hf]
    exact (hw.mono (by simp) fun _ _ => trivial).trans ((readbackNow_only w he).mono (fun _ h => h) fun _ _ => trivial)

theorem periodicReadback_reads {s : State} {e : Nat} (h1 : s.rd BYP_CTRL.readback_hours (bypPage e) ≠ 0) (h2 : s.bypAlive e = true) :
    periodicReadback e s = s.readbackNow e := if_neg (by simp [h1, h2])

theorem periodicReadback_idle {s : State} {e : Nat} (h : s.rd BYP_CTRL.readback_hours (bypPage e) = 0 ∨ s.bypAlive e = false) :
    periodicReadback e s = s := if_pos h

/-! ### The write of BYP_CTRL.readback -/

theorem tableOk_byp : tableOk Blk.byp.fields = true := by decide +kernel

/-- The places of an engine page's register lie in it, under different keys. -/
theorem placesAt_byp {e off : Nat} (he : e < 16) (h1 : 0x100 ≤ off) (h2 : off < 0xF00) :
    (∀ p ∈ placesAt (bypPage e) off, p.base = bypPage e ∧ p.key / 64 = bypPage e + off)
      ∧ (placesAt (bypPage e) off).Pairwise fun p q => p.key ≠ q.key := by
  rw [placesAt_blk (blk_byp e he) h1 h2 (by decide) (by decide)]
  exact places_apart tableOk_byp (bypPage e) off

theorem putReg_places (s : State) (a off v : Nat) : s.putReg a off v = s.each (placesAt a off) fun p s => s.putField v p := by
  rw [State.putReg, State.putSome, List.filter_eq_self.mpr fun _ _ => rfl]

/-- A step that writes registers alone keeps what it keeps of them, and all the rest. -/
theorem Kept.of_regs {k : Nat → Prop} {s t : State} (h : RegKept k s t) (ht : t = { s with regs := t.regs }) : Kept k s t := by
  refine ⟨h, ?_⟩
  generalize t.regs = m at ht
  rw [ht]
  rfl

/-- A write of an engine page's register changes its fields alone. -/
theorem putReg_byp (s : State) {e off : Nat} (he : e < 16) (h1 : 0x100 ≤ off) (h2 : off < 0xF00) (v : Nat) :
    ChangesOnly [] (onByp e 0) s (s.putReg (bypPage e) off v)
      ∧ s.putReg (bypPage e) off v = { s with regs := (s.putReg (bypPage e) off v).regs } := by
  obtain ⟨hin, hapart⟩ := placesAt_byp he h1 h2
  obtain ⟨-, hkeep, hregs⟩ := each_putField v _ s hapart
  rw [putReg_places]
  refine ⟨ChangesOnly.of_still (p := fun k => ∀ p ∈ placesAt (bypPage e) off, k ≠ p.key) (.of_regs hkeep hregs) (.inr ?_) (.inr ?_)
    fun k hk p hp hkp => hk ?_, hregs⟩
  · rw [hregs]
  · rw [hregs]
  · have hkey := (hin p hp).2
    have ha := bypPage_aligned e
    refine .inr (.inr ⟨?_, Nat.zero_le _⟩)
    rw [hkp, pageOf, hkey]
    omega

/-- Whether an engine is alive does not lie in its page. -/
theorem bypAlive_congr {s w : State} {e : Nat} (he : e < 16) (hp : w.power = s.power) (hw : ChangesOnly [] (onByp e 0) s w) :
    w.bypAlive e = s.bypAlive e := by
  have hdie := hw.rd (f := CTL_DIE_STATE.state) (a := ctlDiePage (e / 4)) (i := 0) (not_onByp_page _ (by unfold ctlDiePage diePage; omega)
    (by unfold ctlDiePage diePage; omega) (by unfold ctlDiePage bypPage diePage; omega) (by decide) (by decide))
  have hstandby := hw.rd (f := PWR_DIE_STATUS.state) (a := pwrDiePage (e / 4)) (i := 0) (not_onByp_page _ (by unfold pwrDiePage diePage; omega)
    (by unfold pwrDiePage diePage; omega) (by unfold pwrDiePage bypPage diePage; omega) (by decide) (by decide))
  rw [State.bypAlive, hp, hdie, hstandby]
  rfl

theorem instOfPage_byp (e : Nat) (he : e < 16) : instOfPage (bypPage e) = e := by interval_cases e <;> rfl

/-- The write of BYP_CTRL.readback writes the register, and reads the engine back where its cells can be read. -/
theorem bypReadbackWrite_spec {s : State} {who e : Nat} (he : e < 16) (hw : s.writes who (bypPage e) 0x150) :
    ∃ w, ChangesOnly [] (onByp e 0) s w ∧ bypReadbackWrite who e s = if s.bypAlive e then w.readbackNow e else w := by
  obtain ⟨hput, hregs⟩ := putReg_byp s he (off := 0x150) (by decide) (by decide) (s.wordWith BYP_CTRL.readback (bypPage e) 1)
  refine ⟨_, hput, ?_⟩
  have hwrite : bypReadbackWrite who e s = s.writeBlk who (bypPage e) 0x150 (s.wordWith BYP_CTRL.readback (bypPage e) 1) .byp :=
    registerWrite_blk (blk_byp e he) (bypPage_aligned e) (by decide) (by decide) (by decide) hw
  have hof : BYP_CTRL.readback.of (s.wordWith BYP_CTRL.readback (bypPage e) 1) = 1 := of_wordWith s _ _ _ _
  rw [hwrite]
  simp only [State.writeBlk, hof, instOfPage_byp e he, bypAlive_congr he (by rw [hregs]) hput]
  rfl

end Sys2Proof.Machine
end

section
/-! SUPPORT. The end of a hot wait, and BYPASS_ENABLE, BYPASS_RESET and the readbacks as a session sees them (R102, R104, R107 to R109). -/

namespace Sys2Proof.Machine

theorem Waits.mono {c : Instr} {s : State} {n : Nat} {P Q : State → Prop} (h : Waits c s n P) (hq : ∀ u, P u → Q u) : Waits c s n Q := by
  obtain ⟨v, hv, hc⟩ := h
  exact ⟨v, hq v hv, hc⟩

theorem completes_unchanged {c : Instr} {s : State} {f : State → State} (hc : exec c s = .next (s.run f)) (hf : f s.cleared = s.cleared) :
    Completes c s (Unchanged s) :=
  ⟨_, hc, ChangesOnly.run (by rw [hf]; exact ChangesOnly.refl _ _ _)⟩

/-- The end of a hot wait takes the wait away and its command out of its ring. -/
theorem waitExpiry_ends {s : State} {e : Nat} {w : HotWait} (h : 850 ≤ s.rd OPT_ENG_STATUS.temp (engPage e))
    (hw : (s.byp.hot.find? fun y => y.engine == e) = some w) :
    let u := s.run (bypassTemperatureWaitExpiry e)
    u.byp = { s.byp with hot := s.byp.hot.erase w } ∧ Left s u w.ring
      ∧ ChangesOnly [.byp, .mgmt] (fun k => shared k ∨ pageOf k = ringPage w.ring) s u := by
  let v : State := { s.cleared with byp := { s.byp with hot := s.byp.hot.erase w } }
  have hrun : s.run (bypassTemperatureWaitExpiry e) = s.run fun _ => v.complete w.ring stOk 2 0 :=
    State.run_congr (waitExpiry_hot (s := s.cleared) h hw)
  have hk := complete_kept v w.ring stOk 2 0
  dsimp only
  rw [hrun]
  refine ⟨?_, ?_, ChangesOnly.run (ChangesOnly.of_byp (b := { s.byp with hot := s.byp.hot.erase w })
    (ChangesOnly.of_still hk (.inl (by decide)) (.inr (complete_rel _ _ _ _ _)) fun k hn => ?_) (by decide))⟩
  · rw [State.run_byp, hk.byp]
  · exact complete_left v w.ring stOk 2 0
  · rw [shared, not_or, not_or] at hn
    obtain ⟨⟨h1, h2⟩, h3⟩ := hn
    exact ⟨⟨h1, h2⟩, h3⟩

/-- Below 85 °C the end of a hot wait finds the engine's waits queued. -/
theorem waitExpiry_queues {s : State} {e : Nat} (h : s.rd OPT_ENG_STATUS.temp (engPage e) < 850) :
    let u := s.run (bypassTemperatureWaitExpiry e)
    u.byp.hot = s.byp.hot.filter (fun y => y.engine != e) ∧ u.byp.cells = s.byp.cells ∧ u.byp.paths = s.byp.paths
      ∧ (s.switchQueue e).length ≤ (u.switchQueue e).length ∧ u.mem = s.mem := by
  have hgrows := hotCheck_spec (s := s.cleared) h
  rw [← waitExpiry_cool (s := s.cleared) h] at hgrows
  obtain ⟨hqueue, hhot, hcells, hpaths, hmem⟩ := hgrows
  dsimp only
  generalize hu : bypassTemperatureWaitExpiry e s.cleared = u at hqueue hhot hcells hpaths hmem
  rw [State.run_byp, State.run_mem, State.switchQueue, State.switchQueue, State.run_byp, hu]
  exact ⟨hhot, hcells, hpaths, hqueue, hmem⟩

theorem bypAlive_cleared (s : State) (e : Nat) : s.cleared.bypAlive e = s.bypAlive e := by
  unfold State.bypAlive
  rfl

/-- The write of BYP_CTRL.readback reads the engine back, or writes the engine's page alone where its cells cannot be read. -/
theorem bypReadbackWrite_ends {s : State} {who e : Nat} (he : e < 16) (h : s.writes who (bypPage e) 0x150) :
    let u := s.run (bypReadbackWrite who e)
    (s.bypAlive e = true → ReadsBack s u e)
      ∧ (s.bypAlive e = false → u.byp = s.byp ∧ ChangesOnly [.byp, .mgmt] (onPages [bypPage e]) s u) := by
  obtain ⟨w, hw, hf⟩ := bypReadbackWrite_spec (s := s.cleared) he h.cleared
  rw [bypAlive_cleared] at hf
  refine ⟨fun ha => readsBack_of_run he hw (by rw [hf, if_pos ha]), fun ha => ?_⟩
  rw [if_neg (by simp [ha])] at hf
  rw [State.run_congr (g := fun _ => w) hf]
  exact ⟨hw.byp (by decide), ChangesOnly.run (hw.mono (by simp) fun _ hk => onByp_onPages hk)⟩

end Sys2Proof.Machine

open Sys2Proof.Machine

/-- Settles O40: each command as its ring performs it at the front, the readback as a composition of page writes and ports stopped, the end
of a hot wait as the completion of its command. -/
theorem bypassCommandsQueueSwitchings : Obligations.BypassCommandsQueueSwitchings := by
  intro s who r e x eng p q g a b second pair ready cool waiting spent byp queued front joined shown outside framed
  have henables : second → s.enablesSecond r.val e x := fun ⟨h1, h2, h3, h4⟩ => ⟨h1, h2, h3, h4⟩
  have hreads : ∀ {u}, ReadsBack s u eng.val → shown eng.val u ∧ framed eng.val u := fun h =>
    ⟨⟨h.shows.partners, h.shows.cells, h.shows.valid, h.byp⟩, h.down, h.still, h.pieces⟩
  have halone : ∀ {u}, (u.byp = s.byp ∧ s.spends x u) → u.byp = s.byp ∧ spent u := fun ⟨h1, h2, _⟩ => ⟨h1, h2⟩
  refine ⟨fun h1 h2 h3 h4 h5 => ?_, fun h1 h2 h3 h4 h5 => ?_, fun h1 h2 h3 h4 => ?_, fun h1 h2 h3 => ?_, fun h1 h2 => ?_, fun h1 h2 h3 => ?_,
    fun h1 h2 h3 => ?_, fun h1 h2 => ?_, fun h1 h2 => ?_, fun h => ?_, fun h => ?_, fun h w hw => ?_, fun h hw => ?_, fun h => ?_⟩
  · exact (bypassEnable_queues (henables h1) rfl rfl h2 h3 h4 h5).mono fun u ⟨hj, hs⟩ => ⟨⟨hj.queue, hj.switching, hj.queued, hj.rest⟩, hs⟩
  · exact bypassEnable_full (henables h1) rfl rfl h2 h3 h4 h5
  · exact bypassEnable_hot (henables h1) rfl rfl h2 h3 h4
  · exact (bypassEnable_unready (henables h1) rfl rfl h2 h3).mono fun _ => halone
  · exact (bypassEnable_unpaired (henables h1) rfl rfl h2).mono fun _ => halone
  · exact (bypassReset_queues h1 rfl rfl h2 h3).mono fun u ⟨hj, hc⟩ => ⟨⟨hj.queue, hj.switching, hj.queued, hj.rest⟩, hc⟩
  · exact bypassReset_full h1 rfl rfl h2 h3
  · exact bypassReset_parted h1 rfl rfl h2
  · exact ⟨_, rfl, hreads (readsBack_of_run eng.isLt (ChangesOnly.refl _ _ _) (periodicReadback_reads h1 h2))⟩
  · exact completes_unchanged rfl (periodicReadback_idle (s := s.cleared) h)
  · obtain ⟨halive, hdead⟩ := bypReadbackWrite_ends (who := who.val) eng.isLt h
    exact ⟨_, rfl, fun ha => hreads (halive ha), hdead⟩
  · exact ⟨_, rfl, waitExpiry_ends h hw⟩
  · exact completes_unchanged rfl (waitExpiry_idle (s := s.cleared) h hw)
  · exact ⟨_, rfl, waitExpiry_queues h⟩
end

section
/-! SUPPORT. Frames by page: a register field, a counter, an interrupt or an error of a page changes that page, counters and event rings
alone. What an error of a block reports on its page (R439). -/

namespace Sys2Proof.Machine

/-! ### Frames by page -/

section
variable {l : List Piece} {pages : List Nat} (s : State)

theorem wr_onPages (f : Fld) {a : Nat} (v i : Nat) (hp : a ∈ pages) (ha : a % 4096 = 0) (h1 : f.offAt i < 4096) (h2 : f.loAt i < 64) :
    ChangesOnly l (onPages pages) s (s.wr f a v i) :=
  ChangesOnly.wr _ _ _ _ _ (.inr (by rw [(key_place f a i ha h1 h2).1]; exact hp))

theorem count_onPages (a code inst n : Nat) (ha : a % 4096 = 0) : ChangesOnly l (onPages pages) s (s.count a code inst n) :=
  ChangesOnly.of_still (count_kept _ _ _ _ _ ha) (.inr (count_mgmt _ _ _ _ _)) (.inr (count_rel _ _ _ _ _)) fun _ hk h => hk (.inl (.inl h))

theorem not_onPages_noEvent {k : Nat} (hk : ¬onPages pages k) : noEvent k := ⟨fun h => hk (.inl (.inl h)), fun h => hk (.inl (.inr h))⟩

theorem not_onPages_noIrq {a k : Nat} (hp : a ∈ pages) (hk : ¬onPages pages k) : noIrq a k :=
  ⟨not_onPages_noEvent hk, fun h => hk (.inr (h.1 ▸ hp))⟩

theorem not_onPages_noErr {a k : Nat} (hp : a ∈ pages) (hk : ¬onPages pages k) : noErr a k :=
  ⟨not_onPages_noIrq hp hk, fun h => hk (.inr (h.1 ▸ hp))⟩

theorem irq_onPages {a : Nat} (b : Nat) (hm : .mgmt ∈ l) (hp : a ∈ pages) (ha : a % 4096 = 0) : ChangesOnly l (onPages pages) s (s.irq a b) :=
  ChangesOnly.of_still (irq_kept _ _ _ ha) (.inl hm) (.inr (irq_rel _ _ _)) fun _ => not_onPages_noIrq hp

end

/-! ### What an error of a block reports -/

section
variable (s : State) (e : ErrRec) {a : Nat} (b event sev d0 ctr inst : Nat)

/-- The record and the count, latch and interrupt of the page, before the alarm and the counter event (R439). -/
def State.hwShown (a b : Nat) : State :=
  ((s.errRecord e).pageError a e.kind 0xFF (s.errIndex e.die % 2 ^ 24)).iff (b != 0) fun s => s.irq a b

/-- What follows the page's interrupt is events and counters. -/
theorem hwShown_kept (ha : a % 4096 = 0) : Kept noEvent (s.hwShown e a b) (s.hwError e a b event sev d0 ctr inst) := by
  unfold State.hwError State.hwShown
  dsimp only
  refine Kept.trans ?_ (Kept.iff _ _ ((count_kept _ _ _ _ _ ha).mono fun _ h => h.ctr))
  exact Kept.iff _ _ (alarm_kept _ _ _ _ _ _)

/-- After the record an error changes its page's interrupt and error registers, events and counters. -/
theorem hwError_after_record (ha : a % 4096 = 0) : Kept (noErr a) (s.errRecord e) (s.hwError e a b event sev d0 ctr inst) := by
  refine Kept.trans ?_ ((hwShown_kept s e b event sev d0 ctr inst ha).mono fun _ h => h.event)
  exact (pageError_kept _ _ _ _ _ ha).trans (Kept.iff _ _ ((irq_kept _ _ _ ha).mono fun _ h => h.irq))

/-- The page of a die counts the error. -/
theorem hwError_count (he : e.die < 4) (ha : a % 4096 = 0) (hlt : a < 0xF000000) :
    (s.hwError e a b event sev d0 ctr inst).rd PG_ERR_COUNT.count a = min (s.rd PG_ERR_COUNT.count a + 1) (2 ^ 48 - 1) := by
  obtain ⟨hpage, hoff⟩ := key_place PG_ERR_COUNT.count a 0 ha (by decide) (by decide)
  have hevent : noEvent (PG_ERR_COUNT.count.key a 0) := pkg_noEvent _ a 0 ha (.inl (by omega)) (by decide) (by decide)
  have hirq : noIrq a (PG_ERR_COUNT.count.key a 0) := ⟨hevent, fun h => absurd (hoff.symm.trans h.2) (by decide)⟩
  have hrec : ¬isRec (PG_ERR_COUNT.count.key a 0) := fun h => by
    have := hpage.symm.trans h.1
    rw [this] at hlt
    exact absurd hlt (by decide)
  rw [(hwShown_kept s e b event sev d0 ctr inst ha).rd hevent, State.hwShown,
    State.iff_keeps (fun t => t.rd PG_ERR_COUNT.count a) (fun s => s.irq a b) _ _ ((irq_kept _ _ _ ha).rd hirq),
    (pageError_spec _ a e.kind 0xFF _ ha (.inl (by omega))).1, (errRecord_kept s e he).rd ⟨hevent.ctr, hrec⟩]

/-- The page of a die raises the interrupt bit that the error names. -/
theorem hwError_irq (ha : a % 4096 = 0) (hlt : a < 0xF000000) (h4 : 4 ≤ b) (h64 : b < 64) :
    bit ((s.hwError e a b event sev d0 ctr inst).rd PG_IRQ_RAW.block_irq a) (b - 4) = true := by
  have hevent : noEvent (PG_IRQ_RAW.block_irq.key a 0) := pkg_noEvent _ a 0 ha (.inl (by omega)) (by decide) (by decide)
  have hb : (b != 0) = true := bne_iff_ne.mpr (by omega)
  rw [(hwShown_kept s e b event sev d0 ctr inst ha).rd hevent, State.hwShown, hb, State.iff_true, irq_raw _ _ _ hevent]
  exact bit_lor _ _ _ (by omega)

/-- Where the index of a die's records stands. -/
theorem producer_place {d : Nat} (hd : d < 4) : pageOf (CTL_ERR_PRODUCER.producer.key ctlPkgPage d) = ctlPkgPage
    ∧ offOf (CTL_ERR_PRODUCER.producer.key ctlPkgPage d) = 0x110 + 8 * d ∧ noEvent (CTL_ERR_PRODUCER.producer.key ctlPkgPage d) := by
  have hoff : CTL_ERR_PRODUCER.producer.offAt d = 0x110 + 8 * d ∧ CTL_ERR_PRODUCER.producer.loAt d = 0 := by
    simp [Fld.offAt, Fld.loAt, CTL_ERR_PRODUCER.producer]
  obtain ⟨hp, ho⟩ := key_place CTL_ERR_PRODUCER.producer ctlPkgPage d ctlPkgPage_aligned (by omega) (by omega)
  exact ⟨hp, ho.trans hoff.1, pkg_noEvent _ _ _ ctlPkgPage_aligned (.inl (by decide)) (by omega) (by omega)⟩

/-- An error takes the next index of its die's records, unless that die's LPDDR6 is out of use (R436). -/
theorem hwError_errIndex (he : e.die < 4) (ha : a % 4096 = 0) : (s.hwError e a b event sev d0 ctr inst).errIndex e.die
    = if bit s.boot.lpUnused e.die then s.errIndex e.die else (s.errIndex e.die + 1) % 2 ^ 62 := by
  cases hu : bit s.boot.lpUnused e.die
  · rw [if_neg (by decide)]
    exact hwError_producer s e a b event sev d0 ctr inst he ha hu
  · have hsame : s.errRecord e = s := if_pos hu
    obtain ⟨-, ho, hevent⟩ := producer_place he
    have hkey : noErr a (CTL_ERR_PRODUCER.producer.key ctlPkgPage e.die) :=
      ⟨⟨hevent, fun h => by have := h.2; omega⟩, fun h => by have := h.2; omega⟩
    have hkept := hwError_after_record s e b event sev d0 ctr inst ha
    rw [hsame] at hkept
    exact hkept.rd hkey

end

end Sys2Proof.Machine
end

section
/-! SUPPORT. A lane group of the die mesh that fails (R37): the two ends of a link, what is marked there, and what is reported. -/

namespace Sys2Proof.Machine

theorem mshPage_aligned (d : Nat) : mshPage d % 4096 = 0 := by unfold mshPage diePage; omega
theorem mshPage_lt {d : Nat} (hd : d < 4) : mshPage d < 0xF000000 := by unfold mshPage diePage; omega
theorem mshPage_ne {d e : Nat} (h : d ≠ e) : mshPage d ≠ mshPage e := by unfold mshPage diePage; omega

/-- The peer of a link is another die. -/
theorem meshPeer_ne (d i : Nat) : d ≠ meshPeer d i := by unfold meshPeer; split_ifs <;> omega
theorem meshPeer_lt {d i : Nat} (hi : i < 3) : meshPeer d i < 4 := by unfold meshPeer; split_ifs <;> omega
theorem meshLink_lt {d e : Nat} (hd : d < 4) (he : e < 4) : meshLink d e < 3 := by unfold meshLink; split_ifs <;> omega

/-- The fields of a mesh link, which is one register. -/
structure Fld.OfLink (f : Fld) : Prop where
  off : f.off = 0x100
  stride : f.stride = 8
  per : f.per = 1
  step : f.step = 0
  lo : f.lo < 64

namespace Fld.OfLink

variable {f g : Fld} {d e i j : Nat}

theorem place (h : f.OfLink) (i : Nat) : f.offAt i = 0x100 + 8 * i ∧ f.loAt i = f.lo := by
  obtain ⟨hoff, hstride, hper, hstep, -⟩ := h
  rw [Fld.offAt, Fld.loAt, hoff, hstride, hper, hstep, Nat.div_one]
  omega

/-- Where a field of a link lies. -/
theorem key (hf : f.OfLink) (d : Nat) (hi : i < 3) : pageOf (f.key (mshPage d) i) = mshPage d ∧ offOf (f.key (mshPage d) i) = 0x100 + 8 * i := by
  obtain ⟨hoff, hlo⟩ := hf.place i
  have := hf.lo
  obtain ⟨hp, ho⟩ := key_place f _ i (mshPage_aligned d) (by omega) (by omega)
  exact ⟨hp, ho.trans hoff⟩

/-- Two fields of one link lie apart where their bits do. -/
theorem rd_wr_ne (hf : f.OfLink) (hg : g.OfLink) (s : State) (v : Nat) (h : f.lo ≠ g.lo) :
    (s.wr g (mshPage d) v i).rd f (mshPage d) i = s.rd f (mshPage d) i := by
  obtain ⟨hfo, hfl⟩ := hf.place i
  obtain ⟨hgo, hgl⟩ := hg.place i
  exact State.rd_wr_ne _ _ (key_ne _ _ _ _ _ (by omega))

/-- Links of two dies lie apart. -/
theorem rd_wr_other (hf : f.OfLink) (hg : g.OfLink) (s : State) (v : Nat) (h : d ≠ e) (hi : i < 3) (hj : j < 3) :
    (s.wr g (mshPage e) v j).rd f (mshPage d) i = s.rd f (mshPage d) i := by
  obtain ⟨hfo, hfl⟩ := hf.place i
  obtain ⟨hgo, hgl⟩ := hg.place j
  have := hf.lo
  have := hg.lo
  exact State.rd_wr_ne _ _ (page_ne _ _ _ _ _ _ (mshPage_aligned d) (mshPage_aligned e) (mshPage_ne h) (by omega) (by omega) (by omega) (by omega))

/-- An error of any block leaves the links as they are. -/
theorem noHw (hf : f.OfLink) (a : Nat) (hd : d < 4) (hi : i < 3) : noHw a (f.key (mshPage d) i) := by
  obtain ⟨ho, hl⟩ := hf.place i
  have := hf.lo
  exact low_noHw f _ a i (mshPage_aligned d) (mshPage_lt hd) (by omega) (by omega)

end Fld.OfLink

theorem rxFailed_ofLink : MSH_LINK.rx_failed.OfLink := ⟨rfl, rfl, rfl, rfl, by decide⟩
theorem txFailed_ofLink : MSH_LINK.tx_failed.OfLink := ⟨rfl, rfl, rfl, rfl, by decide⟩
theorem rxTbps_ofLink : MSH_LINK.rx_tbps.OfLink := ⟨rfl, rfl, rfl, rfl, by decide⟩
theorem txTbps_ofLink : MSH_LINK.tx_tbps.OfLink := ⟨rfl, rfl, rfl, rfl, by decide⟩

/-! ### The steps of a failure -/

/-- The lane groups `m` of the direction into link `i` of die `d`, out of link `j` of die `e`, are marked failed and its rate follows. -/
def State.markLanes (s : State) (d i e j m : Nat) : State :=
  let s := (s.wr MSH_LINK.rx_failed (mshPage d) m i).wr MSH_LINK.rx_tbps (mshPage d) (meshRate m) i
  (s.wr MSH_LINK.tx_failed (mshPage e) m j).wr MSH_LINK.tx_tbps (mshPage e) (meshRate m) j

/-- The peer counts the flits of each pool that it sends again. -/
def State.countResent (s : State) (d e : Nat) (flits : List Nat) : State :=
  s.each (List.range 4) fun k s => s.iff (flits.getD k 0 != 0) fun s => s.count (mshPage e) 0x80 (4 * d + k) (flits.getD k 0)

/-- What the failure of lane groups `m` into link `i` of die `d` marks and counts at the link's two ends. -/
def State.linkFails (s : State) (d i m : Nat) (flits : List Nat) : State :=
  (s.markLanes d i (meshPeer d i) (meshLink (meshPeer d i) d) m).countResent d (meshPeer d i) flits

/-- The record of a lane group's failure: correctable where it takes the spare. -/
def laneFailure (d g : Nat) (first : Bool) : ErrRec :=
  { ErrRec.of d (if first then 0x0107 else 0x0108) with memory := 10, uncorrectable := !first, lane := g }

/-- Lane group `g` fails beside the groups `old`: what is marked, counted and reported. -/
def State.laneFails (s : State) (d i g old : Nat) (flits : List Nat) : State :=
  let first := old == 0
  (s.linkFails d i (Nat.lor old (2 ^ g)) flits).hwError (laneFailure d g first) (mshPage d) (if first then 4 else 5)
    (if first then 0x0030 else 0x0031) (if first then 0 else 3) (10 + d * 256) (if first then 0x81 else 0xFFFF) (4 * meshPeer d i)

theorem meshLaneGroupFail_failed {s : State} {d i g : Nat} (flits : List Nat) (h : bit (s.rd MSH_LINK.rx_failed (mshPage d) i) g = true) :
    meshLaneGroupFail d i g flits s = s := if_pos h

theorem meshLaneGroupFail_fails {s : State} {d i g : Nat} (flits : List Nat) (h : bit (s.rd MSH_LINK.rx_failed (mshPage d) i) g = false) :
    meshLaneGroupFail d i g flits s = s.laneFails d i g (s.rd MSH_LINK.rx_failed (mshPage d) i) flits := if_neg (by simp [h])

section
variable (s : State) {d i e j m : Nat}

/-- The link at the receiving die reads what was marked. -/
theorem markLanes_rx (h : d ≠ e) (hi : i < 3) (hj : j < 3) : (s.markLanes d i e j m).rd MSH_LINK.rx_failed (mshPage d) i = m % 256
    ∧ (s.markLanes d i e j m).rd MSH_LINK.rx_tbps (mshPage d) i = meshRate m % 256 := by
  unfold State.markLanes
  dsimp only
  rw [rxFailed_ofLink.rd_wr_other txTbps_ofLink _ _ h hi hj, rxFailed_ofLink.rd_wr_other txFailed_ofLink _ _ h hi hj,
    rxFailed_ofLink.rd_wr_ne rxTbps_ofLink _ _ (by decide), rxTbps_ofLink.rd_wr_other txTbps_ofLink _ _ h hi hj,
    rxTbps_ofLink.rd_wr_other txFailed_ofLink _ _ h hi hj]
  exact ⟨State.rd_wr_same _ _ _ _ _, State.rd_wr_same _ _ _ _ _⟩

/-- So does the link at the sending die. -/
theorem markLanes_tx : (s.markLanes d i e j m).rd MSH_LINK.tx_failed (mshPage e) j = m % 256
    ∧ (s.markLanes d i e j m).rd MSH_LINK.tx_tbps (mshPage e) j = meshRate m % 256 := by
  unfold State.markLanes
  dsimp only
  rw [txFailed_ofLink.rd_wr_ne txTbps_ofLink _ _ (by decide)]
  exact ⟨State.rd_wr_same _ _ _ _ _, State.rd_wr_same _ _ _ _ _⟩

end

/-- Registers of the links of dies `d` and `e`. -/
def isLink (d e k : Nat) : Prop := pageOf k ∈ [mshPage d, mshPage e] ∧ 0x100 ≤ offOf k

theorem countResent_kept (s : State) (d e : Nat) (flits : List Nat) : Kept noCtr s (s.countResent d e flits) := by
  unfold State.countResent
  refine Kept.each _ _ (fun k _ t => ?_) s
  exact Kept.iff _ _ (count_kept _ _ _ _ _ (mshPage_aligned e))

/-- A failure marks and counts at the two ends of the link, and changes nothing else. -/
theorem linkFails_kept (s : State) {d i : Nat} (m : Nat) (flits : List Nat) (hd : d < 4) (hi : i < 3) :
    Kept (fun k => noCtr k ∧ ¬isLink d (meshPeer d i) k) s (s.linkFails d i m flits) := by
  have hj : meshLink (meshPeer d i) d < 3 := meshLink_lt (meshPeer_lt hi) hd
  have hlink : ∀ {f : Fld} (c : Nat) {x : Nat}, f.OfLink → c ∈ [d, meshPeer d i] → x < 3 → ∀ t v,
      Kept (fun k => noCtr k ∧ ¬isLink d (meshPeer d i) k) t (t.wr f (mshPage c) v x) := fun {f} c {x} hf hc hx t v => by
    obtain ⟨hp, ho⟩ := hf.key c hx
    exact Kept.wr _ _ _ _ _ fun h => h.2 ⟨by rw [hp]; exact List.mem_map_of_mem (f := mshPage) hc, by omega⟩
  refine Kept.trans ?_ ((countResent_kept _ _ _ _).mono fun _ h => h.1)
  refine Kept.trans ?_ (hlink (meshPeer d i) txTbps_ofLink (by simp) hj _ _)
  refine Kept.trans ?_ (hlink (meshPeer d i) txFailed_ofLink (by simp) hj _ _)
  exact (hlink d rxFailed_ofLink (by simp) hi _ _).trans (hlink d rxTbps_ofLink (by simp) hi _ _)

/-! ### What a failure comes to -/

section
variable (s : State) {d i : Nat} (g old : Nat) (flits : List Nat) (hd : d < 4) (hi : i < 3)
include hd

theorem laneFails_link {f : Fld} (hf : f.OfLink) {c x : Nat} (hc : c < 4) (hx : x < 3) : (s.laneFails d i g old flits).rd f (mshPage c) x
    = (s.markLanes d i (meshPeer d i) (meshLink (meshPeer d i) d) (Nat.lor old (2 ^ g))).rd f (mshPage c) x := by
  have hkey := hf.noHw (mshPage d) hc hx
  exact ((hwError_kept _ _ _ _ _ _ _ _ _ hd (mshPage_aligned d)).rd hkey).trans ((countResent_kept _ _ _ _).rd hkey.1.event.ctr)

/-- The first failure is correctable, each further one is not. -/
theorem laneFails_irq : bit ((s.laneFails d i g old flits).rd PG_IRQ_RAW.block_irq (mshPage d)) (if old = 0 then 0 else 1) = true := by
  unfold State.laneFails
  dsimp only
  by_cases h : old = 0
  · subst h
    exact hwError_irq _ _ 4 _ _ _ _ _ (mshPage_aligned d) (mshPage_lt hd) (by decide) (by decide)
  · rw [if_neg h, beq_false_of_ne h]
    exact hwError_irq _ _ 5 _ _ _ _ _ (mshPage_aligned d) (mshPage_lt hd) (by decide) (by decide)

include hi

/-- The lane groups and the rate read the same at both ends. -/
theorem laneFails_marks (hm : Nat.lor old (2 ^ g) < 256) :
    let e := meshPeer d i
    let t := s.laneFails d i g old flits
    t.rd MSH_LINK.rx_failed (mshPage d) i = Nat.lor old (2 ^ g) ∧ t.rd MSH_LINK.tx_failed (mshPage e) (meshLink e d) = Nat.lor old (2 ^ g)
      ∧ t.rd MSH_LINK.rx_tbps (mshPage d) i = meshRate (Nat.lor old (2 ^ g))
      ∧ t.rd MSH_LINK.tx_tbps (mshPage e) (meshLink e d) = meshRate (Nat.lor old (2 ^ g)) := by
  have he : meshPeer d i < 4 := meshPeer_lt hi
  have hj : meshLink (meshPeer d i) d < 3 := meshLink_lt he hd
  have hr : meshRate (Nat.lor old (2 ^ g)) < 256 := by unfold meshRate; omega
  obtain ⟨hrx, hrxRate⟩ := markLanes_rx s (m := Nat.lor old (2 ^ g)) (meshPeer_ne d i) hi hj
  obtain ⟨htx, htxRate⟩ := markLanes_tx s (d := d) (i := i) (e := meshPeer d i) (j := meshLink (meshPeer d i) d) (m := Nat.lor old (2 ^ g))
  rw [Nat.mod_eq_of_lt hm] at hrx htx
  rw [Nat.mod_eq_of_lt hr] at hrxRate htxRate
  exact ⟨(laneFails_link s g old flits hd rxFailed_ofLink hd hi).trans hrx, (laneFails_link s g old flits hd txFailed_ofLink he hj).trans htx,
    (laneFails_link s g old flits hd rxTbps_ofLink hd hi).trans hrxRate, (laneFails_link s g old flits hd txTbps_ofLink he hj).trans htxRate⟩

theorem laneFails_count : (s.laneFails d i g old flits).rd PG_ERR_COUNT.count (mshPage d)
    = min (s.rd PG_ERR_COUNT.count (mshPage d) + 1) (2 ^ 48 - 1) := by
  obtain ⟨-, ho⟩ := key_place PG_ERR_COUNT.count (mshPage d) 0 (mshPage_aligned d) (by decide) (by decide)
  have hoff : PG_ERR_COUNT.count.offAt 0 < 0x100 := by decide
  unfold State.laneFails
  dsimp only
  rw [hwError_count _ _ _ _ _ _ _ _ hd (mshPage_aligned d) (mshPage_lt hd),
    (linkFails_kept s _ flits hd hi).rd ⟨fun h => by have := h.1; omega, fun h => by have := h.2; omega⟩]

theorem laneFails_errIndex : (s.laneFails d i g old flits).errIndex d
    = if bit s.boot.lpUnused d then s.errIndex d else (s.errIndex d + 1) % 2 ^ 62 := by
  have hkept := linkFails_kept s (Nat.lor old (2 ^ g)) flits hd hi
  obtain ⟨hp, -, hevent⟩ := producer_place hd
  have hindex : (s.linkFails d i (Nat.lor old (2 ^ g)) flits).errIndex d = s.errIndex d := hkept.rd ⟨hevent.ctr, fun h => by
    have hpages := h.1
    have hpkg : 0xF000000 ≤ ctlPkgPage := by decide
    have h1 := mshPage_lt hd
    have h2 := mshPage_lt (meshPeer_lt (d := d) hi)
    rw [hp, List.mem_pair] at hpages
    omega⟩
  rw [← hindex, ← hkept.boot]
  exact hwError_errIndex _ (laneFailure d g (old == 0)) _ _ _ _ _ _ hd (mshPage_aligned d)

theorem laneFails_only : ChangesOnly [.mgmt, .rel] (onPages [mshPage d, mshPage (meshPeer d i), ctlPkgPage]) s (s.laneFails d i g old flits) := by
  refine ChangesOnly.of_still (p := fun k => noHw (mshPage d) k ∧ ¬isLink d (meshPeer d i) k) ?_ (.inl (by decide)) (.inl (by decide)) fun k hk => ?_
  · exact ((linkFails_kept s _ flits hd hi).mono fun _ h => ⟨h.1.1.event.ctr, h.2⟩).trans
      ((hwError_kept _ _ _ _ _ _ _ _ _ hd (mshPage_aligned d)).mono fun _ h => h.1)
  · refine ⟨⟨not_onPages_noErr (.head _) hk, fun h => hk (.inr ?_)⟩, fun h => hk (.inr ?_)⟩
    · exact h.1 ▸ .tail _ (.tail _ (.head _))
    · exact List.mem_append_left [ctlPkgPage] h.1

end

end Sys2Proof.Machine

open Sys2Proof.Machine

/-- Settles O27: a failure marks both ends of the link, and what follows is an error of the die's mesh page. -/
theorem meshLaneGroupsFail : Obligations.MeshLaneGroupsFail := by
  intro s d i g flits hflits a e b j old m rate
  have hexec : exec (.meshLaneGroupFail d i g flits) s = .next (s.run (meshLaneGroupFail d.val i.val g.val flits)) := by
    show s.commandIf (flits.length == 4) _ = _
    rw [hflits]
    rfl
  have hm : m < 2 ^ 8 := Nat.or_lt_two_pow (s.rd_lt MSH_LINK.rx_failed a i.val) (Nat.pow_lt_pow_right (by decide) g.isLt)
  refine ⟨fun h => completes_unchanged hexec (meshLaneGroupFail_failed flits h), fun h => ⟨_, hexec, ?_⟩⟩
  have hfails : meshLaneGroupFail d.val i.val g.val flits s.cleared = s.cleared.laneFails d.val i.val g.val old flits :=
    meshLaneGroupFail_fails flits h
  rw [State.run_congr (g := fun _ => s.cleared.laneFails d.val i.val g.val old flits) hfails]
  obtain ⟨hrx, htx, hrxRate, htxRate⟩ := laneFails_marks s.cleared g.val old flits d.isLt i.isLt hm
  exact ⟨hrx, htx, hrxRate, htxRate, laneFails_count s.cleared g.val old flits d.isLt i.isLt,
    laneFails_irq s.cleared g.val old flits d.isLt, laneFails_errIndex s.cleared g.val old flits d.isLt i.isLt,
    ChangesOnly.run (laneFails_only s.cleared g.val old flits d.isLt i.isLt)⟩
end

section
/-! SUPPORT. The clock pages of the dies (R40, R45): what a loop over them leaves in each, and the references SYSCLK and TIME_REF. -/

namespace Sys2Proof.Machine

/-! ### A loop over the dies' clock pages -/

/-- What every step of a loop brings about for its own element and keeps for the others holds of all elements in the end. -/
theorem State.each_settles {α : Type} {Q : α → State → Prop} (f : α → State → State) (l : List α) (hself : ∀ x ∈ l, ∀ s, Q x (f x s))
    (hother : ∀ x ∈ l, ∀ y, y ≠ x → ∀ s, Q y s → Q y (f x s)) (s : State) : ∀ x ∈ l, Q x (s.each l f) := by
  refine State.each_reaches (R := fun s t => ∀ y, Q y s → Q y t) (fun _ _ h => h) (fun h k y hy => k y (h y hy)) f l (fun x hx t => ?_)
    (fun x _ s t h hr => hr x h) s
  refine ⟨fun y hy => ?_, hself x hx t⟩
  by_cases h : y = x
  · rw [h]; exact hself x hx t
  · exact hother x hx y h t hy

/-- A field of a page that a frame does not list stays, away from the counters and the event rings. -/
theorem not_onPages_key (f : Fld) {a : Nat} (i : Nat) {pages : List Nat} (ha : a % 4096 = 0) (hlt : a < 0xF010000) (hp : a ∉ pages)
    (h1 : f.offAt i < 0xF00) (h2 : f.loAt i < 64) : ¬onPages pages (f.key a i) := by
  obtain ⟨hpage, -⟩ := key_place f a i ha (by omega) h2
  obtain ⟨hctr, hevr⟩ := pkg_noEvent f a i ha (.inl hlt) h1 h2
  rintro ((h | h) | h)
  · exact hctr h
  · exact hevr h
  · exact hp (hpage ▸ h)

theorem clkPage_lt {d : Nat} (hd : d < 4) : clkPage d < 0xF000000 := by unfold clkPage diePage; omega
theorem clkPage_ne {d e : Nat} (h : d ≠ e) : clkPage d ≠ clkPage e := by unfold clkPage diePage; omega

section
variable {g : Nat → State → State} (hg : ∀ d s, ChangesOnly [] (onPages [clkPage d]) s (g d s)) (s : State)
include hg

theorem clkLoop_only {l : List Piece} : ChangesOnly l (onPages (diePagesOf clkPage)) s (s.each (List.range 4) g) := by
  refine ChangesOnly.each _ _ (fun d hd t => (hg d t).mono (List.nil_subset _) fun k hk => ?_) s
  rcases hk with hk | hk
  · exact .inl hk
  · exact .inr (List.mem_singleton.mp hk ▸ List.mem_map_of_mem hd)

/-- A field that each step leaves at a value reads it on every die in the end. -/
theorem clkLoop_rd {f : Fld} {v : Nat} (h1 : f.offAt 0 < 0xF00) (h2 : f.loAt 0 < 64) (hv : ∀ d s, (g d s).rd f (clkPage d) = v) {k : Nat}
    (hk : k < 4) : (s.each (List.range 4) g).rd f (clkPage k) = v := by
  refine State.each_settles (Q := fun d t => d < 4 → t.rd f (clkPage d) = v) g (List.range 4) (fun d _ t _ => hv d t)
    (fun d _ e hne t ht he => ?_) s k (List.mem_range.mpr hk) hk
  refine ((hg d t).rd (not_onPages_key f 0 (clkPage_aligned e) ?_ ?_ h1 h2)).trans (ht he)
  · exact (clkPage_lt he).trans (by decide)
  · rw [List.mem_singleton]; exact clkPage_ne hne

end

/-- A field of a clock page, written. -/
theorem clk_wr (s : State) (f : Fld) (d v : Nat) (h1 : f.offAt 0 < 4096) (h2 : f.loAt 0 < 64) :
    ChangesOnly [] (onPages [clkPage d]) s (s.wr f (clkPage d) v) := wr_onPages s f v 0 (.head _) (clkPage_aligned d) h1 h2

theorem clk_count (s : State) (d code : Nat) : ChangesOnly [] (onPages [clkPage d]) s (s.count (clkPage d) code) :=
  count_onPages s _ _ _ _ (clkPage_aligned d)

/-- Counting leaves the fields of a clock page. -/
theorem rd_clk_count (s : State) (f : Fld) (d code : Nat) (h1 : f.offAt 0 < 0xF00) (h2 : f.loAt 0 < 64) :
    (s.count (clkPage d) code).rd f (clkPage d) = s.rd f (clkPage d) := by
  obtain ⟨-, ho⟩ := key_place f (clkPage d) 0 (clkPage_aligned d) (by omega) h2
  exact (count_kept _ _ _ _ _ (clkPage_aligned d)).rd fun h => by have := h.1; omega

/-- Two fields of a clock page lie apart where their bits do. -/
theorem rd_clk_wr_ne (s : State) {f g : Fld} {d : Nat} (v : Nat) (h : f.offAt 0 * 64 + f.loAt 0 ≠ g.offAt 0 * 64 + g.loAt 0) :
    (s.wr g (clkPage d) v).rd f (clkPage d) = s.rd f (clkPage d) := State.rd_wr_ne _ _ (key_ne _ _ _ _ _ h)

/-! ### Pieces of the state beside the registers -/

theorem setPower_only {l : List Piece} {q : Nat → Prop} (s : State) (w : Power) (h : .power ∈ l) : ChangesOnly l q s { s with power := w } := by
  refine ⟨rfl, rfl, fun y hy => ?_, fun _ _ _ => rfl⟩
  cases y with
  | power => exact absurd h hy
  | banks => exact ⟨rfl, rfl, rfl⟩
  | _ => rfl

theorem setTime_only {l : List Piece} {q : Nat → Prop} (s : State) (w : Time) (h : .time ∈ l) : ChangesOnly l q s { s with time := w } := by
  refine ⟨rfl, rfl, fun y hy => ?_, fun _ _ _ => rfl⟩
  cases y with
  | time => exact absurd h hy
  | banks => exact ⟨rfl, rfl, rfl⟩
  | _ => rfl

/-! ### SYSCLK -/

/-- SYSCLK is lost, and returns, on the page of die `d`. -/
def sysclkAway (d : Nat) (s : State) : State := (s.wr CLK_REF_STATUS.sysclk_present (clkPage d) 0).count (clkPage d) evRefLoss
def sysclkBack (d : Nat) (s : State) : State := (s.wr CLK_REF_STATUS.sysclk_present (clkPage d) 1).wr CLK_REF_STATUS.sysclk_lost (clkPage d) 1

/-- Forwarding stops. -/
def State.stopForwarding (s : State) : State := { s with power := { s.power with stopped := true } }

theorem stopForwarding_rd (s : State) (f : Fld) (a : Nat) : s.stopForwarding.rd f a = s.rd f a := rfl

theorem sysclkLoss_away {s : State} (h : s.flag CLK_REF_STATUS.sysclk_present (clkPage 0) = false) : sysclkLoss s = s := if_pos h
theorem sysclkReturn_present {s : State} (h : s.flag CLK_REF_STATUS.sysclk_present (clkPage 0) = true) : sysclkReturn s = s := if_pos h

theorem sysclkLoss_eq {s : State} (h : s.flag CLK_REF_STATUS.sysclk_present (clkPage 0) = true) :
    sysclkLoss s = ((s.each (List.range 4) sysclkAway).fault PWR_FAULT.sysclk_loss 1).stopForwarding := by
  unfold sysclkLoss sysclkAway State.stopForwarding
  rw [if_neg (by simp [h])]

theorem sysclkReturn_eq {s : State} (h : s.flag CLK_REF_STATUS.sysclk_present (clkPage 0) = false) :
    sysclkReturn s = (s.each (List.range 4) sysclkBack).causeEnds 1 := if_neg (by simp [h])

theorem sysclkAway_only (d : Nat) (s : State) : ChangesOnly [] (onPages [clkPage d]) s (sysclkAway d s) :=
  (clk_wr _ _ _ _ (by decide) (by decide)).trans (clk_count _ _ _)

theorem sysclkBack_only (d : Nat) (s : State) : ChangesOnly [] (onPages [clkPage d]) s (sysclkBack d s) :=
  (clk_wr _ _ _ _ (by decide) (by decide)).trans (clk_wr _ _ _ _ (by decide) (by decide))

theorem pwrPkgPage_aligned : pwrPkgPage % 4096 = 0 := by decide

/-- A fault changes its page, the interrupt that reports it and the causes that stand. -/
theorem fault_only (s : State) (f : Fld) (b : Nat) (h1 : f.offAt 0 < 4096) (h2 : f.loAt 0 < 64) :
    ChangesOnly [.power, .mgmt] (onPages [pwrPkgPage]) s (s.fault f b) := by
  unfold State.fault
  dsimp only
  refine ChangesOnly.trans ?_ (ChangesOnly.iff _ _ (irq_onPages _ 5 (by decide) (.head _) pwrPkgPage_aligned))
  exact (wr_onPages s f 1 0 (.head _) pwrPkgPage_aligned h1 h2).trans (setPower_only _ _ (by decide))

/-- What the loss of SYSCLK leaves. -/
theorem sysclkLoss_spec {s : State} (h : s.flag CLK_REF_STATUS.sysclk_present (clkPage 0) = true) :
    (∀ k, k < 4 → (sysclkLoss s).rd CLK_REF_STATUS.sysclk_present (clkPage k) = 0) ∧ (sysclkLoss s).rd PWR_FAULT.sysclk_loss pwrPkgPage = 1
      ∧ (sysclkLoss s).power.stopped = true
      ∧ ChangesOnly [.power, .mgmt] (onPages (pwrPkgPage :: diePagesOf clkPage)) s (sysclkLoss s) := by
  rw [sysclkLoss_eq h]
  have hloop := clkLoop_only (l := [.power, .mgmt]) sysclkAway_only s
  have hfault := fault_only (s.each (List.range 4) sysclkAway) PWR_FAULT.sysclk_loss 1 (by decide) (by decide)
  rw [stopForwarding_rd]
  refine ⟨fun k hk => ?_, fault_same _ _ _ (by decide), rfl, ?_⟩
  · rw [stopForwarding_rd]
    refine (hfault.rd (not_onPages_key _ 0 (clkPage_aligned k) ?_ ?_ (by decide) (by decide))).trans
      (clkLoop_rd sysclkAway_only s (by decide) (by decide) (fun d t => ?_) hk)
    · exact (clkPage_lt hk).trans (by decide)
    · rw [List.mem_singleton]; exact Nat.ne_of_lt ((clkPage_lt hk).trans (by decide))
    · exact (rd_clk_count _ _ _ _ (by decide) (by decide)).trans (State.rd_wr_same _ _ _ _ _)
  · refine ((hloop.mono (fun _ h => h) fun k hk => ?_).trans (hfault.mono (fun _ h => h) fun k hk => ?_)).trans
      (setPower_only _ { State.power _ with stopped := true } (by decide))
    · exact hk.imp_right (List.mem_cons_of_mem _)
    · exact hk.imp_right fun h => by rw [List.mem_singleton.mp h]; exact .head _

/-- What the return of SYSCLK leaves. -/
theorem sysclkReturn_spec {s : State} (h : s.flag CLK_REF_STATUS.sysclk_present (clkPage 0) = false) :
    (∀ k, k < 4 → (sysclkReturn s).rd CLK_REF_STATUS.sysclk_present (clkPage k) = 1
        ∧ (sysclkReturn s).rd CLK_REF_STATUS.sysclk_lost (clkPage k) = 1)
      ∧ (sysclkReturn s).power.stopped = s.power.stopped ∧ ChangesOnly [.power] (onPages (diePagesOf clkPage)) s (sysclkReturn s) := by
  rw [sysclkReturn_eq h]
  have hloop := clkLoop_only (l := []) sysclkBack_only s
  have hpower : { (s.each (List.range 4) sysclkBack).power with faultN := s.power.faultN } = s.power := hloop.pieces .power (by decide)
  refine ⟨fun k hk => ⟨?_, ?_⟩, (congrArg Power.stopped hpower :), ?_⟩
  · exact clkLoop_rd sysclkBack_only s (by decide) (by decide) (fun d t => (rd_clk_wr_ne _ _ (by decide)).trans (State.rd_wr_same _ _ _ _ _)) hk
  · exact clkLoop_rd sysclkBack_only s (by decide) (by decide) (fun d t => State.rd_wr_same _ _ _ _ _) hk
  · exact (hloop.mono (List.nil_subset _) fun _ h => h).trans (setPower_only _ _ (by decide))

/-! ### TIME_REF -/

/-- TIME_REF is lost, and returns, on the page of die `d`. -/
def timeRefAway (d : Nat) (s : State) : State :=
  (((s.wr CLK_REF_STATUS.time_ref_present (clkPage d) 0).wr CLK_REF_STATUS.time_ref_lost (clkPage d) 1).wr
    CLK_REF_STATUS.time_ref_fallback (clkPage d) 1).count (clkPage d) evRefLoss
def timeRefBack (d : Nat) (s : State) : State :=
  (s.wr CLK_REF_STATUS.time_ref_present (clkPage d) 1).wr CLK_REF_STATUS.time_ref_fallback (clkPage d) 0

theorem timeRefAway_only (d : Nat) (s : State) : ChangesOnly [] (onPages [clkPage d]) s (timeRefAway d s) :=
  (((clk_wr _ _ _ _ (by decide) (by decide)).trans (clk_wr _ _ _ _ (by decide) (by decide))).trans
    (clk_wr _ _ _ _ (by decide) (by decide))).trans (clk_count _ _ _)

theorem timeRefBack_only (d : Nat) (s : State) : ChangesOnly [] (onPages [clkPage d]) s (timeRefBack d s) :=
  (clk_wr _ _ _ _ (by decide) (by decide)).trans (clk_wr _ _ _ _ (by decide) (by decide))

theorem timeRefAway_present (d : Nat) (s : State) : (timeRefAway d s).rd CLK_REF_STATUS.time_ref_present (clkPage d) = 0 := by
  unfold timeRefAway
  rw [rd_clk_count _ _ _ _ (by decide) (by decide), rd_clk_wr_ne _ _ (by decide), rd_clk_wr_ne _ _ (by decide)]
  exact State.rd_wr_same _ _ _ _ _

theorem timeRefAway_lost (d : Nat) (s : State) : (timeRefAway d s).rd CLK_REF_STATUS.time_ref_lost (clkPage d) = 1 := by
  unfold timeRefAway
  rw [rd_clk_count _ _ _ _ (by decide) (by decide), rd_clk_wr_ne _ _ (by decide)]
  exact State.rd_wr_same _ _ _ _ _

theorem timeRefAway_fallback (d : Nat) (s : State) : (timeRefAway d s).rd CLK_REF_STATUS.time_ref_fallback (clkPage d) = 1 := by
  unfold timeRefAway
  rw [rd_clk_count _ _ _ _ (by decide) (by decide)]
  exact State.rd_wr_same _ _ _ _ _

theorem timeRefLoss_applied {s : State} (diff : Int) (h : s.time.refApplied = true) : timeRefLoss diff s = s := if_pos h

theorem timeRefLoss_eq {s : State} (diff : Int) (h : s.time.refApplied = false) :
    timeRefLoss diff s = { s with time := { s.time with refDiff := diff, refApplied := true } }.each (List.range 4) timeRefAway :=
  if_neg (by simp [h])

theorem timeRefReturn_eq (s : State) :
    timeRefReturn s = { s with time := { s.time with refApplied := false } }.each (List.range 4) timeRefBack := rfl

/-- What the loss of TIME_REF leaves (R377). -/
theorem timeRefLoss_spec {s : State} (diff : Int) (h : s.time.refApplied = false) :
    (timeRefLoss diff s).time = { s.time with refDiff := diff, refApplied := true }
      ∧ (∀ k, k < 4 → (timeRefLoss diff s).rd CLK_REF_STATUS.time_ref_present (clkPage k) = 0
        ∧ (timeRefLoss diff s).rd CLK_REF_STATUS.time_ref_lost (clkPage k) = 1
        ∧ (timeRefLoss diff s).rd CLK_REF_STATUS.time_ref_fallback (clkPage k) = 1)
      ∧ ChangesOnly [.time] (onPages (diePagesOf clkPage)) s (timeRefLoss diff s) := by
  rw [timeRefLoss_eq diff h]
  have hloop := fun t => clkLoop_only (l := []) timeRefAway_only t
  refine ⟨(hloop _).pieces .time (by decide), fun k hk => ⟨?_, ?_, ?_⟩, ?_⟩
  · exact clkLoop_rd timeRefAway_only _ (by decide) (by decide) timeRefAway_present hk
  · exact clkLoop_rd timeRefAway_only _ (by decide) (by decide) timeRefAway_lost hk
  · exact clkLoop_rd timeRefAway_only _ (by decide) (by decide) timeRefAway_fallback hk
  · exact (setTime_only s _ (by decide)).trans ((hloop _).mono (List.nil_subset _) fun _ h => h)

/-- What the return of TIME_REF leaves: the difference no longer applies, and no counter steps (R377). -/
theorem timeRefReturn_spec (s : State) : (timeRefReturn s).time = { s.time with refApplied := false }
    ∧ (∀ k, k < 4 → (timeRefReturn s).rd CLK_REF_STATUS.time_ref_present (clkPage k) = 1
      ∧ (timeRefReturn s).rd CLK_REF_STATUS.time_ref_fallback (clkPage k) = 0)
    ∧ ChangesOnly [.time] (onPages (diePagesOf clkPage)) s (timeRefReturn s) := by
  rw [timeRefReturn_eq]
  have hloop := fun t => clkLoop_only (l := []) timeRefBack_only t
  refine ⟨(hloop _).pieces .time (by decide), fun k hk => ⟨?_, ?_⟩, ?_⟩
  · exact clkLoop_rd timeRefBack_only _ (by decide) (by decide) (fun d t => (rd_clk_wr_ne _ _ (by decide)).trans (State.rd_wr_same _ _ _ _ _)) hk
  · exact clkLoop_rd timeRefBack_only _ (by decide) (by decide) (fun d t => State.rd_wr_same _ _ _ _ _) hk
  · exact (setTime_only s _ (by decide)).trans ((hloop _).mono (List.nil_subset _) fun _ h => h)

end Sys2Proof.Machine
end

section
/-! SUPPORT. The SERDES reference of a die (R40): its sub-ports go dark with it, and its engines and ports resume when it returns. -/

namespace Sys2Proof.Machine

/-! ### Sub-ports that are cut -/

/-- From `s` to `t` sub-ports of port `p` may have gone dark or started: those that are not UP stay so, and no other port's sub-port changes. -/
structure Dims (p : Nat) (s t : State) : Prop where
  down : ∀ k, k < 2048 → s.isUp k = false → t.isUp k = false
  others : ∀ k, k / 4 ≠ p → t.sub k = s.sub k

namespace Dims

variable {p : Nat} {s t u : State}

theorem refl (p : Nat) (s : State) : Dims p s s := ⟨fun _ _ h => h, fun _ _ => rfl⟩
theorem trans (h : Dims p s t) (k : Dims p t u) : Dims p s u :=
  ⟨fun i hi hs => k.down i hi (h.down i hi hs), fun i hi => (k.others i hi).trans (h.others i hi)⟩
theorem iff (b : Bool) (f : State → State) (h : Dims p s (f s)) : Dims p s (s.iff b f) := State.iff_rel (refl p) s b f h
theorem each {α : Type} (l : List α) (f : α → State → State) (h : ∀ x ∈ l, ∀ s, Dims p s (f x s)) (s : State) : Dims p s (s.each l f) :=
  State.each_rel (refl p) trans f l h s

/-- A change that keeps the sub-ports and the port states. -/
theorem of_same (hs : t.subs = s.subs) (hl : ∀ k, k < 2048 → t.linkState k = s.linkState k) : Dims p s t :=
  ⟨fun k hk h => by rw [State.isUp, hl k hk]; exact h, fun k _ => State.sub_congr hs k⟩

theorem draining (s : State) (x : Sparse Draining) : Dims p s { s with byp := { s.byp with draining := x } } := of_same rfl fun _ _ => rfl

theorem setLink (s : State) (l : Nat) {v : Nat} (hv : (v % 16 == 6) = false) : Dims p s (s.setLink l v) := by
  refine ⟨fun k _ h => ?_, fun _ _ => rfl⟩
  by_cases hk : k = l
  · rw [hk, isUp_setLink, hv]
  · rw [State.isUp, State.linkState_setLink_ne s l k v hk]; exact h

section
variable {l : Nat} (hl : l / 4 = p)
include hl

theorem setSub (s : State) (x : SubPort) : Dims p s (s.setSub l x) :=
  ⟨fun _ _ h => h, fun _ hk => State.sub_setSub_ne s x fun h => hk (h ▸ hl)⟩

theorem goDark (s : State) {v : Nat} (hv : (v % 16 == 6) = false) : Dims p s (s.goDark l v) :=
  (setLink s l hv).trans (setSub hl _ _)

theorem goRest (s : State) : Dims p s (s.goDark l (s.restState l)) := by
  obtain ⟨hmod, hne⟩ := restState_not_up s l
  exact goDark hl s (by rw [hmod, hne])

theorem startSub (s : State) : Dims p s (s.startSub l) := by
  unfold State.startSub
  split_ifs
  · exact refl _ s
  · exact goDark hl s rfl
  · exact goDark hl s rfl
  · exact goRest hl s

end

end Dims

theorem linkDown_down (s : State) (l cause flush : Nat) (hl : l < 2048) : (s.linkDown l cause flush).isUp l = false := by
  have hkey := linkState_noSwitch hl
  have hpage := portPage_aligned (l / 4)
  unfold State.linkDown State.isUp State.linkState
  dsimp only
  rw [(flushPort_moved _ _ _).regs.rd hkey, (penalty_kept noSwitch _ _ _).rd hkey, (count_kept _ _ _ _ _ hpage).rd hkey.1.ctr,
    (alarm_kept _ _ _ _ _ _).rd hkey.1, (irq_kept _ _ _ hpage).rd (noIrqLink _ _ _ (by omega)),
    State.rd_wr_ne _ _ (last_cause_ne_state _ _).symm]
  exact isUp_setLink _ _

theorem Dims.linkDown (s : State) (l cause flush : Nat) (hl : l < 2048) : Dims (l / 4) s (s.linkDown l cause flush) := by
  obtain ⟨-, hothers, -⟩ := linkDown_spec s l cause flush hl
  refine ⟨fun k hk h => ?_, fun k hk => hothers k fun e => hk (e ▸ rfl)⟩
  by_cases hkl : k = l
  · rw [hkl]; exact linkDown_down s l cause flush hl
  · rw [State.isUp, State.linkState, (linkDown_stops s cause flush).rd (linkState_not_isStop hk hkl)]; exact h

theorem Dims.lasersOff (p : Nat) (s : State) (e : Nat) : Dims p s (s.lasersOff e) := by
  refine Dims.of_same (State.lasersOff_subs s e) fun k hk => ?_
  unfold State.lasersOff State.setCal
  dsimp only
  split_ifs
  · rfl
  · refine (State.rd_wr_ne _ _ fun h => ?_).trans ((outputs_spec s e 0).2 _ _ _)
    obtain ⟨hp, -⟩ := port_key OPT_PORT_STATE.state (k / 4) (k % 4) (by simp [Fld.offAt, OPT_PORT_STATE.state])
      (by simp [Fld.loAt, OPT_PORT_STATE.state]; omega)
    rw [h, (eng_key OPT_ENG_STATUS.cal_state e 0 (by decide) (by decide)).1] at hp
    unfold engPage portPage diePage at hp
    omega

theorem Dims.portDark (s : State) (p : Nat) : Dims p s (s.portDark p) := by
  unfold State.portDark
  split_ifs
  · exact Dims.refl _ _
  · refine Dims.trans ?_ (Dims.lasersOff _ _ _)
    refine Dims.trans ?_ (Dims.each (lportsOf [p]) _ (fun l hl t => Dims.iff _ _ (Dims.startSub (mem_lportsOf.mp hl) t)) _)
    refine Dims.iff _ _ ((Dims.draining s (Sparse.del s.byp.draining p)).trans ?_)
    exact Dims.each (lportsOf [p]) _ (fun l hl t => Dims.goRest (mem_lportsOf.mp hl) t) _

/-- A sub-port that is cut for its engine is not UP. -/
theorem cutSub_down (s : State) (l cause : Nat) (hl : l < 2048) :
    Dims (l / 4) s (s.cutSub l cause psWaitEngine) ∧ (s.cutSub l cause psWaitEngine).isUp l = false := by
  unfold State.cutSub
  dsimp only
  generalize hu : s.iff (s.isUp l) (fun s => s.linkDown l cause 0x1B) = u
  have hfirst : Dims (l / 4) s u := by
    rw [← hu]
    exact Dims.iff _ _ (Dims.linkDown s l _ _ hl)
  have hdown : u.isUp l = false := by
    rw [← hu]
    cases h : s.isUp l
    · exact h
    · rw [State.iff_true]
      exact linkDown_down s l _ _ hl
  have hdark : Dims (l / 4) u (u.goDark l (if u.wanted l then psWaitEngine else u.restState l)) := by
    split_ifs
    · exact Dims.goDark rfl u rfl
    · exact Dims.goRest rfl u
  suffices hrest : Dims (l / 4) u _ from ⟨hfirst.trans hrest, hrest.down l hl hdown⟩
  refine Dims.trans (Dims.trans ?_ (Dims.iff _ _ (Dims.setSub rfl _ _))) (Dims.portDark _ _)
  exact Dims.iff _ _ hdark

/-- From `s` to `t` sub-ports of die `d` have gone dark: dark ones stay so, those that are not UP too, and no other die's sub-port changes. -/
structure Darkens (d : Nat) (s t : State) : Prop where
  dark : ∀ k, (s.sub k).tx = .dark → (t.sub k).tx = .dark
  down : ∀ k, k < 2048 → s.isUp k = false → t.isUp k = false
  others : ∀ k, k / 512 ≠ d → t.sub k = s.sub k

theorem Darkens.refl (d : Nat) (s : State) : Darkens d s s := ⟨fun _ h => h, fun _ _ h => h, fun _ _ => rfl⟩
theorem Darkens.trans {d : Nat} {s t u : State} (h : Darkens d s t) (k : Darkens d t u) : Darkens d s u :=
  ⟨fun i hi => k.dark i (h.dark i hi), fun i hi hs => k.down i hi (h.down i hi hs), fun i hi => (k.others i hi).trans (h.others i hi)⟩

/-- The sub-ports of die `d`, and what cuts them. -/
def dieLports (d : Nat) : List Nat := lportsOf ((List.range 128).map fun q => 128 * d + q)
def State.cutDie (s : State) (d : Nat) : State := s.each (dieLports d) fun l s => s.cutSub l cRefLoss psWaitEngine

theorem mem_dieLports {d l : Nat} : l ∈ dieLports d ↔ l / 512 = d := by
  have hport : l ∈ dieLports d ↔ ∃ q < 128, l / 4 = 128 * d + q := by
    simp only [dieLports, lportsOf, List.mem_flatMap, List.mem_map, List.mem_range, List.mem_cons, List.not_mem_nil, or_false]
    exact ⟨fun ⟨_, ⟨q, hq, he⟩, hl⟩ => ⟨q, hq, by omega⟩, fun ⟨q, hq, he⟩ => ⟨_, ⟨q, hq, rfl⟩, by omega⟩⟩
  rw [hport]
  exact ⟨fun ⟨q, hq, he⟩ => by omega, fun h => ⟨l / 4 - 128 * d, by omega, by omega⟩⟩

theorem cutSub_darkens (s : State) {l : Nat} (hl : l < 2048) : Darkens (l / 512) s (s.cutSub l cRefLoss psWaitEngine)
    ∧ ((s.cutSub l cRefLoss psWaitEngine).sub l).tx = .dark ∧ (s.cutSub l cRefLoss psWaitEngine).isUp l = false := by
  obtain ⟨hdark, hstays⟩ := cutSub_dark s l cRefLoss psWaitEngine hl
  obtain ⟨hdims, hdown⟩ := cutSub_down s l cRefLoss hl
  exact ⟨⟨hstays, hdims.down, fun k hk => hdims.others k fun h => hk (by omega)⟩, hdark, hdown⟩

/-- Every sub-port of the die is dark and not UP, and no other changes. -/
theorem cutDie_darkens (s : State) {d : Nat} (hd : d < 4) : (∀ l, l / 512 = d → ((s.cutDie d).sub l).tx = .dark ∧ (s.cutDie d).isUp l = false)
    ∧ ∀ l, l / 512 ≠ d → (s.cutDie d).sub l = s.sub l := by
  have hlt : ∀ l ∈ dieLports d, l < 2048 := fun l hl => by rw [mem_dieLports] at hl; omega
  have hstep : ∀ l ∈ dieLports d, ∀ t : State, Darkens d t (t.cutSub l cRefLoss psWaitEngine)
      ∧ ((t.cutSub l cRefLoss psWaitEngine).sub l).tx = .dark ∧ (t.cutSub l cRefLoss psWaitEngine).isUp l = false := fun l hl t => by
    have h := cutSub_darkens t (hlt l hl)
    rwa [mem_dieLports.mp hl] at h
  refine ⟨fun l hl => ?_, (State.each_rel (Darkens.refl d) Darkens.trans _ _ (fun l hl t => (hstep l hl t).1) s).others⟩
  exact State.each_reaches (Q := fun l t => (t.sub l).tx = .dark ∧ t.isUp l = false) (Darkens.refl d) Darkens.trans _ _ hstep
    (fun l hl t u ⟨hdark, hdown⟩ h => ⟨h.dark l hdark, h.down l (hlt l hl) hdown⟩) s l (mem_dieLports.mpr hl)

theorem cutDie_moved (s : State) {d : Nat} (hd : d < 4) : PortMoved s (s.cutDie d) :=
  PortMoved.each _ _ (fun l hl t => cutSub_moved t l _ _ (by rw [mem_dieLports] at hl; omega)) s

/-! ### The loss of the reference -/

/-- The reference of die `d` is lost, and with it the lock of its lanes. -/
def State.serdesAway (s : State) (d : Nat) : State :=
  ((((s.wr CLK_REF_STATUS.serdes_ref_present (clkPage d) 0).wr CLK_REF_STATUS.serdes_ref_lost (clkPage d) 1).wr
    CLK_PLL_LOCK.lane_tx_lock (clkPage d) 0).wr CLK_PLL_LOCK.mgt_lock (clkPage d) 0).count (clkPage d) 0x80

theorem serdesRefLoss_away {s : State} {d : Nat} (h : s.flag CLK_REF_STATUS.serdes_ref_present (clkPage d) = false) : serdesRefLoss d s = s :=
  if_pos h

theorem serdesRefLoss_eq {s : State} {d : Nat} (h : s.flag CLK_REF_STATUS.serdes_ref_present (clkPage d) = true) :
    serdesRefLoss d s = (s.serdesAway d).cutDie d := by
  unfold serdesRefLoss State.serdesAway State.cutDie dieLports
  dsimp only
  rw [if_neg (by simp [h])]

theorem serdesAway_only (s : State) (d : Nat) : ChangesOnly [] (onPages [clkPage d]) s (s.serdesAway d) :=
  ((((clk_wr _ _ _ _ (by decide) (by decide)).trans (clk_wr _ _ _ _ (by decide) (by decide))).trans
    (clk_wr _ _ _ _ (by decide) (by decide))).trans (clk_wr _ _ _ _ (by decide) (by decide))).trans (clk_count _ _ _)

theorem serdesAway_rd (s : State) (d : Nat) : (s.serdesAway d).rd CLK_REF_STATUS.serdes_ref_present (clkPage d) = 0
    ∧ (s.serdesAway d).rd CLK_REF_STATUS.serdes_ref_lost (clkPage d) = 1 ∧ (s.serdesAway d).rd CLK_PLL_LOCK.lane_tx_lock (clkPage d) = 0 := by
  unfold State.serdesAway
  refine ⟨?_, ?_, ?_⟩ <;> rw [rd_clk_count _ _ _ _ (by decide) (by decide), rd_clk_wr_ne _ _ (by decide)]
  · rw [rd_clk_wr_ne _ _ (by decide), rd_clk_wr_ne _ _ (by decide)]; exact State.rd_wr_same _ _ _ _ _
  · rw [rd_clk_wr_ne _ _ (by decide)]; exact State.rd_wr_same _ _ _ _ _
  · exact State.rd_wr_same _ _ _ _ _

/-- What the loss of the reference leaves beside the die's sub-ports. -/
theorem serdesRefLoss_spec {s : State} {d : Nat} (hd : d < 4) (h : s.flag CLK_REF_STATUS.serdes_ref_present (clkPage d) = true) :
    let t := serdesRefLoss d s
    t.rd CLK_REF_STATUS.serdes_ref_present (clkPage d) = 0 ∧ t.rd CLK_REF_STATUS.serdes_ref_lost (clkPage d) = 1
      ∧ t.rd CLK_PLL_LOCK.lane_tx_lock (clkPage d) = 0 ∧ (∀ l, l / 512 = d → (t.sub l).tx = .dark ∧ t.isUp l = false)
      ∧ (∀ l, l / 512 ≠ d → t.sub l = s.sub l) ∧ t.mem = s.mem ∧ t.tables = s.tables ∧ t.time = s.time ∧ t.boot = s.boot := by
  have haway := serdesAway_only s d
  have hcut := cutDie_moved (s.serdesAway d) hd
  have hkeeps : ∀ f : Fld, f.offAt 0 < 0xF00 → f.loAt 0 < 64 →
      ((s.serdesAway d).cutDie d).rd f (clkPage d) = (s.serdesAway d).rd f (clkPage d) := fun f h1 h2 => hcut.regs.rd (clk_noPort f d 0 hd h1 h2)
  obtain ⟨hpresent, hlost, hlock⟩ := serdesAway_rd s d
  obtain ⟨hdie, hothers⟩ := cutDie_darkens (s.serdesAway d) hd
  rw [serdesRefLoss_eq h]
  exact ⟨(hkeeps _ (by decide) (by decide)).trans hpresent, (hkeeps _ (by decide) (by decide)).trans hlost,
    (hkeeps _ (by decide) (by decide)).trans hlock, hdie, fun l hl => (hothers l hl).trans (State.sub_congr (haway.subs (by decide)) l),
    hcut.mem.trans (haway.pieces .mem (by decide)), hcut.tables.trans (haway.pieces .tables (by decide)),
    hcut.time.trans (haway.pieces .time (by decide)), hcut.boot.trans (haway.boot (by decide))⟩

/-! ### The return of the reference -/

/-- From `s` to `t` die `d` resumes: memory, tables, time and boot stay, as does its reference, and its lanes keep their lock. -/
structure Resumes (d : Nat) (s t : State) : Prop where
  mem : t.mem = s.mem
  tables : t.tables = s.tables
  time : t.time = s.time
  boot : t.boot = s.boot
  present : t.rd CLK_REF_STATUS.serdes_ref_present (clkPage d) = s.rd CLK_REF_STATUS.serdes_ref_present (clkPage d)
  lock : s.rd CLK_PLL_LOCK.lane_tx_lock (clkPage d) = 1 → t.rd CLK_PLL_LOCK.lane_tx_lock (clkPage d) = 1

namespace Resumes

variable {d : Nat} {s t u : State}

theorem refl (d : Nat) (s : State) : Resumes d s s := ⟨rfl, rfl, rfl, rfl, rfl, fun h => h⟩
theorem trans (h : Resumes d s t) (k : Resumes d t u) : Resumes d s u :=
  ⟨k.mem.trans h.mem, k.tables.trans h.tables, k.time.trans h.time, k.boot.trans h.boot, k.present.trans h.present, fun x => k.lock (h.lock x)⟩
theorem iff (b : Bool) (f : State → State) (h : Resumes d s (f s)) : Resumes d s (s.iff b f) := State.iff_rel (refl d) s b f h

theorem of_moved (hd : d < 4) (h : PortMoved s t) : Resumes d s t :=
  ⟨h.mem, h.tables, h.time, h.boot, h.regs.rd (clk_noPort _ d 0 hd (by decide) (by decide)),
    fun x => (h.regs.rd (clk_noPort _ d 0 hd (by decide) (by decide))).trans x⟩

theorem laneLock (s : State) : Resumes d s (s.wr CLK_PLL_LOCK.lane_tx_lock (clkPage d) 1) :=
  ⟨rfl, rfl, rfl, rfl, rd_clk_wr_ne _ _ (by decide), fun _ => State.rd_wr_same _ _ _ _ _⟩

theorem mgtLock (s : State) : Resumes d s (s.wr CLK_PLL_LOCK.mgt_lock (clkPage d) 1) :=
  ⟨rfl, rfl, rfl, rfl, rd_clk_wr_ne _ _ (by decide), fun x => (rd_clk_wr_ne _ _ (by decide)).trans x⟩

end Resumes

theorem setCal_moved (s : State) (e v : Nat) : PortMoved s (s.setCal e v) :=
  PortMoved.of_kept (p := noPort) (Kept.wr _ _ _ _ _ fun h => h.2 (.inr ⟨e, rfl⟩)) fun _ h => h

theorem engineStep4_moved (s : State) (e : Nat) : PortMoved s (s.engineStep4 e) := by
  unfold State.engineStep4
  refine PortMoved.trans ?_ (setCal_moved _ e _)
  exact PortMoved.setModule s e _ rfl

theorem engineStep3_moved (s : State) (e : Nat) : PortMoved s (s.engineStep3 e) := by
  unfold State.engineStep3 State.outputs
  refine PortMoved.trans ?_ (setCal_moved _ e _)
  refine PortMoved.trans ?_ (PortMoved.of_kept (emit_kept _ _) fun _ h => h.1.1.ctr)
  exact PortMoved.setModule s e _ rfl

theorem engineBringup_resumes (s : State) {e d : Nat} (hd : d < 4) (he : e / 4 = d) : Resumes d s (engineBringup e s) := by
  subst he
  unfold engineBringup
  dsimp only
  split_ifs
  · exact Resumes.refl _ s
  · exact (Resumes.laneLock s).trans (Resumes.of_moved hd (engineStep4_moved _ e))
  · exact (Resumes.laneLock s).trans (Resumes.of_moved hd (engineStep3_moved _ e))
  · exact Resumes.laneLock s

theorem serdesLock_spec {s : State} {d : Nat} (h : s.flag CLK_REF_STATUS.serdes_ref_present (clkPage d) = true) :
    Resumes d s (s.serdesLock d) ∧ (s.serdesLock d).rd CLK_PLL_LOCK.lane_tx_lock (clkPage d) = 1 := by
  have hmgt : ∀ t : State, Resumes d t (t.iff (d == 0 || d == 3) fun s => s.wr CLK_PLL_LOCK.mgt_lock (clkPage d) 1) := fun t =>
    Resumes.iff _ _ (Resumes.mgtLock t)
  unfold State.serdesLock
  dsimp only
  rw [h, State.iff_true]
  exact ⟨(Resumes.laneLock s).trans (hmgt _), (hmgt _).lock (State.rd_wr_same _ _ _ _ _)⟩

theorem serdesRefReturn_idle {s : State} {d : Nat} (h : s.flag CLK_REF_STATUS.serdes_ref_present (clkPage d) = true ∨ s.power.pwrOk = false) :
    serdesRefReturn d s = s := if_pos (by rcases h with h | h <;> simp [h])

/-- The reference of die `d` returns. -/
def State.serdesBack (s : State) (d : Nat) : State := s.wr CLK_REF_STATUS.serdes_ref_present (clkPage d) 1

/-- Bring-up of die `d` resumes. -/
def State.serdesResumed (s : State) (d : Nat) : State :=
  ((s.serdesLock d).each [4 * d, 4 * d + 1, 4 * d + 2, 4 * d + 3] fun e s => engineBringup e s).startWaiting
    ((List.range 128).map fun q => 128 * d + q)

/-- A reset or standby holds die `d`. -/
def State.serdesWaits (s : State) (d : Nat) : Prop := s.dieHeld d = true ∨ s.rd PWR_DIE_STATUS.state (pwrDiePage d) = 2

theorem serdesBack_waits (s : State) {d : Nat} : (s.serdesBack d).serdesWaits d ↔ s.serdesWaits d := by
  have hne : ∀ (f : Fld) (a : Nat), a % 4096 = 0 → a ≠ clkPage d → f.offAt 0 < 4096 → f.loAt 0 < 64 → (s.serdesBack d).rd f a = s.rd f a :=
    fun f a ha hp h1 h2 => State.rd_wr_ne _ _ (page_ne _ _ _ _ _ _ ha (clkPage_aligned d) hp h1 h2 (by decide) (by decide))
  unfold State.serdesWaits State.dieHeld
  rw [hne _ (ctlDiePage d) (by unfold ctlDiePage diePage; omega) (by unfold ctlDiePage clkPage diePage; omega) (by decide) (by decide),
    hne _ (pwrDiePage d) (by unfold pwrDiePage diePage; omega) (by unfold pwrDiePage clkPage diePage; omega) (by decide) (by decide)]

section
variable {s : State} {d : Nat} (h : s.flag CLK_REF_STATUS.serdes_ref_present (clkPage d) = false) (hp : s.power.pwrOk = true)
include h hp

theorem serdesRefReturn_held (hw : s.serdesWaits d) : serdesRefReturn d s = s.serdesBack d := by
  have hguard : ¬(s.flag CLK_REF_STATUS.serdes_ref_present (clkPage d) || !s.power.pwrOk) = true := by simp [h, hp]
  exact (if_neg hguard).trans (if_pos ((serdesBack_waits s).mpr hw))

theorem serdesRefReturn_free (hw : ¬s.serdesWaits d) : serdesRefReturn d s = (s.serdesBack d).serdesResumed d := by
  have hguard : ¬(s.flag CLK_REF_STATUS.serdes_ref_present (clkPage d) || !s.power.pwrOk) = true := by simp [h, hp]
  exact (if_neg hguard).trans (if_neg fun hb => hw ((serdesBack_waits s).mp hb))

end

theorem serdesBack_rd (s : State) (d : Nat) : (s.serdesBack d).rd CLK_REF_STATUS.serdes_ref_present (clkPage d) = 1 := State.rd_wr_same _ _ _ _ _

theorem serdesResumed_spec {s : State} {d : Nat} (hd : d < 4) (h : s.flag CLK_REF_STATUS.serdes_ref_present (clkPage d) = true) :
    Resumes d s (s.serdesResumed d) ∧ (s.serdesResumed d).rd CLK_PLL_LOCK.lane_tx_lock (clkPage d) = 1 := by
  obtain ⟨hlock, hlocked⟩ := serdesLock_spec h
  have hengines : Resumes d (s.serdesLock d) ((s.serdesLock d).each [4 * d, 4 * d + 1, 4 * d + 2, 4 * d + 3] fun e s => engineBringup e s) :=
    State.each_rel (Resumes.refl d) Resumes.trans _ _ (fun e he t => engineBringup_resumes t hd (by
      simp only [List.mem_cons, List.not_mem_nil, or_false] at he
      omega)) _
  have hstart := hengines.trans (Resumes.of_moved hd (startWaiting_moved _ ((List.range 128).map fun q => 128 * d + q) fun p hp => by
    simp only [List.mem_map, List.mem_range] at hp
    omega))
  exact ⟨hlock.trans hstart, hstart.lock hlocked⟩

/-- What the return of the reference leaves; a die that is held waits with the rest of it (R40). -/
theorem serdesRefReturn_spec {s : State} {d : Nat} (hd : d < 4) (h : s.flag CLK_REF_STATUS.serdes_ref_present (clkPage d) = false)
    (hp : s.power.pwrOk = true) :
    let t := serdesRefReturn d s
    t.rd CLK_REF_STATUS.serdes_ref_present (clkPage d) = 1 ∧ t.mem = s.mem ∧ t.tables = s.tables ∧ t.time = s.time ∧ t.boot = s.boot
      ∧ (¬s.serdesWaits d → t.rd CLK_PLL_LOCK.lane_tx_lock (clkPage d) = 1)
      ∧ (s.serdesWaits d → ChangesOnly [] (fun k => k = CLK_REF_STATUS.serdes_ref_present.key (clkPage d) 0) s t) := by
  have hback := serdesBack_rd s d
  by_cases hw : s.serdesWaits d
  · rw [serdesRefReturn_held h hp hw]
    exact ⟨hback, rfl, rfl, rfl, rfl, fun hfree => absurd hw hfree, fun _ => ChangesOnly.wr _ _ _ _ _ rfl⟩
  · rw [serdesRefReturn_free h hp hw]
    obtain ⟨hresumes, hlock⟩ := serdesResumed_spec (s := s.serdesBack d) hd (by rw [State.flag, hback]; rfl)
    exact ⟨hresumes.present.trans hback, hresumes.mem, hresumes.tables, hresumes.time, hresumes.boot, fun _ => hlock, fun hheld => absurd hheld hw⟩

theorem not_serdesWaits {s : State} {d : Nat} (h : s.dieHeld d = false) (hs : s.rd PWR_DIE_STATUS.state (pwrDiePage d) ≠ 2) : ¬s.serdesWaits d :=
  not_or.mpr ⟨by simp [h], hs⟩

end Sys2Proof.Machine

open Sys2Proof.Machine

/-- Settles O18: each reference by what its loss and its return leave on the clock pages; a die's sub-ports are cut one by one, and its
engines resume one by one. -/
theorem referenceClocksComeAndGo : Obligations.ReferenceClocksComeAndGo := by
  intro s d diff ref
  refine ⟨fun h => ⟨_, rfl, ?_⟩, fun h => ⟨_, rfl, ?_⟩, fun h => ⟨_, rfl, serdesRefLoss_spec (s := s.cleared) d.isLt h⟩, fun h hp => ⟨_, rfl, ?_⟩,
    fun h => completes_unchanged rfl (sysclkLoss_away (s := s.cleared) h), fun h => completes_unchanged rfl (sysclkReturn_present (s := s.cleared) h),
    fun h => completes_unchanged rfl (serdesRefLoss_away (s := s.cleared) h), fun h => completes_unchanged rfl (serdesRefReturn_idle (s := s.cleared) h),
    fun h => completes_unchanged rfl (timeRefLoss_applied (s := s.cleared) diff h), fun h => ⟨_, rfl, ?_⟩, ⟨_, rfl, ?_⟩⟩
  · obtain ⟨haway, hfault, hstopped, honly⟩ := sysclkLoss_spec (s := s.cleared) h
    refine ⟨haway, hfault, ?_, hstopped, honly.run⟩
    rw [State.run_faultN, State.run_faulted, faulted_of _ PWR_FAULT.sysclk_loss (by decide) hfault]
    rfl
  · obtain ⟨hback, hstopped, honly⟩ := sysclkReturn_spec (s := s.cleared) h
    exact ⟨hback, hstopped, honly.run⟩
  · obtain ⟨hback, hmem, htables, htime, hboot, hfree, hheld⟩ := serdesRefReturn_spec (s := s.cleared) d.isLt h hp
    exact ⟨hback, hmem, htables, htime, hboot, fun hd hstate => hfree (not_serdesWaits hd hstate), fun hw => (hheld hw).run⟩
  · obtain ⟨htime, hfields, honly⟩ := timeRefLoss_spec (s := s.cleared) diff h
    exact ⟨htime, hfields, honly.run⟩
  · obtain ⟨htime, hfields, honly⟩ := timeRefReturn_spec s.cleared
    exact ⟨htime, hfields, honly.run⟩
end
